-- ==== Sys2Proof/Word.lean ====
section
/-! DEFINITION. The word types of the spec and their plainest arithmetic: bytes, little-endian words (R7) and modular
comparison (R648). -/

namespace Sys2Proof

abbrev Byte := BitVec 8
abbrev U16 := BitVec 16
abbrev U32 := BitVec 32
abbrev U48 := BitVec 48
abbrev U64 := BitVec 64

/-- A payload, a frame or the contents of a buffer: bytes in ascending address order. -/
abbrev Bytes := List Byte

/-- R648: the difference of two n-bit counters, read as signed. -/
def modDiff {n : Nat} (a b : BitVec n) : Int := (a - b).toInt

end Sys2Proof
end

