-- ==== Sys2Proof/Syntax.lean ====
section
/-! DEFINITION. The commands of the block: one constructor of `Instr` per row of the table of operations and events.
A command carries the clock reading at which it happens (`t`, in SLICE ticks since power-up, R54) and what the outside
brings with it: a frame's fields, a register address and value, an edge's tag, a measured value. -/

namespace Sys2Proof

/-! ## What the outside brings -/

/-- R64: a VT instant, seconds since 2000-01-01T00:00:00 TAI and a fraction in units of 2⁻⁴⁸ s. -/
structure Vt96 where
  sec : U48
  frac : U48
deriving DecidableEq, Repr, Inhabited

/-- R451: the transports a command frame can arrive on. -/
inductive Transport where
  | host0 | host1 | mgmt | service
deriving DecidableEq, Repr, Inhabited

/-- R452, R503: the transport of a frame and, for a UDP transport, its source. `v6` tells the address family; an IPv4
address stands in the low 32 bits of `ip`. -/
structure Source where
  via : Transport
  v6 : Bool := false
  ip : BitVec 128 := 0
  port : U16 := 0
deriving DecidableEq, Repr, Inhabited

/-- R458: the fields of a command frame that has passed its CRC and framing; `flags` are bits [3:0] of the flags byte
(bit 0 ACK_REQ, 1 ASAP, 2 DRY_RUN, 3 SNAPSHOT), the opcode is the constructor's. -/
structure Frame where
  t : Nat
  src : Source
  tenant : Fin 256
  flags : BitVec 4
  seq : U32
  target : U32
  payload : Bytes
deriving DecidableEq, Repr, Inhabited

/-- R15, R76, R457, R623: the multi-word SL values of the service-port window. -/
inductive SlReg where
  | vtNow | ppsEdge | ppsOffset | leapAt | snapVt | idSerial | lastPf
deriving DecidableEq, Repr, Inhabited

/-- R420, R422, R424: why a received Ethernet frame is discarded. -/
inductive DiscardCause where
  | notAddressed | pause | unsupported | otherVlan | commandBufferFull
deriving DecidableEq, Repr, Inhabited

/-- R423: what waits for a destination to be resolved. -/
inductive Sender where
  | stream (i : Fin 128)
  | transfer (journal : Fin 4096)
deriving DecidableEq, Repr, Inhabited

/-- A calendar date and time of day (CAL_TIME, R71 to R73; IRIG, R47). -/
structure Civil where
  year : Nat
  month : Nat
  day : Nat
  hour : Nat
  minute : Nat
  second : Nat
deriving DecidableEq, Repr, Inhabited

/-- R46: the formats of IRIG time code B, DC level shift (b00x) and AM (b12x). -/
inductive IrigFormat where
  | b000 | b001 | b002 | b003 | b004 | b005 | b006 | b007 | b120 | b121 | b122 | b123 | b124 | b125 | b126 | b127
deriving DecidableEq, Repr, Inhabited

/-- R47, R49, R69: one decoded IRIG frame. `offsetHalfHours` and the leap bits are those of the IEEE 1344 extension (as the
control bits of the frame spell them, whether or not they are read), `onTime` the VT reading of the on-time point. -/
structure IrigFrame where
  format : IrigFormat
  coded : Civil
  offsetHalfHours : Int
  quality : BitVec 4
  leapPending : Bool
  leapNegative : Bool
  onTime : Vt96
deriving DecidableEq, Repr, Inhabited

/-- R105: the detections that declare a slice faulty. -/
inductive SliceDetection where
  | stuckBit | shadowDisagreement | trimLimit | selfTest
deriving DecidableEq, Repr, Inhabited

/-- R125, R141: relative terms of one slice (offset in 2⁻⁸ LSB, gain in 2⁻¹⁸, skew and bandwidth in fs). -/
structure Terms where
  o : Int := 0
  g : Int := 0
  tau : Int := 0
  beta : Int := 0
deriving DecidableEq, Repr, Inhabited

/-- R132: the estimates formed in one block: of the spare against its slice, and of the slices in service on the eight phases, in finer
units: o in 10⁻⁶ sample LSB, g in 10⁻⁹, τ and β in 10⁻³ fs. -/
structure BlockEstimates where
  pair : Terms := {}
  phases : List Terms := []
deriving DecidableEq, Repr, Inhabited

/-- The pair estimate of the running window (R128, R129): the spare's relative terms against the shadowed slice; the input's RMS in sample
LSB and the 16 sub-band powers in 0.01 dBFS over the window so far (R131). -/
structure Estimate where
  terms : Terms
  rms : Nat
  bands : List Int
deriving DecidableEq, Repr, Inhabited

/-- R129: what the end of a block gives: the estimates of the block, and the pair estimate of the window so far. -/
structure BlockEnd where
  block : BlockEstimates
  window : Estimate
deriving DecidableEq, Repr, Inhabited

/-- What an ensemble window measured (R131): the relative terms of the nine slices (the entry of a slice not in
service is not read), the input's RMS in sample LSB, the 16 sub-band powers in 0.01 dBFS, and the
image bins found as (k, power in 0.01 dBFS, height above the median in 0.01 dB). -/
structure WindowEstimate where
  terms : List Terms
  rms : Nat
  bands : List Int
  images : List (Nat × Int × Int)
deriving DecidableEq, Repr, Inhabited

/-- R143, R144: what the window of a calibration run gives: what it measured of the channels, and the sets whose read-back fails. -/
structure RunWindow where
  ests : List (Fin 128 × WindowEstimate)
  failing : List (Fin 128 × Fin 5) := []
deriving DecidableEq, Repr, Inhabited

/-- R185: burst A of a Rachis message. -/
structure BurstA where
  type : BitVec 4
  pair : Bool
  hops : BitVec 3
  origin : BitVec 5
  id : U16
  sec : U48
  route : BitVec 5
deriving DecidableEq, Repr, Inhabited

/-- R185: a whole Rachis message: burst A, and burst B with its CRC-8. -/
structure RachisMsg where
  a : BurstA
  frac : U48
  pairB : Bool
  flags : Byte
  tsb : Byte
  crc : Byte
deriving DecidableEq, Repr, Inhabited

/-- R244: a run of consecutive outputs that carry one set of flags (bit 0 OVR, 1 FE_SETTLING, 2 SLICE_FAULT,
3 SETTLING). -/
structure FlagRun where
  start : U32
  len : BitVec 24
  flags : BitVec 4
deriving DecidableEq, Repr, Inhabited

/-- R95, R206: one conversion: the code its slice gave and whether the amplifier overload detector was asserted in it. -/
structure RawSample where
  code : BitVec 12
  overload : Bool := false
deriving DecidableEq, Repr, Inhabited

/-- What the slices of a channel converted: consecutive full-rate samples from number `start` on. A sample number is 8 × the clock
reading of its SLICE tick + its phase. -/
structure SampleData where
  start : Nat
  raw : List RawSample
deriving DecidableEq, Repr, Inhabited

/-- R215, R264, R296: the rings of the module. -/
inductive RingId where
  | record (c : Fin 128)
  | circular (c : Fin 128)
  | stamps (source : Fin 132)
  | results (inst : Fin 1024)
deriving DecidableEq, Repr, Inhabited

/-- R163: the conversions of the channel a digital route names, over which its condition is judged. -/
structure DigitalWatch where
  channel : Fin 128
  data : SampleData
deriving DecidableEq, Repr, Inhabited

/-- R216: the registered consumers of a ring. -/
inductive Consumer where
  | inst (i : Fin 1024)
  | stream (i : Fin 128)
  | job (i : Fin 1024)
deriving DecidableEq, Repr, Inhabited

/-- R322: what one beat of a transfer decodes to: no error, a single-byte error in a lane, or nothing. -/
inductive BeatDecode where
  | clean
  | single (lane : Fin 10)
  | failed
deriving DecidableEq, Repr, Inhabited

/-- R325: the reader of a transfer, and the item it reads (the byte offset of the transfer in the item). -/
inductive ReadUser where
  | engine (e : Fin 512)
  | stream (i : Fin 128) (offset : Nat)
  | transfer (journal : Fin 4096) (offset : Nat)
  | archive (job : Fin 1024) (offset : Nat)
  | other
deriving DecidableEq, Repr, Inhabited

/-- R332, R334 to R338: a request of a transfer at a DRAM port: its source within the port, the clock from which it waits, whether it stays
at urgency level 0 and whether a write has reached its transfer since it was issued (R323: the controller's own, never in a request that is
offered), and for a read its reader. -/
structure DramRequest where
  port : Fin 29
  source : Nat := 0
  addr : BitVec 34
  write : Bool := false
  at_ : Nat
  low : Bool := false
  written : Bool := false
  user : ReadUser := .other
deriving DecidableEq, Repr, Inhabited

/-- R335: a DRAM clock, and the banks (4 × group + bank) whose timing allows a request then. -/
structure DramClock where
  at_ : Nat
  banks : BitVec 32
deriving DecidableEq, Repr, Inhabited

/-- What happens at a controller up to a row: the requests offered to it, and the DRAM clocks at which it can issue. -/
structure DramTraffic where
  offered : List DramRequest := []
  clocks : List DramClock := []
deriving DecidableEq, Repr, Inhabited

/-- R343: the training result of one lane. -/
structure LaneTraining where
  readEye : Byte := 0
  writeEye : Byte := 0
  readVref : Byte := 0
  readDelay : Byte := 0
  writeDelay : Byte := 0
deriving DecidableEq, Repr, Inhabited

/-- R366, R367: what a Winnow lane got wrong, as bytes to be inverted by place: in the block it stored, and in the raw copy of a coded block
that failed. -/
structure BlockFaults where
  stored : List (Nat × Byte) := []
  copy : List (Nat × Byte) := []
deriving DecidableEq, Repr, Inhabited

/-- R509: what a Chaff sweep zeroes. -/
inductive SweepId where
  | page (p : Fin 65536)
  | ear (c : Fin 128)
  | accum (c : Fin 128)
deriving DecidableEq, Repr, Inhabited

/-- R378, R380, R396: how a codeword read comes out: corrected at a stage, or not. Of one that is not, its number in the record, the extent its
loss damages where this module did not lay the record out, and for each other codeword of its parity group the die and whether it is corrected. -/
inductive CodewordOutcome where
  | hard | shifted | soft
  | uncorrectable (word offset length : Nat) (group : List (Fin 128 × Bool))
deriving DecidableEq, Repr, Inhabited

/-- R401: one catalogue entry. -/
structure CatEntry where
  recordId : U48
  tenant : Fin 256
  inputKind : Byte
  source : U16
  job : U16
  prot : Bool
  damaged : Bool
  offline : Bool
  copied : Bool
  cassette : Fin 2
  firstVt : BitVec 80
  lastVt : BitVec 80
  genFirst : U32
  genLast : U32
  rawLen : U64
  storedLen : U64
  firstStripe : U32
deriving DecidableEq, Repr, Inhabited

/-- R404: what the identity block of a cassette says when it is read. `tlc` is the mode, `sameModule` whether it was
last retired in this module, `worn` whether its mean erase count has reached the rated count. -/
inductive CassetteIdentity where
  | blank
  | unreadable
  | known (clean sameModule tlc worn : Bool) (records : List CatEntry)
deriving DecidableEq, Repr, Inhabited

/-- R543: the pin levels at the strobe of run vector `v`: `low` marks the lines below the low threshold, `high` those
above the high threshold. -/
structure PinSample where
  v : Nat
  low : U32
  high : U32
deriving DecidableEq, Repr, Inhabited

/-- R591: how a self-test step comes out when it is run. -/
inductive StepOutcome where
  | pass | fail | notJudged
deriving DecidableEq, Repr, Inhabited

/-- R573: an edge the injector of an Awn source placed, as a lane took it: its offset in steps of 25 ps, the SLICE ticks from the one it was
placed in to the one of its conversion, tap and vernier count. -/
structure InjectedEdge where
  lane : Fin 4
  offset : Fin 64
  ticks : Fin 4
  tap : Fin 64
  count : Fin 100
deriving DecidableEq, Repr, Inhabited

/-- R576, R591: the result of one self-test step; `last` marks the run's last step, `edges` are those of step 5. -/
structure TestStep where
  unitKind : Fin 13
  index : U16
  depth : Fin 5
  step : Fin 19
  outcome : StepOutcome
  measured : Int
  limit : Int := 0
  last : Bool
  edges : List InjectedEdge := []
deriving DecidableEq, Repr, Inhabited

/-! ## The commands -/

/-- The commands of the block, in the table's order. -/
inductive Instr where
  /-- R470: Unsequenced command that reports the tenant's place in every sequence and can discard held commands or reset the command sequence. -/
  | hello (f : Frame)
  /-- R472: Closes the tenant's open stage into a pending commit for a named VT second, or for the next open second with ASAP. -/
  | commitAt (f : Frame)
  /-- R477: Removes pending commits or scheduled commands for a second while its preparation window is still open. -/
  | commitCancel (f : Frame)
  /-- R471: Empties the tenant's open stage and leaves pending commits untouched. -/
  | stageDiscard (f : Frame)
  /-- R494: Returns a tenant's staged commands and the seconds of its pending items. -/
  | stageGet (f : Frame)
  /-- R487: Returns the journal outcome of a command, looked up by sequence or by index, falling back to the replay store. -/
  | journalQuery (f : Frame)
  /-- R496: Returns a range of journal entries and the next index that can be taken. -/
  | journalList (f : Frame)
  /-- R497: Resends stored responses for a range of response sequences, then reports how many were sent and how many are no longer held. -/
  | responseReplay (f : Frame)
  /-- R498: Returns the identity block, read on one CORE tick. -/
  | identityGet (f : Frame)
  /-- R80: Returns the time snapshot block, taken on one CORE tick, without disturbing the SL latches. -/
  | timeGet (f : Frame)
  /-- R81: Stages the reference, loop, PPS, IRIG, slew and alignment settings of the time base. -/
  | timebaseConfig (f : Frame)
  /-- R82: Stages the VT label that the second at the commit boundary takes. -/
  | timeSet (f : Frame)
  /-- R83: Stages the scheduling or cancelling of a leap-table entry. -/
  | leapSchedule (f : Frame)
  /-- R84: Stages a slew or a step of the VT phase to PPS IN. -/
  | timeAlign (f : Frame)
  /-- R85: Converts between a calendar date and VT96 without changing anything in the module. -/
  | timeConvert (f : Frame)
  /-- R86: Stages a forced entry into holdover, or the release of a forced holdover. -/
  | holdoverForce (f : Frame)
  /-- R87: Returns the entries of the leap table. -/
  | leapTableGet (f : Frame)
  /-- R119: Stages enable, range, coupling, filter and sample format for the channels in a mask. -/
  | channelConfig (f : Frame)
  /-- R120: Stages the comparator threshold, hysteresis, slope and enable for the channels in a mask. -/
  | comparatorConfig (f : Frame)
  /-- R121: Returns the live conversion status of one channel. -/
  | channelStatusGet (f : Frame)
  /-- R122: Returns a channel's interpolated sample-path and comparator-path delays. -/
  | delayTableGet (f : Frame)
  /-- R123: Stages the handover dwell and automatic substitution settings. -/
  | rotationConfig (f : Frame)
  /-- R124: Stages the substitution and retirement of a faulty slice, or the restore of a retired slice. -/
  | sliceSubstitute (f : Frame)
  /-- R153: Stages the module-wide calibration settings. -/
  | calConfig (f : Frame)
  /-- R154: Stages the background estimation and dither settings of the channels in a mask. -/
  | calChannelConfig (f : Frame)
  /-- R155: Stages a calibration run over the channels in a mask. -/
  | calRun (f : Frame)
  /-- R156: Returns the calibration status of one channel. -/
  | calStatusGet (f : Frame)
  /-- R157: Returns the five temperature sets of one channel. -/
  | calSetGet (f : Frame)
  /-- R158: Returns entries of the calibration log. -/
  | calLogGet (f : Frame)
  /-- R194: Stages the source, qualifiers and hold-off of a trigger route. -/
  | triggerRouteConfig (f : Frame)
  /-- R195: Immediately arms or disarms the routes in a mask. -/
  | armTrigger (f : Frame)
  /-- R195: Immediately fires each software-source route in a mask once. -/
  | softTrigger (f : Frame)
  /-- R198: Returns the state, counters and last descriptor of one route. -/
  | triggerStatusGet (f : Frame)
  /-- R196: Stages the feeding route, fast path, polarity, width and offset of a TRIG OUT. -/
  | trigOutConfig (f : Frame)
  /-- R197: Stages the passing of routes to a tenant, disabled and with their counters at 0. -/
  | routeAssign (f : Frame)
  /-- R199: Stages a Tiller program that replaces the previous one and leaves the Tiller halted. -/
  | tillerLoad (f : Frame)
  /-- R200: Immediately stops, starts, pokes or resets the Tiller. -/
  | tillerControl (f : Frame)
  /-- R201: Stages the Rachis role, upstream port, enabled ports, asymmetries and transmitted routes. -/
  | rachisConfig (f : Frame)
  /-- R202: Returns the domain and per-port Rachis status. -/
  | rachisStatusGet (f : Frame)
  /-- R203: Sends a sync message for a VT instant on every up Rachis port. -/
  | rachisSend (f : Frame)
  /-- R203: Asserts or releases the module's own Rachis quench. -/
  | rachisQuench (f : Frame)
  /-- R247: Stages capture mode, routes, segment and ring settings for the channels in a mask. -/
  | captureConfig (f : Frame)
  /-- R248: Stages decimation, FIR, output width and sync route for the channels in a mask. -/
  | reductionConfig (f : Frame)
  /-- R249: Stages accumulation record length, pre-trigger, target count and gate for the channels in a mask. -/
  | accumConfig (f : Frame)
  /-- R250: Immediately arms or disarms the capture of the channels in a mask. -/
  | armCapture (f : Frame)
  /-- R251: Returns the capture status of one channel. -/
  | captureStatusGet (f : Frame)
  /-- R252: Starts a data-plane transfer of a channel's records to a destination. -/
  | recordFetch (f : Frame)
  /-- R281: Stages stamp enable and stamp ring size for the channels in a mask. -/
  | stampConfig (f : Frame)
  /-- R282: Stages enable, slope, owner, threshold and ring of a timing input. -/
  | tiConfig (f : Frame)
  /-- R283: Immediately arms or disarms the stamp streams of the sources in a mask. -/
  | armStamps (f : Frame)
  /-- R284: Returns the lane, queue and ring status of one stamp source. -/
  | awnStatusGet (f : Frame)
  /-- R285: Stages the creation, replacement or deletion of a frequency, phase or round-trip measurement. -/
  | measureConfig (f : Frame)
  /-- R312: Stages the binding of engines to a tenant. -/
  | engineAssign (f : Frame)
  /-- R313: Writes part of an image file into a slot's staging copy. -/
  | imageLoad (f : Frame)
  /-- R313: Checks the staging copy's header and signature and makes it the slot's image. -/
  | imageVerify (f : Frame)
  /-- R313: Deletes the image held in a slot. -/
  | imageDelete (f : Frame)
  /-- R314: Stages the creation, replacement or deletion of a reducer instance. -/
  | reducerConfig (f : Frame)
  /-- R315: Returns the status of one engine. -/
  | engineStatusGet (f : Frame)
  /-- R316: Returns the status of one reducer instance. -/
  | reducerStatusGet (f : Frame)
  /-- R317: Enrols or revokes a customer image-signing key. -/
  | engineKeyEnroll (f : Frame)
  /-- R318: Stages the return of a retired engine in the maintenance state. -/
  | engineRestore (f : Frame)
  /-- R318: Returns the state of all 64 image slots. -/
  | imageList (f : Frame)
  /-- R353: Returns the status and lane entries of one DRAM controller. -/
  | dramStatusGet (f : Frame)
  /-- R354: Returns the latency statistics of the 29 DRAM ports. -/
  | dramPortStatsGet (f : Frame)
  /-- R349: Stages the latency target of the DRAM ports in a mask. -/
  | dramQosConfig (f : Frame)
  /-- R350: Stages hammer_k and the patrol scrub period. -/
  | dramConfig (f : Frame)
  /-- R351: Stages new address-mapping masks for controllers in the maintenance state. -/
  | dramMapConfig (f : Frame)
  /-- R352: Stages the isolation or restore of a DRAM controller. -/
  | dramIsolate (f : Frame)
  /-- R355: Returns entries of the DRAM error log. -/
  | dramErrorLogGet (f : Frame)
  /-- R372: Stages the Winnow lanes in service, the block size and the flush timer. -/
  | winnowConfig (f : Frame)
  /-- R369: Immediately ends the open Winnow block of the named archive jobs. -/
  | winnowFlush (f : Frame)
  /-- R374: Returns Winnow and lane status. -/
  | winnowStatusGet (f : Frame)
  /-- R416: Returns the status of the archive and both cassettes. -/
  | granaryStatusGet (f : Frame)
  /-- R408: Stages the creation, replacement or deletion of an archive job. -/
  | archiveJobConfig (f : Frame)
  /-- R409: Starts a transfer of sealed archived records to a destination. -/
  | archiveRead (f : Frame)
  /-- R410: Returns catalogue entries whose span overlaps an interval. -/
  | archiveList (f : Frame)
  /-- R411: Deletes, protects or unprotects a range of sealed records. -/
  | archiveRetain (f : Frame)
  /-- R412: Returns damage entries of archived records. -/
  | damageListGet (f : Frame)
  /-- R413: Stages the scrub period and refresh threshold of Glean. -/
  | gleanConfig (f : Frame)
  /-- R414: Starts formatting a cassette in pSLC or TLC mode. -/
  | cassetteFormat (f : Frame)
  /-- R415: Starts copying a cassette's sealed records to the other cassette. -/
  | cassetteEvacuate (f : Frame)
  /-- R415: Retires a cassette cleanly and unpowers its slot, or returns a retired cassette to service. -/
  | cassetteRetire (f : Frame)
  /-- R446: Stages the addresses, MTU, VLAN and queue settings of a port. -/
  | portConfig (f : Frame)
  /-- R449: Returns the status and counters of a port. -/
  | portStatusGet (f : Frame)
  /-- R447: Stages the creation, replacement or deletion of a stream. -/
  | streamConfig (f : Frame)
  /-- R448: Stages the start of the streams in a mask with new leases. -/
  | streamStart (f : Frame)
  /-- R448: Immediately stops the named running streams with cause 3. -/
  | streamStop (f : Frame)
  /-- R442: Restarts the lease of each named running stream of the tenant. -/
  | streamLeaseRenew (f : Frame)
  /-- R450: Returns the status of one stream. -/
  | streamStatusGet (f : Frame)
  /-- R443: Asserts or releases the management-port quench of every stream. -/
  | quench (f : Frame)
  /-- R530: Stages the creation, replacement or deletion of a tenant entry. -/
  | tenantConfig (f : Frame)
  /-- R534: Returns the status and live configuration of a tenant. -/
  | tenantStatusGet (f : Frame)
  /-- R507: Stages the passing of channels to a tenant. -/
  | channelAssign (f : Frame)
  /-- R508: Stages the count of DRAM pages a tenant holds in one stook. -/
  | pageGrant (f : Frame)
  /-- R532: Sets the tenant's event subscription mask and destination at once. -/
  | eventSubscribe (f : Frame)
  /-- R519: Removes the tenant's queued events up to and including a sequence. -/
  | eventAck (f : Frame)
  /-- R533: Returns queued event entries from a sequence onward. -/
  | eventQuery (f : Frame)
  /-- R535: Returns the progress of Chaff sweeps. -/
  | sweepStatusGet (f : Frame)
  /-- R558: Defines, writes or deletes a Drill segment. -/
  | drillSegmentLoad (f : Frame)
  /-- R559: Stages the Drill rate, strobe, sequence and line settings. -/
  | drillConfig (f : Frame)
  /-- R542: Starts a Drill run in one of three start modes, or stops the run. -/
  | drillControl (f : Frame)
  /-- R561: Returns Drill run status, line fail counts and the fail log. -/
  | drillStatusGet (f : Frame)
  /-- R562: Stages the mode, frequency, profile and sync settings of a probe output. -/
  | probeConfig (f : Frame)
  /-- R563: Writes ramp-profile points into a probe's profile buffer. -/
  | probeProfileLoad (f : Frame)
  /-- R564: Returns the status of one probe output. -/
  | probeStatusGet (f : Frame)
  /-- R587: Stages a loop-back depth on a unit. -/
  | loopbackSet (f : Frame)
  /-- R579: Starts a unit, field or production self-test run. -/
  | selfTestRun (f : Frame)
  /-- R591: Returns the results of a held self-test run. -/
  | testResultGet (f : Frame)
  /-- R582: Stages the isolation or restore of a channel, sheaf, node, host port or Rachis port. -/
  | unitIsolate (f : Frame)
  /-- R588: Stages the waveform of a sheaf's test source. -/
  | testSourceConfig (f : Frame)
  /-- R629: Returns power, state and firmware status. -/
  | powerStatusGet (f : Frame)
  /-- R626: Sets the housekeeping reporting sequence at once and holds it in MRAM. -/
  | housekeepingConfig (f : Frame)
  /-- R627: Returns the results of one completed housekeeping pass. -/
  | housekeepingGet (f : Frame)
  /-- R595: Stages a move between recovery, maintenance and service, or a change of restart_policy. -/
  | operatingStateSet (f : Frame)
  /-- R630: Returns one of the last four power-fail reports. -/
  | powerFailReportGet (f : Frame)
  /-- R620: Writes a block of a firmware package into the inactive slot. -/
  | firmwareLoad (f : Frame)
  /-- R621: Verifies the inactive slot, makes it active and restarts at the package's level. -/
  | firmwareActivate (f : Frame)
  /-- R631: Starts a Culm restart or a full restart after its response has left. -/
  | moduleReset (f : Frame)
  /-- R463: A command frame that fails its CRC, its framing, admission or names an unknown opcode is discarded or refused without reaching a command. -/
  | badCommandFrame (t : Nat) (src : Source) (bytes : Bytes)
  /-- R466: A held command that has waited 1,000 ms with its gap open makes every held command of the tenant refused with ST_GAP. -/
  | heldCommandTimeout (t : Nat) (tenant : Fin 256)
  /-- R76: A write of 1 to snap captures the VT96 of the CORE tick into SNAP_VT. -/
  | snap (t : Nat)
  /-- R15: A read of the lowest word of a multi-word SL value returns it and latches its higher words. -/
  | snapOnLowRead (t : Nat) (reg : SlReg)
  /-- R455: A write of 1 to the cmd bit of RING_DOORBELL makes the module read CMD_PROD and take the command frames in the ring. -/
  | cmdDoorbell (t : Nat)
  /-- R454: A write of 1 to ring_reset zeroes all six ring indices and discards the contents of the three rings. -/
  | ringReset (t : Nat)
  /-- R13: A write of 1 to cmd_frame_error clears it unless the module sets it in the same access. -/
  | cmdFrameErrorClear (t : Nat) (setNow : Bool)
  /-- R528: A write of 1s to an EVENT_SUMMARY register clears those raised bits. -/
  | eventSummaryClear (t : Nat) (w : Fin 48) (value setNow : U32)
  /-- R13: A write to a register with no row of its own, such as a ring index or snap_on_sync, takes effect under its access code. -/
  | registerWrite (t : Nat) (addr value : U32)
  /-- R455: At least every 1 ms the module reads CMD_PROD and takes any whole command frames. -/
  | cmdRingPoll (t : Nat)
  /-- R455: A response waiting for room in the service-port response ring is written once the host frees enough space, and command intake resumes. -/
  | responseRingRoom (t : Nat)
  /-- R527: An event push waiting for room in the service-port event ring is written once the host frees enough space. -/
  | eventRingRoom (t : Nat)
  /-- R524: New queued events of a subscribed tenant are sent in event frames within 1 ms. -/
  | eventPush (t : Nat) (tenant : Fin 256)
  /-- R424: A received frame not addressed to the port, a PAUSE frame or an unsupported packet is discarded and counted. -/
  | ethernetFrameDiscard (t : Nat) (port : Fin 3) (why : DiscardCause)
  /-- R422: A received ARP request or reply is answered or entered in the port's cache. -/
  | arpReceive (t : Nat) (port : Fin 3) (request : Bool) (senderIp : U32) (senderMac : U48) (targetIp : U32)
  /-- R422: A received neighbour solicitation or advertisement is answered or entered in the port's cache. -/
  | ndpReceive (t : Nat) (port : Fin 3) (solicitation : Bool) (senderIp : BitVec 128) (senderMac : U48) (targetIp : BitVec 128)
  /-- R422: An echo request is answered within the rate of 1,000 per second per port. -/
  | icmpEcho (t : Nat) (port : Fin 3) (v6 : Bool) (senderIp : BitVec 128) (data : Bytes)
  /-- R422: An ARP cache entry is refreshed after 60 s. -/
  | arpCacheRefresh (t : Nat) (port : Fin 3) (ip : U32)
  /-- R423: Every 1 s the module retries resolving an unresolved stream or transfer destination. -/
  | addressResolveRetry (t : Nat) (who : Sender)
  /-- R430: A transfer whose destination stays unresolved for 10 s ends partial. -/
  | transferResolveTimeout (t : Nat) (journal : Fin 4096)
  /-- R429: The fragments of the next item of a fetch or archive-read transfer are queued on queue 1, and the transfer completes after its last frame. -/
  | transferFrameSend (t : Nat) (journal : Fin 4096)
  /-- R418: PCS and RS-FEC alignment held for 100 ms declares a host port up. -/
  | hostLinkUp (t : Nat) (port : Fin 2)
  /-- R418: Loss of alignment or high symbol errors held for 1 ms declares a host port down and stops its streams. -/
  | hostLinkDown (t : Nat) (port : Fin 2)
  /-- R419: The SGMII control word changes the management port's link indication. -/
  | mgmtLinkChange (t : Nat) (up : Bool)
  /-- R433: A stream queues its next frame within its rate limit, or a VDIF frame no earlier than 50 µs after its first sample. -/
  | streamFrameSend (t : Nat) (stream : Fin 128)
  /-- R434: Items older than lag_ms not yet queued make the stream skip them or hold its ring writer. -/
  | streamLag (t : Nat) (stream : Fin 128)
  /-- R442: A stream whose lease expires stops within 10 µs at a frame boundary with cause 2. -/
  | streamLeaseExpire (t : Nat) (stream : Fin 128)
  /-- R443: QUENCH_N held low for 100 ns stops every stream and empties queues 1 to 7 of both host ports. -/
  | quenchNAssert (t : Nat)
  /-- R443: Release of QUENCH_N ends that quench path without restarting any stream. -/
  | quenchNRelease (t : Nat)
  /-- R192: A change of an up port's incoming fast-level line starts or ends a Rachis quench and its forwarding. -/
  | rachisFastLevelChange (t : Nat) (port : Fin 4) (level : Bool)
  /-- R35: The SLICE tick that starts a VT second, at which every per-second action of the module happens. -/
  | vtSecondBoundary (ovr : List (Fin 128 × U32))
  /-- R49: Three consecutive seconds without a decodable IRIG frame make IRIG IN invalid. -/
  | irigActivityTimeout (t : Nat)
  /-- R52: At every grand tick the divider coincidence is checked, and a miss is handled as loss of root lock. -/
  | grandTickCheck (t : Nat) (coincident : Bool)
  /-- R31: At S − 20 ms the stages for S are frozen and validated, and domain members decide on go or abort. -/
  | preparationWindowClose (t : Nat)
  /-- R33: At S − 5 ms the switch is armed in every touched sheaf and node, and stages without confirmation are refused. -/
  | switchArm (t : Nat) (silentNodes : Byte) (silentSheaves : U16)
  /-- R488: After the closes at S are journalled, the commit record is written and the step's responses and events are sent. -/
  | commitRecordWrite (t : Nat)
  /-- R190: At S − 250 ms each member validates the tenant's domain stage and sends commit ready or commit refuse upstream. -/
  | domainWindowClose (t : Nat)
  /-- R190: At S − 100, S − 80 and S − 60 ms the master sends commit go or commit abort. -/
  | domainGoDecision (t : Nat)
  /-- R60: Every 60 s the current VT second is written to MRAM. -/
  | vtSecondSave (t : Nat)
  /-- R48: The signal detector reports REF IN present or absent. -/
  | refSignalDetect (t : Nat) (present : Bool)
  /-- R48: Every 100 ms a frequency gate closes and REF IN is qualified, kept or disqualified on its offset. -/
  | refGateClose (t : Nat) (freqMicroHz : Nat)
  /-- R48: No REF IN cycle for 1 µs makes REF IN invalid at once. -/
  | refLossOfSignal (t : Nat)
  /-- R48: REF IN phase moving over 1 ns within 1 ms makes REF IN invalid at once. -/
  | refPhaseHit (t : Nat)
  /-- R58: Ten seconds of return qualification after REF IN qualifies move the root back to REF IN. -/
  | holdoverReturn (t : Nat)
  /-- R48: Every 24 h while REF IN is valid the OCXO free-running estimate is updated. -/
  | ocxoEstimateUpdate (t : Nat) (offset : Int)
  /-- R49: An on-time PPS IN edge is stamped and judged for plausibility and alignment. -/
  | ppsEdge (t : Nat) (tag : Vt96)
  /-- R49: No PPS IN edge in 1.5 s makes PPS IN invalid. -/
  | ppsActivityTimeout (t : Nat)
  /-- R47: A decoded IRIG frame labels its on-time point and is judged for plausibility, agreement and leap notices. -/
  | irigFrame (t : Nat) (frame : IrigFrame)
  /-- R60: The start-up wait of up to 10 s for PPS and IRIG ends and VT is aligned from what is valid. -/
  | alignWaitTimeout (t : Nat)
  /-- R51: The root declares lock after band search and 1 ms within ±2 ps, and the dividers are released. -/
  | rootLockAcquired (t : Nat) (band : BitVec 6)
  /-- R55: Loss of root lock ends records, gates probes, disarms routes and keeps VT on the OCXO timer. -/
  | rootLockLoss (t : Nat)
  /-- R598: Every 1 s without lock after start-up the band search is repeated. -/
  | rootLockRetry (t : Nat)
  /-- R111: A channel comparator reports an edge to its Awn lanes and trigger logic. -/
  | comparatorEdge (t : Nat) (c : Fin 128) (rising : Bool) (tag : Vt96)
  /-- R112: The comparator mask ends and the comparator takes its state from the input. -/
  | comparatorMaskEnd (t : Nat) (c : Fin 128) (high : Bool)
  /-- R98: The front-end settling time after a commit ends and samples stop carrying FE_SETTLING. -/
  | feSettlingEnd (t : Nat) (c : Fin 128)
  /-- R113: Sixteen consecutive qualifying samples disagreeing with the comparator stop it and raise the fault. -/
  | comparatorFault (t : Nat) (c : Fin 128)
  /-- R105: A stuck bit, shadow disagreement, trim limit or self-test failure declares a slice faulty. -/
  | sliceFaultDetect (t : Nat) (c : Fin 128) (slice : Fin 9) (by_ : SliceDetection)
  /-- R105: The 10 µs loop-back check after a shadow disagreement ends and the failing slice is declared faulty. -/
  | shadowCheckDone (t : Nat) (c : Fin 128) (spareFails inServiceFails : Bool)
  /-- R103: Fifty microseconds after a handover the outgoing slice shadows the next phase and its statistics begin. -/
  | shadowSlewEnd (t : Nat) (c : Fin 128)
  /-- R129: Each 1 ms block of calibration sums and its spectrum capture completes. -/
  | calBlockEnd (t : Nat) (c : Fin 128) (flags : BitVec 4) (pair : BlockEnd)
  /-- R138: An ensemble window ends, the gates are tested and changed coefficients are staged for the next second. -/
  | ensembleWindowEnd (t : Nat) (c : Fin 128) (est : WindowEstimate)
  /-- R147: Every 250 ms the plate temperature is filtered and an automatic calibration run may be scheduled. -/
  | tempSampleTick (t : Nat)
  /-- R144: A calibration run's window ends and its deltas are written into the stored sets. -/
  | calRunWindowEnd (t : Nat) (ests : RunWindow)
  /-- R143: Every hour the CRC of each calibration set is checked and failing sets are taken out of use. -/
  | calSetCheck (t : Nat) (failing : List (Fin 128 × Fin 5))
  /-- R148: Every awn_check_interval seconds a code-density check of each lane begins. -/
  | awnDensityCheck (t : Nat) (source : Fin 132) (lane : Fin 4)
  /-- R150: A lane's code-density check completes, new tables are staged or the lane declared faulty. -/
  | awnCheckDone (t : Nat) (source : Fin 132) (lane : Fin 4) (tapWidths vernWidths : List Nat)
  /-- R257: An Awn lane loop declared unlocked leaves the round-robin and abandons its conversion. -/
  | awnLoopUnlock (t : Nat) (source : Fin 132) (lane : Fin 4) (loop : Fin 3)
  /-- R257: Every 10 ms an unlocked lane attempts to relock and then starts its density check. -/
  | awnRelockAttempt (t : Nat) (source : Fin 132) (lane : Fin 4) (relocked : Bool)
  /-- R255: A lane's vernier conversion completes and the stamp is formed. -/
  | awnConversionDone (t : Nat) (source : Fin 132) (lane : Fin 4) (tap : Fin 64) (count : Fin 100)
  /-- R262: The stamp queue writes its next entry to the stamp ring. -/
  | stampQueueDrain (t : Nat) (source : Fin 132)
  /-- R270: At least every 10 µs a stamp ring's complete_to is advanced. -/
  | completeToUpdate (t : Nat) (source : Fin 132) (upTo : Vt96)
  /-- R254: A timing-input receiver reports an edge to its Awn lanes. -/
  | tiEdge (t : Nat) (input : Fin 4) (rising : Bool) (tag : Vt96)
  /-- R165: A TRIG IN edge is stamped by its lane and fires its routes. -/
  | trigInEdge (t : Nat) (input : Fin 4) (rising : Bool) (tag : Vt96)
  /-- R163: A digital level, window or slew condition is met on a clean sample and fires its route. -/
  | digitalTriggerFire (t : Nat) (route : Fin 32) (hit : DigitalWatch)
  /-- R166: A scheduled source fires at its next instant. -/
  | scheduledTrigger (t : Nat) (route : Fin 32)
  /-- R168: A TRIG OUT places its edge at the trigger tag plus offset. -/
  | trigOutEdge (t : Nat) (out : Fin 4)
  /-- R167: A TRIG OUT pulse ends after width_ns. -/
  | trigOutPulseEnd (t : Nat) (out : Fin 4)
  /-- R177: The Tiller takes the eligible transition of highest priority and its actions take effect. -/
  | tillerTransition (t : Nat)
  /-- R177: A Tiller timer expires. -/
  | tillerTimerExpire (t : Nat) (timer : Fin 4)
  /-- R186: A Rachis burst A is received and held for its burst B. -/
  | burstAReceive (t : Nat) (port : Fin 4) (a : BurstA)
  /-- R186: A held burst A with no burst B within 128 ns is discarded as a half message. -/
  | burstATimeout (t : Nat) (port : Fin 4)
  /-- R188: A whole trigger message is checked, fires receiving routes and is forwarded. -/
  | triggerMessage (t : Nat) (port : Fin 4) (m : RachisMsg)
  /-- R189: A whole sync message is accepted for its VT instant or discarded as late, and forwarded. -/
  | syncMessage (t : Nat) (port : Fin 4) (m : RachisMsg)
  /-- R189: At a sync message's VT instant the probe dividers are reset. -/
  | rachisSyncInstant (t : Nat)
  /-- R190: A commit ready message is received by the master or forwarded upstream. -/
  | commitReady (t : Nat) (port : Fin 4) (m : RachisMsg)
  /-- R190: A commit refuse message is received by the master or forwarded upstream. -/
  | commitRefuse (t : Nat) (port : Fin 4) (m : RachisMsg)
  /-- R190: A commit go message is received by a member holding the pending domain commit. -/
  | commitGo (t : Nat) (port : Fin 4) (m : RachisMsg)
  /-- R190: A commit abort message is received by a member holding the pending domain commit. -/
  | commitAbort (t : Nat) (port : Fin 4) (m : RachisMsg)
  /-- R183: A delay request is received and answered with a delay response. -/
  | delayRequest (t : Nat) (port : Fin 4) (m : RachisMsg) (t2 : Vt96)
  /-- R183: A delay response completes an exchange and updates or discards the link delay, bringing the link up or down. -/
  | delayResponse (t : Nat) (port : Fin 4) (m : RachisMsg) (t2 t4 : Vt96)
  /-- R181: A follower tags a time message, computes its offset and forwards the message. -/
  | timeMessage (t : Nat) (port : Fin 4) (m : RachisMsg) (arrival : Vt96)
  /-- R183: Every 1 ms an up port sends a delay request. -/
  | delayExchangeTimer (t : Nat) (port : Fin 4)
  /-- R209: A segment's last sample is written to the Ear. -/
  | segmentEnd (t : Nat) (c : Fin 128) (data : SampleData)
  /-- R214: A segment's last byte is written to DRAM and its Ear slots are freed. -/
  | segmentDrained (t : Nat) (c : Fin 128)
  /-- R218: A circular capture writes its post_count outputs and becomes done. -/
  | circularDone (t : Nat) (c : Fin 128) (data : SampleData)
  /-- R221: A continuous capture completes a block record of block_samples outputs. -/
  | blockRecordEnd (t : Nat) (c : Fin 128) (data : SampleData)
  /-- R220: A circular or continuous capture's Ear FIFO fills and the capture stops with an overflow mark. -/
  | earFifoFull (t : Nat) (c : Fin 128) (data : SampleData)
  /-- R236: An accumulation record's span completes and it is added to the accumulators or rejected. -/
  | accumRecordAdd (t : Nat) (c : Fin 128) (start : Nat) (raw : List RawSample)
  /-- R240: The copy of the closed accumulators to a result record completes and accumulation restarts. -/
  | accumCopyDone (t : Nat) (c : Fin 128)
  /-- R216: A registered consumer releases a ring item and the ring reclaims from its oldest end. -/
  | ringItemRelease (t : Nat) (ring : RingId) (consumer : Consumer)
  /-- R217: A ring writer waiting on unreleased data resumes when space is reclaimed. -/
  | ringWriterResume (t : Nat) (ring : RingId)
  /-- R275: A measurement gate closes once complete_to of every source reaches its end. -/
  | gateClose (t : Nat) (inst : Fin 1024)
  /-- R294: A gated instance's combiner folds the gate's partials into results once every unit to the gate end is accepted. -/
  | engineGateClose (t : Nat) (inst : Fin 1024) (bodies : List Bytes)
  /-- R300: An engine service call that fills an input window. -/
  | fetch (t : Nat) (engine : Fin 512) (g1 : U32)
  /-- R300: An engine service call that emits a result body. -/
  | emit (t : Nat) (engine : Fin 512) (g1 : U32) (buffer : Bytes)
  /-- R301: An engine service call that completes a unit, which is accepted and its results released in unit order. -/
  | endUnit (t : Nat) (engine : Fin 512) (partialOrState : Bytes)
  /-- R308: An engine service call that ends the unit with a software fault. -/
  | abort (t : Nat) (engine : Fin 512) (g1 : U32)
  /-- R300: An engine service call that writes the VT96 of the unit's first input item. -/
  | unitTime (t : Nat) (engine : Fin 512) (g1 : U32)
  /-- R308: An illegal instruction, bad access or bad service call reissues the unit or poisons it. -/
  | engineSoftwareFault (t : Nat) (engine : Fin 512) (code : Byte)
  /-- R308: A unit exceeding max_unit_cycles is a software fault. -/
  | engineWatchdog (t : Nat) (engine : Fin 512)
  /-- R309: An uncorrectable memory error or failed port transfer retires the engine. -/
  | engineHardwareFault (t : Nat) (engine : Fin 512)
  /-- R306: A unit running for shed_factor times the median is issued a second time. -/
  | unitReissue (t : Nat) (engine : Fin 512)
  /-- R40: A node fails, its engines stop and its channels keep acquiring. -/
  | nodeFault (t : Nat) (node : Fin 8)
  /-- R582: A sheaf die fault isolates the sheaf at once. -/
  | sheafFault (t : Nat) (sheaf : Fin 16) (cause : Fin 5)
  /-- R340: Every tREFI the controller refreshes all banks and stalls every port. -/
  | dramRefresh (t : Nat) (k : Fin 8)
  /-- R340: Every 1 ms device temperatures are read and tREFI changed if needed. -/
  | dramTempRead (t : Nat) (k : Fin 8) (temp : Int)
  /-- R325: A read transfer returns and is corrected, counted or delivered poisoned. -/
  | dramReadReturn (t : Nat) (k : Fin 8) (offered : List DramRequest) (clocks : List Nat) (banks : List (BitVec 32))
      (beats : List BeatDecode)
  /-- R327: The patrol scrub reads the next transfer of the controller. -/
  | patrolScrubRead (t : Nat) (k : Fin 8) (beats : List BeatDecode)
  /-- R344: Every 50 ms each lane's write delay is adjusted from its DQS oscillator. -/
  | dramDriftTrack (t : Nat) (k : Fin 8) (lane : Fin 10) (up : Bool)
  /-- R343: A controller's training ends in service, a retry, or failure with Ear-only. -/
  | dramTrainingDone (t : Nat) (k : Fin 8) (lanes : List LaneTraining)
  /-- R347: A whole-controller sweep completes and its pages return to the pool. -/
  | controllerSweepDone (t : Nat) (k : Fin 8)
  /-- R509: A sweep of a page, Ear buffer or accumulator share completes and the resource is granted. -/
  | chaffSweepDone (t : Nat) (what : SweepId) (ok : Bool)
  /-- R361: flush_ms after a block's first input byte the block ends. -/
  | winnowFlushTimer (t : Nat) (job : Fin 1024)
  /-- R366: A lane finishes encoding and verifying a block, which leaves in job order or is stored raw. -/
  | winnowBlockDone (t : Nat) (lane : Fin 4) (mismatch : BlockFaults)
  /-- R358: A lane's read decoder decodes an archive block and checks its CRC. -/
  | winnowReadDecode (t : Nat) (lane : Fin 4) (recordId : U48) (offset : Nat) (packed : Bool) (block : Bytes)
  /-- R389: A flash program or erase completes, or fails and retires its block. -/
  | granaryProgramDone (t : Nat) (die : Fin 128) (block : Fin 2800) (erase ok : Bool) (micros : Nat)
  /-- R384: A record is sealed and its ring item released. -/
  | granaryRecordSeal (t : Nat) (job : Fin 1024)
  /-- R380: A codeword read is decoded, rebuilt from parity, or recorded as damaged. -/
  | granaryRead (t : Nat) (recordId : U48) (die : Fin 128) (block : Fin 2800) (outcome : CodewordOutcome)
  /-- R392: Glean reads a written block in full and refreshes it if needed. -/
  | gleanBlockScrub (t : Nat) (die : Fin 128) (block : Fin 2800) (worstBits : Nat) (shifted : Bool)
  /-- R400: The catalogue journal is checkpointed to the cassette every 60 s or 4,096 changes. -/
  | catalogueCheckpoint (t : Nat) (cassette : Fin 2)
  /-- R398: Every 24 h trial programs are run on each benched die. -/
  | benchTrial (t : Nat) (die : Fin 128) (medianMicros : Nat)
  /-- R386: A job held for stall_ms under full_policy 2 releases its waiting items unarchived. -/
  | archiveStallTimeout (t : Nat) (job : Fin 1024)
  /-- R644: Both PRESENT contacts of a slot make. -/
  | cassetteInsert (t : Nat) (cassette : Fin 2)
  /-- R404: 500 ms after insertion the slot is powered and the identity block read. -/
  | cassettePowerOn (t : Nat) (cassette : Fin 2) (identity : CassetteIdentity)
  /-- R405: A PRESENT contact breaks and slot power is removed within 10 µs. -/
  | cassetteRemove (t : Nat) (cassette : Fin 2)
  /-- R404: The catalogue rebuild of a cassette removed without retirement completes. -/
  | cassetteScanDone (t : Nat) (cassette : Fin 2) (torn : List U48)
  /-- R414: Formatting completes and the cassette enters service. -/
  | cassetteFormatDone (t : Nat) (cassette : Fin 2)
  /-- R406: The evacuation copy of a cassette completes. -/
  | evacuationDone (t : Nat) (cassette : Fin 2)
  /-- R415: Retirement completes its programs and checkpoint and unpowers the slot. -/
  | cassetteRetireDone (t : Nat) (cassette : Fin 2)
  /-- R542: A waiting Drill run begins playing at T_start. -/
  | drillRunStart (t : Nat) (pins : List PinSample)
  /-- R541: A Drill run ends after its last vector. -/
  | drillRunEnd (t : Nat)
  /-- R639: VDRILL leaving its range turns every line off and aborts any run. -/
  | vdrillOutOfRange (t : Nat)
  /-- R553: A rising SYNC edge syncs the probes that enable it and may take a time snapshot. -/
  | syncEdge (t : Nat)
  /-- R548: A probe synthesizer declares lock after band search. -/
  | probeLock (t : Nat) (probe : Fin 8) (band : BitVec 7)
  /-- R555: A probe lock lost in service gates the output. -/
  | probeUnlock (t : Nat) (probe : Fin 8)
  /-- R555: Every 10 ms an unlocked probe retries lock. -/
  | probeRelockRetry (t : Nat) (probe : Fin 8)
  /-- R553: At T_s + 50 µs the sync gate clears and phase_valid is set. -/
  | probeSyncGateEnd (t : Nat) (probe : Fin 8)
  /-- R555: A probe output opens at the next rising zero crossing once every gate cause has cleared. -/
  | probeGateOpen (t : Nat) (probe : Fin 8)
  /-- R550: A ramp profile reaches its next point and steps or sweeps the frequency. -/
  | probeProfilePoint (t : Nat) (probe : Fin 8)
  /-- R576: A self-test step completes and the next step or the run's end follows. -/
  | selfTestStepDone (t : Nat) (step : TestStep)
  /-- R597: After input, reset, power-fail and temperature conditions hold for 10 ms, start-up begins. -/
  | startupRelease (t : Nat) (modId : BitVec 5)
  /-- R597: Start-up ends and the module enters recovery. -/
  | startupEnd (t : Nat)
  /-- R613: PWR_FAIL or another full-restart cause starts power-fail handling. -/
  | powerFail (t : Nat)
  /-- R601: RESET_N low for 10 µs starts a full restart. -/
  | resetNFall (t : Nat)
  /-- R601: Input below 4.3 V for 10 µs starts a full restart. -/
  | inputUndervoltage (t : Nat)
  /-- R601: Input above 19.0 V for 10 µs starts a full restart. -/
  | inputOvervoltage (t : Nat)
  /-- R601: Input current above 90 A for 1 ms starts a full restart. -/
  | inputOvercurrent (t : Nat)
  /-- R614: The input falls below 4.0 V during handling and the main domain stops. -/
  | mainDomainDown (t : Nat)
  /-- R613: Power-fail handling ends, the report closes and the module is held in reset. -/
  | powerFailHandlingEnd (t : Nat)
  /-- R601: No command-core watchdog service for 500 ms starts a Culm restart. -/
  | commandCoreWatchdog (t : Nat)
  /-- R601: No management-core watchdog service for 1 s starts a Culm restart. -/
  | managementCoreWatchdog (t : Nat)
  /-- R41: The Culm comes back after a restart, journals closes and pending commits, and raises EV_CULM_RESTART. -/
  | culmRestartComplete (t : Nat)
  /-- R622: New firmware not up within 30 s, or repeated watchdog restarts, restore the previous slot. -/
  | firmwareRevert (t : Nat)
  /-- R603: Every 1 ms the fixed protection scan converts its inputs and updates the plate temperature. -/
  | protectionScan (t : Nat) (codes : List Int)
  /-- R607: The reporting scan runs its entries, updates results and raises alarms. -/
  | hkReportingPass (t : Nat) (codes : List (List Int))
  /-- R610: Plate above 72 °C for 1 s raises the thermal warning. -/
  | thermalWarn (t : Nat)
  /-- R610: Plate above 80 °C for 1 s starts a full restart with cause 6. -/
  | thermalShutdown (t : Nat)
  /-- R610: A sheaf die at 115 °C for 10 ms isolates the sheaf. -/
  | sheafThermal (t : Nat) (sheaf : Fin 16)
  /-- R593: One blade carrying over 60 % of a current above 20 A for 1 s raises the event. -/
  | bladeImbalance (t : Nat) (code : Int)
  /-- R603: Plate sensors differing over 5 °C for 10 s mark one faulty. -/
  | plateSensorFault (t : Nat)
  /-- R612: Every 30 days the hold-up store is measured by a partial discharge. -/
  | holdupMeasure (t : Nat) (ms : U16)
  /-- R186: A Rachis burst B that arrives with no held burst A, or with a different pair bit, is discarded, raises EV_RACHIS_HALF and increments half_count. -/
  | burstBReceive (t : Nat) (port : Fin 4) (pair : Bool)
  /-- R182: Loss of signal or comma alignment on a Rachis port takes the link down, and an upstream follower enters holdover and raises EV_RACHIS_LINK. -/
  | commaAlignmentLoss (t : Nat) (port : Fin 4)
  /-- R191: The master receives a member's report of a lost domain commit and raises EV_DOMAIN_SPLIT naming the tenant and the members that did not apply. -/
  | commitLossReport (t : Nat) (port : Fin 4) (tenant : Fin 256) (second : U48) (member : Fin 32)
  /-- R639: VDRILL returns within 1.14 V to 3.47 V, the lines are no longer held off and DRILL_CONTROL starts are accepted again. -/
  | vdrillInRange (t : Nat)
deriving DecidableEq, Repr, Inhabited

end Sys2Proof
end

