-- ==== Sys2Proof/Decode.lean ====
section
/-! DEFINITION. The words of the table of operations: no row of it gives a command any bits, so no word spells a
command. Commands reach the block as constructors. -/

namespace Sys2Proof

/-- The command a word of so many bits spells by the table: none, for no row has bits. -/
def decodeTableWord (_nbits _w : Nat) : Option Instr := none

end Sys2Proof
end

