-- ==== Sys2Proof/Config.lean ====
section
/-! DEFINITION. What one module is built with and the spec does not fix: factory-measured values, identity values, and
the free values of the model. None of them has a body, so no statement can rest on a particular value. -/

namespace Sys2Proof.Config

/-- A free value (log entry 3): what the spec leaves unstated where the machine goes on. It is applied to the state's
counter of free values. -/
opaque freeValue : Nat → BitVec 64

/-- R457: hardware build level. -/
opaque hwLevel : Byte
/-- R457: the 64-bit serial number. -/
opaque serial : U64
/-- R457: the firmware version of a slot as delivered, in the layout of ID_FW_VERSION. -/
opaque fwVersion : U32
/-- R421, R457: the factory MAC address of ports 0, 1 and 2, byte 0 in bits [7:0]. -/
opaque mac : Nat → U48
/-- R620: what the header of a firmware package states, whose layout the spec does not give: length, version, activation level. -/
opaque fwLength : Bytes → Nat
opaque fwPackageVersion : Bytes → U32
opaque fwLevel : Bytes → BitVec 1
/-- R603: factory-measured offset of a sheaf-die sensor to the plate, 0.01 °C, at an input power in mW. -/
opaque sheafOffset : Nat → Nat → Int
/-- R302, R304: the image_version of a library image. -/
opaque libraryVersion : Nat → U32
/-- R302: the file length of a library image. -/
opaque libraryLength : Nat → U32
/-- R302: max_unit_cycles of a library image, by slot (log entry 225). -/
opaque libraryUnitCycles : Nat → U32
/-- R300, R302: the offsets of the init, unit and close entries of a library image in its code. -/
opaque libraryEntry : Nat → Nat → U32
/-- R303: the Lumesk public key. -/
opaque lumeskKey : BitVec 256

/-- R93: sample-path delay in fs of a channel at 4 × range + filter and at 25, 40, 55 °C (index 0 to 2). -/
opaque sampleDelay : Nat → Nat → Nat → U32
/-- R93: comparator-path delay in fs, indexed in the same way. -/
opaque compDelay : Nat → Nat → Nat → U32
/-- R91: measured AC corner of a channel above 9,000,000 millihertz, taken modulo the width of its range. -/
opaque acCorner : Nat → U32
/-- R128: the correction of a channel's aperture loop at a filtered plate temperature (0.01 °C), fs. -/
opaque skewCorrection : Nat → Int → Int
/-- R255: factory-measured connector-to-lane delay of timing input i, fs. -/
opaque tiDelay : Nat → U32
/-- R573: the factory-measured delay of the edge injector of an Awn source, fs. -/
opaque injectorDelay : Nat → U32
/-- R167: fast-path latency from a route's source to an output, ps. -/
opaque fastPathPs : Nat → Nat → U32
/-- R183: factory-measured transmit (false) and receive (true) delay of a Rachis port, fs. -/
opaque rachisDelay : Nat → Bool → U32
/-- R148, R255: factory code table of a lane: measured end of tap m, units of 2⁻⁴⁸ s (source, lane, tap). -/
opaque tapEnd : Nat → Nat → Nat → Nat
/-- R148, R255: factory code table of a lane: measured centre of vernier bin n, units of 2⁻⁴⁸ s. -/
opaque vern : Nat → Nat → Nat → Nat
/-- R141: factory contents of a temperature set: (offset, gain) of the common entry. -/
opaque factoryCommon : Nat → Nat → Int × Int
/-- R141: factory contents of a temperature set: relative terms of a slice, (offset, gain, skew, bandwidth). -/
opaque factorySlice : Nat → Nat → Nat → Int × Int × Int × Int
/-- R141: the VT second at which the factory wrote a set. -/
opaque factorySetVt : Nat → Nat → U48
/-- R206: a conversion of a channel by its sample number where a row does not bring it: its code, with the overload detector in bit 12. -/
opaque unseenSample : Nat → Nat → BitVec 13
/-- R232: the 96 FIR coefficients for a decimation, as Lumesk sets them. -/
opaque firCoefficient : Nat → Nat → Int
/-- R232: the FIR's coefficients count in units of 2^(−this). -/
opaque firShift : Nat → Nat
/-- R125: what the 3-tap correction of a bandwidth mismatch (fs) and the fractional delay of the skew (fs) that the aperture DAC leaves make of
a sample, given the sample before, the sample and the sample after. Neither filter's taps are stated. -/
opaque mismatchFilter : Int → Int → Rat → Rat → Rat → Rat
/-- R236: the 16-tap fractional-delay filter at a phase in 1/64 sample, over samples j − 7 to j + 8, in units of 1/16 sample LSB. -/
opaque interpolate : Nat → List Int → Int
/-- R342: the generator of a DRAM controller: its next state, and whether a state with hammer_k draws a neighbour refresh. -/
opaque hammerNext : U32 → U32
opaque hammerDraws : U32 → Nat → Bool
/-- R342: the row cycle of a bank, SLICE ticks. -/
opaque rowCycle : Nat
/-- R422: the identification of an IPv4 header or the flow label of an IPv6 header, by port and number of the frame. -/
opaque headerLabel : Nat → Nat → BitVec 20
/-- R422, R423: the MAC address to which a frame of queue 0 leaves whose destination is in no cache, by port and address. -/
opaque unresolvedMac : Nat → BitVec 128 → BitVec 48
/-- R393, R376: mean erase count a known cassette brings with it. -/
opaque cassetteErase : Nat → U32

end Sys2Proof.Config
end

