-- ==== Sys2Proof/Machine/State.lean ====
section
/-! DEFINITION. The state of the block as plain data: every register, queue, counter, table and mode the spec names,
each with the value it has at reset as its default; the queue of waiting commands; the ways a step can stop. -/

namespace Sys2Proof.Machine

/-- A sparse table: entries by key, keys strictly rising. -/
abbrev Assoc (α : Type) := List (Nat × α)

/-! ## Status codes and frames -/

/-- The status codes of the acceptance table (after R463). -/
inductive Status where
  | done | scheduled | part | badFrame | badOpcode | badParam | noRights | busy | late | invalidTime
  | exhausted | duplicate | gap | notOwnerState | fault | degraded
deriving DecidableEq, Repr, Inhabited

/-- R460: a response, before it is cut into parts and serialised. -/
structure Response where
  opcode : U16
  tenant : Fin 256
  status : Status
  dryRun : Bool := false
  snapshot : Bool := false
  unsequenced : Bool := false
  replayed : Bool := false
  truncated : Bool := false
  seq : U32
  generation : U32
  journal : U16 := 0xFFFF
  detail : U16 := 0
  payload : Bytes := []
deriving DecidableEq, Repr, Inhabited

/-- R468: one entry of the replay store: the header of a response part, up to 36 bytes of payload, the command's CRC. -/
structure ReplayEntry where
  resp : Response
  part : Byte
  more : Bool
  respSeq : U32
  cmdCrc : U32
deriving DecidableEq, Repr, Inhabited

/-- What a frame carries (R422): a UDP datagram, an ICMP message from an address, or an ARP packet to a MAC address. -/
inductive Carried where
  | udp
  | icmp (src : BitVec 128)
  | arp (dest : U48)
deriving DecidableEq, Repr, Inhabited

/-- A frame queued for sending: its bytes, what they are and where they go (R425, R430, R524); `dscp` and `pcp` count on queues 1 to 7, `frees` names the channel
and record whose Ear slots are freed when the frame has left (R346). -/
structure TxFrame where
  v6 : Bool := false
  destIp : BitVec 128 := 0
  destPort : U16 := 0
  srcPort : U16 := 0
  bytes : Bytes := []
  carried : Carried := .udp
  dscp : Nat := 0
  pcp : Nat := 0
  frees : Option (Nat × Nat) := none
deriving DecidableEq, Repr, Inhabited

/-- R483: one journal entry; its check word always holds. -/
structure JournalEntry where
  seq : U32
  tenant : Fin 256
  state : Nat
  opcode : U16
  vtSecond : U48
  status : Status
  remainder : Nat
  done : U32
  total : U32
  generation : U32
deriving DecidableEq, Repr, Inhabited

/-- R471, R472, R476: a pending item of a tenant: a commit holding its stage, or a scheduled immediate command. -/
inductive Pending where
  | commit (second : U48) (seq : U32) (journal : Nat) (domain : Bool) (mask : U32) (stage : List Instr)
  | scheduled (second : U48) (seq : U32) (journal : Nat) (cmd : Instr)
deriving DecidableEq, Repr, Inhabited

/-- R464: a held command, the CRC of its frame and the clock at which it arrived. -/
structure Held where
  cmd : Instr
  crc : U32
  since : Nat
deriving DecidableEq, Repr, Inhabited

/-! ## Time base (chapter 02) -/

/-- R68: one leap-table entry; `source` 0 factory, 1 Steward, 2 IEEE 1344; `negative` omits 23:59:59. -/
structure LeapEntry where
  naive : Nat
  offset : Int
  source : Nat
  negative : Bool
deriving DecidableEq, Repr, Inhabited

/-- R81: the live settings of TIMEBASE_CONFIG. -/
structure TimebaseCfg where
  refNominal : Nat := 0
  loopBw : Nat := 1
  ppsMode : Nat := 1
  irigMode : Nat := 1
  ieee1344 : Nat := 1
  irigQualityMax : Nat := 8
  returnPolicy : Nat := 0
  slewRate : Nat := 1
  ppsDelayFs : Nat := 0
  ppsTolerancePs : Nat := 10000
  realignThresholdPs : Nat := 1000
deriving DecidableEq, Repr, Inhabited

/-- R68: the factory contents of the leap table. -/
def factoryLeaps : List LeapEntry :=
  [⟨0, 32, 0, false⟩, ⟨189388800, 33, 0, false⟩, ⟨284083200, 34, 0, false⟩, ⟨394416000, 35, 0, false⟩,
   ⟨489024000, 36, 0, false⟩, ⟨536544000, 37, 0, false⟩]

/-- The VT96 of the epoch. -/
def vtZero : Vt96 := ⟨0, 0⟩

/-- Chapter 02: references, root, VT, leap table and the snapshot block. `tsbLog` holds the changes of the time status
byte with the clock of each, newest first, from which the byte of a span is formed (R75); `validated` is set only while stages apply that were validated
before (R84); `masterTsb` is the master's byte at a Rachis follower (R181). -/
structure TimeBase where
  vtSec : U48 := 0
  secStart : Nat := 0
  snapVt : Vt96 := vtZero
  snapOnSync : Bool := false
  snapCount : BitVec 4 := 0
  latchVtNow : BitVec 64 := 0
  latchPpsEdge : BitVec 64 := 0
  latchPpsOffset : U32 := 0
  latchLeapAt : U32 := 0
  latchSnapVt : BitVec 64 := 0
  latchSerial : U32 := 0
  latchLastPf : BitVec 64 := 0
  freqSource : BitVec 2 := 3
  phaseSource : BitVec 2 := 0
  labelSource : BitVec 2 := 0
  refDetected : BitVec 2 := 0
  updateCount : Byte := 0
  taiUtc : Int := 32
  leapNegative : Bool := false
  band : BitVec 6 := 0
  locked : Bool := false
  searching : Bool := false
  lockCount : Byte := 0
  holdoverForced : Bool := false
  holdover : Bool := false
  holdoverSeconds : U32 := 0
  ppsEdge : Vt96 := vtZero
  refFreqErr : U32 := 0x80000000
  ppsOffset : BitVec 64 := 0
  refPresent : Bool := false
  refValid : Bool := false
  refEverValid : Bool := false
  refGood : Nat := 0
  refBad : Nat := 0
  refQualifiedAt : Option Nat := none
  ocxoEstimate : Int := 0
  steering : Bool := false
  steerFrom : Nat := 0
  frozenSpan : Nat := 0
  frozenSteer : U64 := 0
  ppsValid : Bool := false
  ppsGood : Nat := 0
  ppsBad : Nat := 0
  ppsAlignGood : Nat := 0
  ppsAlignBad : Nat := 0
  ppsAligned : Bool := false
  ppsRef : Option Vt96 := none
  ppsDiscarded : U32 := 0
  irigValid : Bool := false
  irigGood : Nat := 0
  irigBad : Nat := 0
  irigMismatch : Nat := 0
  irigLast : Option Nat := none
  irigLabel : U48 := 0
  irigDelta : Int := 0
  irigOn : Vt96 := vtZero
  irigRequest : Bool := false
  irigStep : Bool := false
  slewAfter : Option Nat := none
  followHold : Bool := false
  labelValid : Bool := false
  utcValid : Bool := false
  slewing : Bool := false
  slewNegative : Bool := false
  slewFsPerS : Nat := 0
  tsbLog : List (Nat × Byte) := []
  alignRequest : Option Nat := none
  labelRequest : Option U48 := none
  labelChanges : Nat := 0
  validated : Bool := false
  outage : Bool := false
  resumeAtBoundary : Bool := false
  leaps : List LeapEntry := factoryLeaps
  savedVtSec : U48 := 0
  aligning : Bool := false
  masterTsb : Option Byte := none
  cfg : TimebaseCfg := {}
deriving DecidableEq, Repr, Inhabited

/-! ## Tenants and events (chapter 14) -/

/-- R503, R530: one admission entry; an IPv4 address stands in the high 32 bits of `addr`. -/
structure Admit where
  transports : BitVec 4 := 0
  family : Nat := 0
  pfx : Nat := 0
  addr : BitVec 128 := 0
deriving DecidableEq, Repr, Inhabited

/-- R526: one entry of an event queue. -/
structure EventEntry where
  seq : U32
  id : Nat
  rep : Nat
  tsb : Byte
  vt : BitVec 80
  generation : U32
  payload : Bytes
  pushed : Bool
  lost : Bool
deriving DecidableEq, Repr, Inhabited

/-- R532: where a tenant's events go. -/
inductive EventDest where
  | udp (src : Source)
  | ring
  | none
deriving DecidableEq, Repr, Inhabited

/-- R509: the sweeps a commit step started for a tenant: how many still run, and the pages and channels swept. -/
structure SweepStep where
  second : U48
  left : Nat
  pages : Nat := 0
  channels : Nat := 0
deriving DecidableEq, Repr, Inhabited

/-- R452, R500, R504: one tenant: its entry of the tenant table, its sequences, stores, stage and event queue. -/
structure Tenant where
  active : Bool := false
  channelMax : Nat := 0
  engineMax : Nat := 0
  pageMax : Nat := 0
  archiveGib : Nat := 0
  streamMbps : Nat := 0
  eventDepth : Nat := 512
  admission : List Admit := []
  nextSeq : U32 := 0
  respSeq : U32 := 0
  held : List Held := []
  replay : List ReplayEntry := []
  stage : List Instr := []
  items : List Pending := []
  culmRestarted : Bool := false
  powerLost : Bool := false
  eventMask : BitVec 1536 := 0
  eventDest : EventDest := .none
  queue : List EventEntry := []
  lostOpen : Bool := false
  eventsLost : U32 := 0
  eventSeq : U32 := 0
  lastPushed : U32 := 0
  sweeps : List SweepStep := []
deriving DecidableEq, Repr, Inhabited

/-- R501, R518: tenant 0 as delivered. -/
def stewardDelivered : Tenant :=
  { active := true, channelMax := 128, engineMax := 512, pageMax := 65024, archiveGib := 4294967295,
    streamMbps := 24000, admission := [{ transports := 12 }], eventMask := BitVec.allOnes 1536, eventDest := .ring }

/-- R508, R326: a page that is not simply in the swept pool; `step` is the second of the commit whose sweep it waits for. -/
structure Page where
  owner : Option (Fin 256) := none
  sweeping : Bool := false
  step : U48 := 0
  inRing : Bool := false
  markRetire : Bool := false
  retired : Bool := false
deriving DecidableEq, Repr, Inhabited

/-! ## Rings and records (chapters 06, 07, 08) -/

/-- R174: a trigger descriptor. -/
structure Descriptor where
  route : Nat := 0
  sourceKind : Nat := 0
  sourceIndex : Nat := 0
  flags : Byte := 0
  triggerId : U16 := 0
  origin : BitVec 5 := 0
  tsb : Byte := 0
  tag : Vt96 := vtZero
  coincident : U32 := 0
  discarded : U32 := 0
  generation : U32 := 0
deriving DecidableEq, Repr, Inhabited

/-- R225: an overflow mark. -/
structure Mark where
  reason : Nat
  channel : Nat
  mode : Nat
  lastGoodIndex : U32
  lastGoodVt : BitVec 80
  port : Byte := 0xFF
  triggersLost : U32 := 0
  generation : U32
deriving DecidableEq, Repr, Inhabited

/-- R243: a record: its header's fields, payload, flag map and overflow mark; `startTick` is the clock at which it began. What its outputs
are taken by: `base` is the VT tick of clock 0 under its labels, `sync` its sample 0, `firstOut` the first output stored,
`endSample` the sample at which it was cut, `syncBy` the trigger that made it begin (R233), `settleEnd` the sample at which FE_SETTLING ends, `nibble` flag_nibble, `suppress`
suppress_settling; `post`, `cap` and `block` are post_count, the ring capacity and block_samples when it began, `ramp` tells of loop-back depth 4. -/
structure Record where
  kind : Nat
  channel : Nat
  tenant : Fin 256
  dataFormat : Nat
  tsb : Byte
  recordId : U48
  firstVt : BitVec 80
  endCause : Nat
  flags : Byte
  count : U32
  genFirst : U32
  genLast : U32
  decim : Nat
  fir : Nat
  range : Nat
  filter : Nat
  coupling : Nat
  firstIndex : U32
  acquisitionId : U32
  trigger : Descriptor
  pre : U32
  segmentIndex : U32
  missed : U32
  accumCount : U32
  rejected : U32
  lastVt : BitVec 80
  payload : Bytes
  runs : List FlagRun
  mark : Option Mark
  startTick : Nat := 0
  base : Int := 0
  sync : Nat := 0
  firstOut : Nat := 0
  endSample : Option Nat := none
  settleEnd : Nat := 0
  nibble : Bool := false
  suppress : Bool := false
  syncBy : Option Descriptor := none
  post : Nat := 0
  cap : Nat := 0
  block : Nat := 0
  ramp : Bool := false
deriving DecidableEq, Repr, Inhabited

/-- R265, R269: a frame of stamps: its second, the ring index of its marker since arming, the slope setting under which it was stamped, the
class of its first stamp held, the label its stamps stand under (counted in label changes), and whether its oldest entries are overwritten. -/
structure FrameInfo where
  sec : Nat
  index : Nat := 0
  slope : Nat := 0
  level : Nat := 0
  epoch : Nat := 0
  headless : Bool := false
deriving DecidableEq, Repr, Inhabited

/-- R427: what an item is made of. -/
inductive ItemBody where
  | record (r : Record)
  | stamps (info : FrameInfo) (entries : List U64)
  | result (bytes : Bytes)
deriving DecidableEq, Repr, Inhabited

/-- R216, R339, R428: one item of a ring; `born` is the clock at which it was written, `complete` once the ring's index covers it; `sec` is the VT
second of the first input of a result and `genFirst` the generation there (R295). -/
structure Item where
  id : Nat
  generation : U32
  born : Nat
  body : ItemBody
  complete : Bool := true
  sec : Nat := 0
  genFirst : U32 := 0
  releasedBy : List Consumer := []
deriving DecidableEq, Repr, Inhabited

/-- R215, R216: a ring: its pages, its registered consumers, its items oldest first, whether its writer waits. -/
structure Ring where
  pages : List Nat := []
  consumers : List Consumer := []
  items : List Item := []
  waiting : Bool := false
deriving DecidableEq, Repr, Inhabited

/-! ## Channels (chapters 03, 04, 06) -/

/-- R119: front-end settings. -/
structure FeCfg where
  enable : Bool := false
  range : Nat := 5
  coupling : Nat := 0
  filter : Nat := 0
  sampleFormat : Nat := 0
  flagNibble : Nat := 0
deriving DecidableEq, Repr, Inhabited

/-- R120: comparator settings. -/
structure CompCfg where
  threshold : Int := 0
  hysteresis : Nat := 2
  slope : Nat := 0
  enable : Bool := false
deriving DecidableEq, Repr, Inhabited

/-- R247: capture settings. -/
structure CaptureCfg where
  mode : Nat := 0
  routeMask : U32 := 0
  segLength : Nat := 4096
  pre : Nat := 0
  segmentCount : Nat := 0
  postCount : Nat := 1048576
  circPages : Nat := 16
  recPages : Nat := 64
  blockSamples : Nat := 1048576
deriving DecidableEq, Repr, Inhabited

/-- R248: reduction settings. -/
structure ReductionCfg where
  k : Nat := 0
  fir : Nat := 0
  outWidth : Nat := 0
  suppress : Nat := 0
  syncRoute : Nat := 255
deriving DecidableEq, Repr, Inhabited

/-- R249: accumulation settings. -/
structure AccumCfg where
  recordLen : Nat := 1024
  pre : Nat := 0
  target : Nat := 16777216
  gateS : Nat := 0
deriving DecidableEq, Repr, Inhabited

/-- R132: the coded quality figures of the four components, in units of 0.25 dB. -/
structure Quality where
  o : Byte := 0
  g : Byte := 0
  tau : Byte := 0
  beta : Byte := 0
deriving DecidableEq, Repr, Inhabited

/-- R132: the estimates of a window's valid blocks: their number, sums and sums of squares of each component. -/
structure Moments where
  n : Nat := 0
  sum : Terms := {}
  sq : Terms := {}
deriving DecidableEq, Repr, Inhabited

/-- R141: a temperature set that a run has written (`source` 1 delta, 2 rewrite); a set not written holds the factory
contents of Config. -/
structure CalSet where
  source : Nat
  updates : U32
  updatedVt : U48
  common : Int × Int
  slices : List Terms
deriving DecidableEq, Repr, Inhabited

/-- R207 to R214, R236: a segment in the Ear, or a record an accumulation waits for: its record, whose outputs are in once `filled`, its first
sample number and its samples, the trigger sample and its fraction in 1/64. -/
structure Segment where
  record : Record
  first : Nat
  len : Nat := 0
  trig : Nat := 0
  frac : Nat := 0
  filled : Bool := false
deriving DecidableEq, Repr, Inhabited

/-- R35, R38: the settings of a channel before the record-defining commit at VT `vt`, whose first sample is `at_`; `since` is the first sample of
those settings. Triggers tagged before it are judged by them. -/
structure Before where
  vt : Vt96
  at_ : Nat
  since : Nat
  fe : FeCfg
  comp : CompCfg
  capture : CaptureCfg
  reduction : ReductionCfg
  accum : AccumCfg
  capState : Nat
  settleEnd : Nat
deriving DecidableEq, Repr, Inhabited

/-- R106, R107: the samples of a phase that carry SLICE_FAULT. -/
structure FaultSpan where
  phase : Nat
  from_ : Nat
  to_ : Option Nat := none
deriving DecidableEq, Repr, Inhabited

/-- Chapters 03, 04 and 06: one channel. Of its capture: `openRec` is the record being written (modes 2, 3 and 5),
`ended` are records that ended and whose outputs have not come yet, `copyRec` an accumulation being copied,
`lastSample` the last sample of the last segment, `acted` the tick and route last acted on and whether a record came of it,
`pairFrozen` tells that the pair window is closed for a
handover, `since` the first sample of the present settings, `before` the settings before it, `settleEnd` the sample at which FE_SETTLING ends, `coef` the
coefficients of the eight phases from a sample on, newest first, `markRecord` the record that
carries the mark of the last overflow; `compKnown` tells that `compState` has been taken from the input since power came. -/
structure Channel where
  passedFrom : Option (Fin 256 × Vt96) := none
  fe : FeCfg := {}
  comp : CompCfg := {}
  settleUntil : Nat := 0
  settling : Bool := false
  maskUntil : Nat := 0
  masked : Bool := false
  compState : Bool := false
  compKnown : Bool := false
  compFault : Bool := false
  phaseMap : U32 := 0x76543210
  spare : Option (Fin 9) := some 8
  shadowPhase : Nat := 0
  slewing : Bool := false
  retired : Option (Fin 9) := none
  rotationPaused : Bool := false
  substituted : Bool := false
  faulty : BitVec 9 := 0
  sliceTested : Bool := false
  shadowCheck : Option (Nat × Fin 9 × Fin 9) := none
  failed : Bool := false
  isolated : Bool := false
  ovrLast : U32 := 0
  handovers : U32 := 0
  background : Bool := true
  dither : Bool := false
  sets : List (Nat × CalSet) := []
  badSets : BitVec 5 := 0
  trim : List Terms := []
  live : List Terms := []
  qEnsemble : Quality := {}
  qPair : Quality := {}
  pairTerms : Terms := {}
  pairFrom : Nat := 0
  pairBlocks : Nat := 0
  pairTotal : Nat := 0
  pairOvr : Nat := 0
  pairValid : Bool := false
  pairBeta : Bool := false
  pairFrozen : Bool := false
  pairMoments : Moments := {}
  ensFrom : Nat := 0
  ensTotal : Nat := 0
  ensValid : Nat := 0
  ensOvr : Nat := 0
  ensMoments : List Moments := []
  reasons : Byte := 0
  lastStarved : Byte := 0
  prevWithheld : Bool := false
  lastAcceptVt : U48 := 0
  lastAcceptTemp : Int := 0
  awnWorstFs : U32 := 0
  awnChecks : U32 := 0
  windowsWithheld : U32 := 0
  capture : CaptureCfg := {}
  reduction : ReductionCfg := {}
  accum : AccumCfg := {}
  capState : Nat := 0
  armHeld : Bool := false
  lastReason : Nat := 0
  acquisitionId : U32 := 0
  lastRecordId : U48 := 0
  segments : U32 := 0
  missed : U32 := 0
  missedSince : U32 := 0
  overflows : U32 := 0
  lastSample : Option Nat := none
  acted : Option (Nat × Nat × Bool) := none
  since : Nat := 0
  before : Option Before := none
  settleEnd : Nat := 0
  faultSpans : List FaultSpan := []
  coef : List (Nat × List Terms) := []
  ear : List Segment := []
  openRec : Option Record := none
  postPhase : Bool := false
  ended : List Record := []
  sums : List Int := []
  copy : List Int := []
  copyRec : Option Record := none
  capJournal : Option Nat := none
  ring : Ring := {}
  circ : Ring := {}
  markRecord : Option U48 := none
  earSweep : Bool := false
  accSweep : Bool := false
  sweepStep : U48 := 0
deriving DecidableEq, Repr, Inhabited

/-- R153, R123: module-wide calibration and rotation settings. -/
structure CalCfg where
  deltaT : Nat := 150
  autoRun : Nat := 1
  qMin : Nat := 24
  ensWindow : Nat := 64
  runWindow : Nat := 8
  awnCheckInterval : Nat := 60
  rotDwell : Nat := 8
  autoSubstitute : Nat := 1
deriving DecidableEq, Repr, Inhabited

/-- R140: one calibration-log entry. -/
structure CalLogEntry where
  vtSecond : U48
  generation : U32
  kind : Byte
  runJournal : U16
  mask : BitVec 128
deriving DecidableEq, Repr, Inhabited

/-- R144, R147: a scheduled or active calibration run. -/
structure CalRun where
  start : U48
  mask : BitVec 128
  journal : Nat
  active : Bool := false
  measured : Bool := false
  written : BitVec 128 := 0
  tempSum : Int := 0
  tempCount : Nat := 0
deriving DecidableEq, Repr, Inhabited

/-- R32, R138, R139, R102, R107, R150: one change of the management plane's stage. -/
inductive MgmtChange where
  | coefficients (c : Fin 128) (trim live : List Terms)
  | runResult (c : Fin 128)
  | handover (c : Fin 128)
  | substitute (c : Fin 128) (slice : Fin 9)
  | awnTables (source : Fin 132) (lane : Fin 4) (taps verns : List Nat)
  | setFallback (c : Fin 128)
deriving DecidableEq, Repr, Inhabited

/-- Chapter 04: calibration of the module. -/
structure Calibration where
  cfg : CalCfg := {}
  history : List Int := []
  tFilt : Int := 0
  tRef : Int := 0
  lastDone : U48 := 0
  run : Option CalRun := none
  log : List (Nat × CalLogEntry) := []
  logNext : Nat := 0
  logExtra : Byte := 0
  logExtraMask : BitVec 128 := 0
  staged : List MgmtChange := []
deriving DecidableEq, Repr, Inhabited

/-! ## Triggers and Rachis (chapter 05) -/

/-- R194: the settings of a route. -/
structure RouteCfg where
  sourceKind : Nat := 7
  sourceIndex : Nat := 0
  slope : Nat := 0
  holdoffMode : Nat := 0
  singleShot : Bool := false
  enable : Bool := false
  levelA : Int := 0
  levelB : Int := 0
  hysteresis : Nat := 0
  holdoff : Nat := 0
  schedTime : Vt96 := vtZero
  schedPeriod : Nat := 0
  schedCount : Nat := 0
deriving DecidableEq, Repr, Inhabited

/-- R169, R195: the states of a route; a disarmed route is enabled and takes nothing. -/
inductive RouteState where
  | disabled | disarmed | armed | holdoff | spent
deriving DecidableEq, Repr, Inhabited

/-- R162, R163: the evaluation of a digital condition: the number of the sample it takes next, the clean samples before it, newest first,
the slopes that are armed, and whether the last sample met a slew condition. -/
structure Digital where
  next : Nat := 0
  prev : List Int := []
  up : Bool := false
  down : Bool := false
  run : Bool := false
deriving DecidableEq, Repr, Inhabited

/-- R159, R169, R198: one trigger route. The `old` fields are the settings before the commit at `oldUntil`, under which
triggers tagged before it are judged (R172); `oldOver` once a sample after it has been evaluated. -/
structure Route where
  cfg : RouteCfg := {}
  state : RouteState := .disabled
  lastTag : Option Vt96 := none
  discardLeft : Nat := 0
  sinceAccepted : U32 := 0
  accepted : U64 := 0
  discarded : U64 := 0
  coincidentLost : U64 := 0
  outLate : U32 := 0
  last : Descriptor := {}
  nextInstant : Option Vt96 := none
  fired : Nat := 0
  wasSpent : Bool := false
  oldUntil : Option Vt96 := none
  oldCfg : RouteCfg := {}
  oldState : RouteState := .disabled
  oldTag : Option Vt96 := none
  oldLeft : Nat := 0
  oldOwner : Nat := 0
  oldOver : Bool := false
  eval : Digital := {}
  oldEval : Digital := {}
deriving DecidableEq, Repr, Inhabited

/-- R196, R167, R168: a TRIG OUT; `edgeAt` holds the edges it is to place with their triggers, earliest first. -/
structure TrigOut where
  route : Nat := 0
  fastPath : Bool := false
  activeLow : Bool := false
  widthNs : Nat := 100
  offsetPs : Nat := 0
  enable : Bool := false
  onFastPath : Bool := false
  edgeAt : List (Vt96 × Descriptor) := []
  pulse : Bool := false
  pulseUntil : Nat := 0
deriving DecidableEq, Repr, Inhabited

/-- R165: a TRIG IN receiver and its Awn lane; `known` tells that its level has been seen. -/
structure TrigIn where
  level : Bool := false
  known : Bool := false
  lastStamp : Option Vt96 := none
deriving DecidableEq, Repr, Inhabited

/-- R178: one Tiller transition; `from_` 255 is any state. -/
structure TillerStep where
  from_ : Nat
  priority : Nat
  condKind : Nat
  condIndex : Nat
  next : Nat
  actions : U16
  outMask : Byte
  counter : Nat
  timer : Nat
deriving DecidableEq, Repr, Inhabited

/-- R177, R199: the Tiller. `due` holds the transitions taken, with their numbers and the CORE ticks at which they take effect, `timerFrom` the
CORE ticks at which the timers held their values, `sampledAt` the CORE tick sampled last; `acted` the SLICE tick and route it acted on last (R161). -/
structure Tiller where
  steps : List TillerStep := []
  startState : Nat := 0
  terminals : List Nat := [0, 0, 0, 0]
  presets : List Nat := [1, 1, 1, 1]
  loaded : Bool := false
  running : Bool := false
  state : Nat := 0
  counters : List U32 := [0, 0, 0, 0]
  timers : List (BitVec 40) := [0, 0, 0, 0]
  timerRuns : BitVec 4 := 0
  expired : BitVec 4 := 0
  poke : Byte := 0
  pokeAt : Nat := 0
  acceptedAt : Nat := 0
  accepted : U32 := 0
  due : List (Nat × Nat × TillerStep) := []
  timerFrom : List Nat := [0, 0, 0, 0]
  sampledAt : Option Nat := none
  acted : Option (Nat × Nat) := none
deriving DecidableEq, Repr, Inhabited

/-- R202: the state of a Rachis port. -/
inductive PortState where
  | down | training | up | standby | idConflict
deriving DecidableEq, Repr, Inhabited

/-- R187: a queued message, the clock at which it was queued and the port it arrived on (none: this module's own). -/
structure TxEntry where
  msg : RachisMsg
  tick : Nat
  from_ : Option Nat := none
deriving DecidableEq, Repr, Inhabited

/-- R191: a report that a member lost a domain commit: tenant, second, member. -/
structure LossReport where
  tenant : Fin 256
  second : U48
  member : Fin 32
deriving DecidableEq, Repr, Inhabited

/-- Chapter 05: one Rachis port. `tx` holds the messages queued, `txFreeAt` the clock at which the last of them has left
(log entry 22), `heardPeer` tells that `peer` is known, `reach` are the modules reached through it, `lossTx` the loss reports sent on it, newest last; `loopFs` the loop delay
measured at depth 3 (R572). -/
structure RachisPort where
  state : PortState := .down
  peer : BitVec 5 := 0
  heardPeer : Bool := false
  hops : Nat := 0
  delays : List Int := []
  delayFs : Int := 0
  halfCount : U16 := 0
  crcErrors : U16 := 0
  heldA : Option BurstA := none
  txPair : Bool := false
  tx : List TxEntry := []
  txFreeAt : Nat := 0
  reach : U32 := 0
  lossTx : List LossReport := []
  loopFs : Option Int := none
  txDropped : U32 := 0
  badExchanges : Nat := 0
  t1 : Option Vt96 := none
  fastIn : Bool := false
  fastOut : Bool := false
  isolated : Bool := false
deriving DecidableEq, Repr, Inhabited

/-- R201: the live Rachis settings. -/
structure RachisCfg where
  role : Nat := 0
  upstream : Nat := 255
  portEnable : BitVec 4 := 0
  quenchForward : Bool := true
  asym : List Int := [0, 0, 0, 0]
  remoteAlign : Bool := true
  alignDelayNs : Nat := 2000
  txRouteMask : U32 := 0
deriving DecidableEq, Repr, Inhabited

/-- R190, R191: a domain commit this module knows of. -/
structure DomainCommit where
  tenant : Fin 256
  second : U48
  mask : U32
  ready : U32 := 0
  refused : Bool := false
  sentReady : Bool := false
  decision : Option Bool := none
  received : Option Bool := none
  lost : U32 := 0
deriving DecidableEq, Repr, Inhabited

/-- Chapter 05: the Rachis side of the module. `heard` holds the last trigger_id of each origin module and route (32 × module + route) and the
messages missed of it (R188), `lossHeld` the loss reports that no link has taken yet, `acted` the SLICE tick, the route and the message the
transmit set acted on last (R161). -/
structure Rachis where
  cfg : RachisCfg := {}
  modId : BitVec 5 := 0
  masterId : Option (BitVec 5) := none
  upstream : Option (Fin 4) := none
  offsetFs : BitVec 64 := 0
  ownQuench : Bool := false
  domains : List DomainCommit := []
  syncs : List Vt96 := []
  heard : Assoc (U16 × U32) := []
  lossHeld : List LossReport := []
  acted : Option (Nat × Nat × RachisMsg) := none
deriving DecidableEq, Repr, Inhabited

/-! ## Awn (chapter 07) -/

/-- R282: the settings of a timing input. -/
structure TiCfg where
  enable : Bool := false
  slope : Nat := 0
  thresholdMv : Int := 1250
  hysteresisMv : Nat := 10
deriving DecidableEq, Repr, Inhabited

/-- R284: the state of a lane. -/
inductive LaneState where
  | inService | densityCheck | relocking | faulty | unlocked
deriving DecidableEq, Repr, Inhabited

/-- R255, R256: one Awn lane: its state, the edge it took last and when it is free again, the edge it converts,
measured code tables (none: the factory tables of Config). -/
structure Lane where
  state : LaneState := .inService
  busyFrom : Option Vt96 := none
  converting : Option (Nat × Vt96) := none
  tables : Option (List Nat × List Nat) := none
  holdCheck : Bool := false
  relocking : Bool := false
  worstFs : U32 := 0
deriving DecidableEq, Repr, Inhabited

/-- R264: what an entry of a stamp queue is; of a marker, the slope setting from its second on, the count of label changes and the generation
there. -/
inductive EntryKind where
  | stamp | marker (slope epoch : Nat) (gen : U32) | stop | mark
deriving DecidableEq, Repr, Inhabited

/-- Chapter 07: one stamp source. `held` are stamps that wait for the dead time, each with the edge it belongs to, its tag and the clock at
which the edge was seen, in the order of their edges (R261); `laneBefore` is what `nextLane` was before the last stamped edge; `haltedAt` is
the stop instant of a stream; `lostEdges` and `stops` carry the count of label changes they stand under, a stop the instant just after the last stamp
and the instant it came (R275); `levelKnown` tells that the level of a timing input was taken since power came; `ringBase` is the identity of the ring's first entry since arming. -/
structure StampSource where
  stampEnable : Bool := false
  pages : Nat := 16
  ti : TiCfg := {}
  level : Bool := false
  levelKnown : Bool := false
  armed : Bool := false
  armHeld : Bool := false
  startAtBoundary : Bool := false
  running : Bool := false
  state : Nat := 0
  lanes : Vector Lane 4 := Vector.replicate 4 {}
  nextLane : Nat := 0
  laneBefore : Nat := 0
  lastEdge : Option Vt96 := none
  held : List (Vt96 × Vt96 × Nat) := []
  queue : List (EntryKind × U64) := []
  queueHigh : Nat := 0
  frameSec : U48 := 0
  stamps : U64 := 0
  sinceArming : U32 := 0
  streamFrom : Vt96 := ⟨0, 0⟩
  lostDeadtime : U64 := 0
  lostThis : Bool := false
  lostEdges : List (Nat × Vt96) := []
  stops : List (Nat × Nat × Nat) := []
  configChanged : Bool := false
  writeIndex : U64 := 0
  ringBase : Nat := 0
  completeTo : Vt96 := vtZero
  haltedAt : Vt96 := vtZero
  lastStamp : BitVec 80 := 0
  relocks : U16 := 0
  ring : Ring := {}
deriving DecidableEq, Repr, Inhabited

/-! ## Engines (chapter 08) -/

/-- R286, R315: one Flail engine; `running` is the instance and unit it runs, `fetchPos` how much of the unit's input it
has taken, `out` the bodies it has emitted, `times` the durations of its last units in SLICE ticks; `prefetched` is the unit it has prefetched (R305),
`entry` the offset in the code at which the node last called the image (R300); `g`, `acc` and `mem` are its registers, accumulators and local
memory. -/
structure Engine where
  retired : Bool := false
  running : Option (Nat × Nat) := none
  prefetched : Option (Nat × Nat) := none
  entry : Nat := 0
  startedAt : Nat := 0
  fetchPos : Nat := 0
  slow : Bool := false
  unitsDone : U64 := 0
  reissued : U32 := 0
  eccCorrected : U32 := 0
  out : List Bytes := []
  times : List Nat := []
  selfTested : Bool := false
  g : Vector U32 32 := Vector.replicate 32 0
  acc : Vector U64 8 := Vector.replicate 8 0
  mem : List Host.Cell := []
deriving DecidableEq, Repr, Inhabited

/-- R292: an input of an instance. -/
structure InstInput where
  kind : Nat
  index : Nat
deriving DecidableEq, Repr, Inhabited

/-- R293, R305, R306, R308: one unit formed for an instance: its items, for stamps its span in units of 2⁻⁴⁸ s, the labels that span stands under,
the time and the first and last generation of its input, its gate, who ran it last, its faults and what it gave: its results, its
partial, and the stamps a library reducer of mode 1 saw, each with a code of its source's place, slope setting and class. -/
structure WorkUnit where
  number : Nat
  items : List (RingId × Nat)
  from_ : Nat := 0
  to_ : Nat := 0
  epoch : Nat := 0
  firstAt : Vt96 := vtZero
  genFirst : U32 := 0
  gen : U32 := 0
  gate : Nat := 0
  issued : Nat := 0
  lastEngine : Option Nat := none
  wantDup : Bool := false
  duplicated : Bool := false
  faults : Nat := 0
  poisoned : Bool := false
  accepted : Bool := false
  bodies : List Bytes := []
  part : Bytes := []
  seen : List (Nat × Int) := []
deriving DecidableEq, Repr, Inhabited

/-- R278: what the even gate of a round-trip pair gave: the delay and its uncertainty in seconds (none: no value), counts,
flags, start, generation and residual. -/
structure EvenGate where
  gate : Nat
  value : Option (Rat × Rat)
  used : Nat
  unassigned : Nat
  stamps : Nat
  flags : Nat
  tsb : Byte
  start : Nat
  gen : U32
  residual : Rat
deriving DecidableEq, Repr, Inhabited

/-- R61, R271, R275, R293: how far an instance has come under the labels of one count of label changes (`epoch`). Instants are in units of
2⁻⁴⁸ s under those labels, and `shift` takes them to the present ones. What begins at or after `stop` (SLICE tick `stopTick`) does
not belong here. `nextSpan` is where the next stamp span begins, `gateFrom` where the part of gate `nextGate` not yet closed begins,
`partialRest` whether that part follows a cut, `cuts` the instants that cut gates. -/
structure GateCursor where
  epoch : Nat := 0
  shift : Int := 0
  stop : Option Nat := none
  stopTick : Option Nat := none
  nextSpan : Nat := 0
  gateFrom : Nat := 0
  nextGate : Nat := 0
  cuts : List Nat := []
  partialRest : Bool := false
  even : Option EvenGate := none
deriving DecidableEq, Repr, Inhabited

/-- R285, R289, R314: one instance (a reducer or a measurement). `engines` is its group, `active` the engine that runs it in mode 2, `inited` those
whose init entry was called; data from the SLICE tick `startTick` on belong to it (R295); a version with `ended` was replaced or deleted,
and one with `deleted` holds neither its number nor its engines any more (R289, R310). `cursor` is how far it has come under the present labels, `old`
what is left under earlier ones, oldest first; `last` is the last result of a stopped instance while it waits for room. -/
structure Instance where
  owner : Fin 256
  imageSlot : Nat
  reducerId : U32
  mode : Nat
  measure : Bool := false
  kind : Nat := 0
  slopes : Nat := 0
  f1 : Nat := 0
  f2 : Nat := 0
  gateMs : Nat := 1000
  guardUs : Nat := 0
  unitUs : Nat := 10000
  inputs : List InstInput := []
  engines : List Nat := []
  node : Nat := 0
  shedFactor : Nat := 2
  resultStook : Nat := 0
  resultPages : Nat := 1
  resultMax : Nat := 4096
  partialLen : Nat := 4096
  stateLen : Nat := 4096
  maxUnitCycles : Nat := 0
  params : Bytes := []
  image : Bytes := []
  state : Nat := 1
  startTick : Nat := 0
  ended : Bool := false
  deleted : Bool := false
  active : Option Nat := none
  inited : List Nat := []
  last : Option (U32 × Nat × Bytes) := none
  units : List WorkUnit := []
  nextUnit : Nat := 0
  unitsDone : U64 := 0
  unitsPoisoned : U32 := 0
  consecutivePoisoned : Nat := 0
  durations : List Nat := []
  results : U64 := 0
  resultSeq : U32 := 0
  gap : Bool := false
  cursor : GateCursor := {}
  old : List GateCursor := []
  serial : Bytes := []
  ring : Ring := {}
  journal : Option Nat := none
deriving DecidableEq, Repr, Inhabited

/-- R304, R318: an image slot: the staging copy and the image. -/
structure ImageSlot where
  owner : Fin 256 := 0
  staging : List (Nat × Bytes) := []
  image : Bytes := []
  usable : Bool := false
  keyRevoked : Bool := false
deriving DecidableEq, Repr, Inhabited

/-- R40, R582: a control node. -/
structure Node where
  failed : Bool := false
  isolated : Bool := false
deriving DecidableEq, Repr, Inhabited

/-! ## DRAM (chapter 09) -/

/-- R353: the entry of one byte lane. -/
structure DramLane where
  eyes : LaneTraining := {}
  drift : Int := 0
  driftRaised : Bool := false
  recent : List Nat := []
deriving DecidableEq, Repr, Inhabited

/-- R353: the states of a controller. -/
inductive DramState where
  | training | inService | exposed | isolated | failed
deriving DecidableEq, Repr, Inhabited

/-- Chapter 09: one DRAM controller. `offered` are requests not yet accepted, `waiting` those accepted, oldest first, whose writes are the
write queue, `issued` the reads whose data is on its way, `batch` the writes left of a batch (R336); `openRow`, `hits` and `bankBusy` are by
bank, `closed` the row of a bank closed for a waiting request (R335), `neighbours` the (bank, row) pairs that the last neighbour refresh
took (R342), `scrubFrom` the clock at which the patrol pass began (R327), `byStage` whether a stage isolated the controller (R352). -/
structure Dram where
  state : DramState := .training
  byStage : Bool := false
  marked : BitVec 10 := 0
  hot : Bool := false
  temp : Int := 0
  attempts : Nat := 0
  swept : Bool := false
  restoring : Option Nat := none
  resumeDrain : Bool := false
  corrected : U64 := 0
  uncorrectable : U64 := 0
  ueTimes : List Nat := []
  scrubAddr : BitVec 34 := 0
  scrubFrom : Option Nat := none
  scrubDoneAt : Nat := 0
  trainedVt : U48 := 0
  bytesServed : U64 := 0
  lanes : Vector DramLane 10 := Vector.replicate 10 {}
  bgMask : List (BitVec 34) := [0x10840200, 0x21080400, 0x42100800]
  baMask : List (BitVec 34) := [0x84201000, 0x108402000]
  stallUntil : Nat := 0
  offered : List DramRequest := []
  waiting : List DramRequest := []
  issued : List DramRequest := []
  batch : Nat := 0
  openRow : Vector (Option Nat) 32 := Vector.replicate 32 none
  hits : Vector Nat 32 := Vector.replicate 32 0
  closed : Vector (Option Nat) 32 := Vector.replicate 32 none
  bankBusy : Vector Nat 32 := Vector.replicate 32 0
  generator : U32 := 0
  neighbours : List (Nat × Nat) := []
deriving DecidableEq, Repr, Inhabited

/-- R332, R354: one DRAM port. -/
structure DramPort where
  targetNs : Nat
  late : U32 := 0
  maxWaitNs : U32 := 0
deriving DecidableEq, Repr, Inhabited

/-- R355: one entry of the DRAM error log; `at_` is the clock of its first occurrence. -/
structure DramLogEntry where
  at_ : Nat := 0
  vtSecond : U48
  kind : Nat
  controller : Nat
  lane : Byte := 0xFF
  port : Byte := 0xFF
  bankGroup : Nat := 0
  bank : Nat := 0
  column : Nat := 0
  row : Nat := 0
  page : Nat := 0
  count : U32 := 1
  generation : U32
deriving DecidableEq, Repr, Inhabited

/-- R332: the default latency target of a port, ns. -/
def defaultTarget (p : Nat) : Nat :=
  if p < 16 then 1000 else if p < 24 then 4000 else if p < 26 then 2000
  else if p = 26 then 20000 else if p = 27 then 100000 else 5000

/-- Chapter 09: the DRAM of the module. -/
structure DramUnit where
  ctrl : Vector Dram 8 := Vector.replicate 8 {}
  ports : List DramPort := (List.range 29).map fun p => { targetNs := defaultTarget p }
  hammerK : Nat := 9
  scrubHours : Nat := 24
  log : List (Nat × DramLogEntry) := []
  logNext : Nat := 0
deriving DecidableEq, Repr, Inhabited

/-! ## Winnow and Granary (chapters 10, 11) -/

/-- R374: the state of a Winnow lane. -/
inductive WinnowState where
  | inService | disabled | faulty
deriving DecidableEq, Repr, Inhabited

/-- R359 to R361, R366: a block: the job it belongs to, its class, the bytes of one element (or packed group), its index within the job
and its input; `copyAs` is the block_type of a raw copy that has to be made again, `after` the lane where it failed (R367). -/
structure WinnowBlock where
  job : Nat
  cls : Nat
  unit : Nat
  index : Nat
  input : Bytes
  copyAs : Option Nat := none
  after : Option Nat := none
deriving DecidableEq, Repr, Inhabited

/-- Chapter 10: one Winnow lane; `block` is the block it works on. -/
structure WinnowLane where
  state : WinnowState := .inService
  selfTested : Bool := false
  mismatches : U32 := 0
  recent : List Nat := []
  bytesIn : U64 := 0
  block : Option WinnowBlock := none
deriving DecidableEq, Repr, Inhabited

/-- Chapter 10: Winnow. `ready` are the blocks no lane has taken, `lastJob` the job whose block was taken last. -/
structure Winnow where
  laneEnable : BitVec 4 := 0xF
  blockBytes : Nat := 65536
  flushMs : Nat := 1000
  lanes : Vector WinnowLane 4 := Vector.replicate 4 {}
  ready : List WinnowBlock := []
  lastJob : Nat := 1023
  incompressible : U32 := 0
  bytesIn : U64 := 0
  bytesOut : U64 := 0
deriving DecidableEq, Repr, Inhabited

/-- R381: the metadata of a codeword of a record: its write sequence, and where in it a block header starts (the first, if several do) with
the raw offset of that block. Its record_id and job are those of its record. -/
structure Codeword where
  seq : U64
  header : Option (Nat × Nat) := none
deriving DecidableEq, Repr, Inhabited

/-- R366, R381: a block of a record as it leaves its lane: its stored bytes, its input bytes, and whether it is stored raw. -/
structure BlockSize where
  stored : Nat
  input : Nat
  plain : Bool
deriving DecidableEq, Repr, Inhabited

/-- R381, R396: a block as it lies in a record's stream, which begins with the catalogue entry: its position and its raw offset. -/
structure LaidBlock where
  at_ : Nat
  raw : Nat
  size : BlockSize
deriving DecidableEq, Repr, Inhabited

/-- R382 to R386, R408: an archive job. Of the record in progress: `taken` are the items it holds, `span` the start of its span, `ended`
whether its last piece was handed on, `raw` its bytes; `spans` are the record_ids of spans that have begun. `open_` is the open block;
`finished` the sizes of blocks that have left their lanes and wait for their turn or for room, `laid` the blocks written, `words` the
codewords and `parts` the stripes they lie in, each with its bytes. -/
structure Job where
  owner : Fin 256
  inputKind : Nat
  inputIndex : Nat
  cassette : Nat
  protect : Bool
  fullPolicy : Nat
  spanS : Nat
  stallMs : Nat
  journal : Nat
  spans : List (Nat × U48) := []
  taken : List Nat := []
  span : Nat := 0
  recordId : Option U48 := none
  ended : Bool := false
  firstVt : BitVec 80 := 0
  lastVt : BitVec 80 := 0
  genFirst : U32 := 0
  genLast : U32 := 0
  raw : Bytes := []
  open_ : Bytes := []
  openClass : Nat := 0
  openUnit : Nat := 1
  openSince : Nat := 0
  blocks : Nat := 0
  blocksOut : Nat := 0
  finished : Assoc BlockSize := []
  laid : List LaidBlock := []
  words : List Codeword := []
  parts : List (Nat × Nat) := []
  storedLen : Nat := 0
  target : Option (Fin 2) := none
  damaged : List (Nat × Nat) := []
  holding : Bool := false
  fullRaised : Bool := false
  skipped : U32 := 0
  skippedSec : Option U48 := none
  stallSince : Nat := 0
deriving DecidableEq, Repr, Inhabited

/-- R381, R401: an archived record: its catalogue entry, and, where this module wrote them, its bytes, blocks, codewords and stripes. -/
structure ArchRecord where
  entry : CatEntry
  content : Option Bytes := none
  laid : List LaidBlock := []
  words : List Codeword := []
  parts : List (Nat × Nat) := []
deriving DecidableEq, Repr, Inhabited

/-- R379: a stripe: its number in its cassette, its members as (module die, block) in channel order, the data bytes it takes and those written. -/
structure Stripe where
  number : Nat
  members : List (Nat × Nat)
  size : Nat
  used : Nat := 0
deriving DecidableEq, Repr, Inhabited

/-- R412: one damage entry. -/
structure Damage where
  recordId : U48
  offset : U64
  length : U32
  foundSec : U48
  cause : Nat
  cassette : Nat
deriving DecidableEq, Repr, Inhabited

/-- R388, R389, R397, R398: one die: `bad` are its retired blocks, `erases` how often blocks were erased. -/
structure Die where
  badBlocks : Nat := 0
  bad : List Nat := []
  erases : Assoc Nat := []
  failed : Bool := false
  benched : Bool := false
  benchTimes : List Nat := []
  times : List Nat := []
deriving DecidableEq, Repr, Inhabited

/-- The cassette states table (before R404). -/
inductive CassetteState where
  | absent | unformatted | formatting | inService | readOnly | evacuating | retired | scanning | failed
deriving DecidableEq, Repr, Inhabited

/-- Chapter 11: one cassette bay. `eraseTotal` counts the erases of its user blocks, `openStripe` is the stripe being written, `writes` are what
was written in the last 24 h, as (clock, bytes, whether Glean's copies), `reads` the page reads of its blocks by 2,800 × die + block, `scrubbed` the block Glean
read last, `resume` the state in which a full restart found it. -/
structure Cassette where
  state : CassetteState := .absent
  tlc : Bool := false
  present : Bool := false
  powered : Bool := false
  insertedAt : Nat := 0
  worn : Bool := false
  eraseTotal : Nat := 0
  wornRaised : Bool := false
  scrubPassAt : Nat := 0
  scrubbed : Nat := 0
  stripes : List Stripe := []
  openStripe : Option Nat := none
  nextStripe : Nat := 0
  writes : List (Nat × Nat × Bool) := []
  times : List Nat := []
  reads : Assoc Nat := []
  gleanQueue : List Nat := []
  repaired : U32 := 0
  formatJournal : Option Nat := none
  formatTlc : Bool := false
  resume : Option CassetteState := none
  evacuation : Option (Nat × Bool) := none
  retireJournal : Option Nat := none
  changes : Nat := 0
  checkpointAt : Nat := 0
deriving DecidableEq, Repr, Inhabited

/-- Chapter 11: the Granary. -/
structure Granary where
  cassettes : Vector Cassette 2 := Vector.replicate 2 {}
  dies : Vector Die 128 := Vector.replicate 128 {}
  jobs : Assoc Job := []
  catalogue : List ArchRecord := []
  damage : List Damage := []
  scrubDays : Nat := 30
  refreshBits : Nat := 60
  nextRecordId : Nat := 0
  recordIdMark : Nat := 0
  writeSeq : U64 := 0
deriving DecidableEq, Repr, Inhabited

/-! ## Host ports and streams (chapter 12) -/

/-- R446: the live settings of a port. -/
structure PortCfg where
  ipMode : BitVec 2 := 1
  mtu : Nat := 1500
  vlan : Nat := 65535
  ctrlPcp : Nat := 7
  ctrlDscp : Nat := 48
  ip4 : U32 := 0
  prefix4 : Nat := 24
  cmdPort : U16 := 30000
  gw4 : U32 := 0
  ip6 : BitVec 128 := 0
  prefix6 : Nat := 64
  weights : List Nat := [1, 1, 1, 1, 1, 1, 1]
  gw6 : BitVec 128 := 0
deriving DecidableEq, Repr, Inhabited

/-- R425: the deficit weighted round robin over queues 1 to 7: the queue whose turn it is (0 for queue 1), whether its quantum of this turn is still
to come, and what each queue may still send, bytes. -/
structure RoundRobin where
  turn : Nat := 0
  fresh : Bool := true
  deficit : List Nat := [0, 0, 0, 0, 0, 0, 0]
deriving DecidableEq, Repr, Inhabited

/-- Chapter 12: one Ethernet port; `q0` and `data` hold the frames queued on queue 0 and on queues 1 to 7, `q0Peak` the most bytes `q0` has held, `echoTimes` the clocks of the echo
replies of the last second, `wire` the frame that left last, from its Ethernet header on. -/
structure Port where
  cfg : PortCfg := {}
  link : Bool := false
  isolated : Bool := false
  q0 : List TxFrame := []
  q0Peak : Nat := 0
  data : List (Nat × TxFrame) := []
  robin : RoundRobin := {}
  wire : Option Bytes := none
  arp : List (U32 × U48) := []
  ndp : List (BitVec 128 × U48) := []
  txFrames : U64 := 0
  rxFrames : U64 := 0
  fecCorrected : U64 := 0
  fecUncorrected : U64 := 0
  rxDiscarded : U32 := 0
  rxCmdDropped : U32 := 0
  linkChanges : U32 := 0
  echoTimes : List Nat := []
deriving DecidableEq, Repr, Inhabited

/-- R447: the definition of a stream. -/
structure StreamCfg where
  kind : Nat
  port : Nat
  input : Nat
  queue : Nat
  dscp : Nat
  pcp : Nat
  v6 : Bool
  destPort : U16
  srcPort : U16
  leaseMs : Nat
  destIp : BitVec 128
  rateLimit : Nat
  lagPolicy : Nat
  vdifBits : Nat
  vdifShift : Nat
  vdifSpf : Nat
  vdifStation : Nat
  lagMs : Nat
deriving DecidableEq, Repr, Inhabited

/-- Chapter 12: one stream. The fields that end in `This` count in the present second; `recent` holds the clock and the bytes on the wire of the last
frame and of those of the last 100 µs, newest first, `ended` the CORE tick of the last stop and its end frame (R440). -/
structure Stream where
  cfg : Option StreamCfg := none
  owner : Fin 256 := 0
  running : Bool := false
  lastCause : Nat := 0
  framesSent : U64 := 0
  bytesSent : U64 := 0
  itemsSkipped : U64 := 0
  leaseUntil : Nat := 0
  resolved : Bool := false
  gap : Bool := false
  epoch : Nat := 0
  epochIndex : Nat := 0
  frameSeq : U32 := 0
  item : Option Nat := none
  itemPos : Nat := 0
  damage : List (Nat × Nat) := []
  lastItem : U32 := 0
  framesThis : U32 := 0
  bytesThis : U64 := 0
  skippedThis : U32 := 0
  flaggedThis : U32 := 0
  firstOffsetFs : BitVec 64 := 0
  rateNow : U32 := 0
  recent : List (Nat × Nat) := []
  ended : Option (Nat × Bytes) := none
  journal : Option Nat := none
deriving DecidableEq, Repr, Inhabited

/-- R252, R409, R430: a transfer of records. -/
structure Transfer where
  journal : Nat
  tenant : Fin 256
  archive : Bool
  channel : Nat
  port : Nat
  v6 : Bool
  destIp : BitVec 128
  destPort : U16
  resolved : Bool
  since : Nat
  records : List Nat
  damage : List (Nat × Nat) := []
  frameSeq : U32 := 0
  done : Nat := 0
deriving DecidableEq, Repr, Inhabited

/-! ## Drill and probes (chapter 15) -/

/-- R559: one entry of the Drill sequence. -/
structure DrillEntry where
  segment : Nat
  mark : Bool
  rep : Nat
deriving DecidableEq, Repr, Inhabited

/-- R559: the live settings of the Drill. -/
structure DrillCfg where
  rateDiv : Nat := 1
  strobePs : Nat := 800
  failAction : Nat := 0
  markOutput : Nat := 255
  sequence : List DrillEntry := [⟨0, false, 0⟩]
  lineEnable : U32 := 0
  loopCount : Nat := 1
deriving DecidableEq, Repr, Inhabited

/-- R561: the states of a Drill run. -/
inductive DrillState where
  | idle | waiting | playing | done | stoppedByFail | stoppedByCommand | aborted
deriving DecidableEq, Repr, Inhabited

/-- Chapter 15: the Drill. A segment is its length and the vectors written into it (others hold code 5 on every line). `pins` are the levels at
the strobes of the run; `played`, `compares`, `fails` and what they count stand at the vector the run was last brought up to. -/
structure Drill where
  segments : Assoc (Nat × Assoc (BitVec 96)) := []
  cfg : DrillCfg := {}
  state : DrillState := .idle
  runId : U32 := 0
  nextRunId : U32 := 0
  waitRoute : Option Nat := none
  waitOffsetNs : Nat := 0
  tStart : Vt96 := vtZero
  startTick : Nat := 0
  strobed : U64 := 0
  pins : List PinSample := []
  played : U64 := 0
  compares : U64 := 0
  fails : U64 := 0
  lineFails : List U32 := List.replicate 32 0
  failLog : List (Nat × Nat × U32) := []
  marksMerged : U32 := 0
  lateStarts : U32 := 0
  vdrillOk : Bool := true
deriving DecidableEq, Repr, Inhabited

/-- R563: one point of a ramp profile. -/
structure ProfilePoint where
  offset : Nat
  sweep : Bool
  freq : Nat
deriving DecidableEq, Repr, Inhabited

/-- R562: the live settings of a probe. -/
structure ProbeCfg where
  mode : Nat := 0
  syncEnable : BitVec 2 := 3
  level : Int := 0
  buffer : Nat := 0
  freq : Nat := 10000000000
  startVt : Vt96 := vtZero
  period : Nat := 0
deriving DecidableEq, Repr, Inhabited

/-- R563: a profile buffer: its length and its points by index. -/
structure ProfileBuffer where
  length : Nat := 0
  points : Assoc ProfilePoint := []
deriving DecidableEq, Repr, Inhabited

/-- Chapter 15: one probe synthesizer. `gate` holds the gate causes of R555 in the bit order of R564; `vco` is the range of VCO frequencies
the band was last searched for; of the last sync: its source, the clock of its decision and of T_s. `phase` is the phase in cycles at the
clock `phaseTick` (R552), `openPhase` the whole number of cycles at which the output last opened. -/
structure Probe where
  cfg : ProbeCfg := {}
  gate : BitVec 5 := 0x10
  opened : Bool := false
  locked : Bool := false
  phaseValid : Bool := false
  phasePending : Bool := false
  sweeping : Bool := false
  band : BitVec 7 := 0
  outDiv : Nat := 1024
  vco : Nat × Nat := (0, 0)
  lastSync : Vt96 := vtZero
  syncTick : Nat := 0
  syncDecided : Nat := 0
  syncSource : Nat := 0
  point : Nat := 0
  cycles : U64 := 0
  relocks : U16 := 0
  syncs : U32 := 0
  phase : Rat := 0
  phaseTick : Nat := 0
  openPhase : Int := 0
  buffers : Vector ProfileBuffer 2 := Vector.replicate 2 {}
deriving DecidableEq, Repr, Inhabited

/-! ## Test (chapter 16) -/

/-- R588: the waveform of a sheaf's test source. -/
structure TestSource where
  waveform : Nat := 0
  levelMv : Int := 0
  amplitudeMv : Nat := 0
  freq : Nat := 97656250000
  periodTicks : Nat := 625
  edgeOffsetPs : Nat := 0
deriving DecidableEq, Repr, Inhabited

/-- R591: the summary of one unit kind in a run. -/
structure TestSummary where
  tested : U16 := 0
  run : U32 := 0
  failed : U32 := 0
  skipped : U32 := 0
deriving DecidableEq, Repr, Inhabited

/-- R591: a self-test run. `fails` are the failed steps in order, `seen` the units tested, `badSlices` the channels of which a
slice that is not retired failed (R577), `opState` the operating state in which the run started. -/
structure TestRun where
  runId : U32
  sequence : Nat
  state : Nat := 0
  unitKind : Nat
  index : Nat
  journal : Nat
  startSec : U48
  startTick : Nat
  durationMs : U32 := 0
  stepsFailed : U32 := 0
  stopOnFail : Bool
  opState : Nat
  summaries : List TestSummary := List.replicate 13 {}
  fails : List TestStep := []
  seen : List (Nat × Nat) := []
  badSlices : List Nat := []
deriving DecidableEq, Repr, Inhabited

/-- Chapter 16: loop-backs (unit kind, index, depth), test sources, runs, isolated sheaves. -/
structure TestUnit where
  loops : List (Nat × Nat × Nat) := []
  sources : Vector TestSource 16 := Vector.replicate 16 {}
  runs : List TestRun := []
  active : Bool := false
  nextRunId : U32 := 0
  sheafIsolated : U16 := 0
deriving DecidableEq, Repr, Inhabited

/-! ## Power and housekeeping (chapter 17) -/

/-- R594: the operating states. -/
inductive OpState where
  | startUp | recovery | maintenance | service | powerFail
deriving DecidableEq, Repr, Inhabited

/-- R626: one entry of the housekeeping sequence. -/
structure HkEntry where
  input : Nat
  format : Nat
  a : Nat := 4
  enable : Bool := true
  low : U16
  high : U16
deriving DecidableEq, Repr, Inhabited

/-- R607, R609, R627: the result registers of one entry. -/
structure HkResult where
  result : U16 := 0
  alarmLow : Bool := false
  alarmHigh : Bool := false
  stale : Bool := true
  clipped : Bool := false
  updateCount : Byte := 0
  min : U16 := 0
  max : U16 := 0
  vt : BitVec 80 := 0
  outside : Nat := 0
  inside : Nat := 0
  raised : Bool := false
deriving DecidableEq, Repr, Inhabited

/-- R604: whether an input is differential. -/
def hkDifferential (i : Nat) : Bool :=
  i == 2 || i == 9 || (12 ≤ i && i ≤ 31) || i == 36 || i == 37 || i == 38

/-- R606: the default sequence; alarms at the code limits of the format. -/
def hkDefault (n : Nat) : HkEntry :=
  if hkDifferential n then { input := n, format := 3, low := 0x8000, high := 0x7FFF }
  else { input := n, format := 0, low := 0, high := 0x0FFF }

/-- R617: one power-fail report. -/
structure PfReport where
  complete : Bool := false
  cause : Nat
  prior : OpState
  holdupReady : Bool
  t : Vt96
  flushUs : U32 := 0xFFFFFFFF
  granaryUs : U32 := 0xFFFFFFFF
  mainDownUs : U32 := 0xFFFFFFFF
  endUs : U32 := 0xFFFFFFFF
  lastGeneration : U32
  lastCommitSec : U48
  holdupMs : U16
  sealed_ : U32 := 0
  freed : U32 := 0
  notStarted : U32 := 0
deriving DecidableEq, Repr, Inhabited

/-- R620, R623: the firmware slots. `blocks` are the blocks of the package in the inactive slot, `activation` says that a new firmware
has not yet brought the command core up since the clock `since`, `level` its activation level, `watchdogs` the clocks of its last watchdog restarts,
newest first. -/
structure Firmware where
  activeSlot : BitVec 1 := 0
  otherState : BitVec 2 := 0
  blocks : Assoc Bytes := []
  otherVersion : U32 := 0
  activeVersion : U32 := Config.fwVersion
  journal : Option Nat := none
  activation : Bool := false
  since : Nat := 0
  watchdogs : List Nat := []
  level : Nat := 0
deriving DecidableEq, Repr, Inhabited

/-- Chapter 17: power, reset, housekeeping. `released` tells that start-up has begun, `started` that it has ended (at `endedAt`),
`lateLock` that it ended without a locked root (R598); `culmPending` and `restartPending` are restarts that follow the response of a command;
`pfTick` and `pfSealed` are the clock and the number of sealed records at the start of the present power-fail handling;
`sensorLimit` and `sensorDiff` tell the plate sensors that are faulty (R603). -/
structure Power where
  opState : OpState := .startUp
  released : Bool := false
  culmUp : Bool := false
  started : Bool := false
  endedAt : Nat := 0
  lateLock : Bool := false
  pwrFailPin : Bool := false
  holdupReady : Bool := false
  mainOn : Bool := false
  thermalWarn : Bool := false
  restartPolicy : Bool := false
  updateCount : Byte := 0
  fullCause : BitVec 4 := 0
  culmCause : BitVec 4 := 0
  culmRestarts : Byte := 0
  culmPending : Option Nat := none
  restartPending : Option Nat := none
  holdupMs : U16 := 0
  holdupAt : Nat := 0
  bootCount : U32 := 0
  reports : List PfReport := []
  pfTick : Nat := 0
  pfSealed : Nat := 0
  restartTimes : List Nat := []
  autoService : Bool := false
  fw : Firmware := {}
  hkPeriod : Nat := 10
  hk : List HkEntry := (List.range 32).map hkDefault
  hkRes : Vector HkResult 32 := Vector.replicate 32 {}
  passCount : U32 := 0
  plate0 : Int := 0
  plate1 : Int := 0
  plate : Int := 0
  plateHigh : Int := 0
  sensorLimit : BitVec 2 := 0
  sensorDiff : Option Nat := none
  sheafTemps : List Int := []
  vinMv : U32 := 0
  iinMa : U32 := 0
  bladeRaised : Bool := false
  armingCaptures : BitVec 128 := 0
  armingStamps : BitVec 132 := 0
deriving DecidableEq, Repr, Inhabited

/-! ## The commit step -/

/-- R31 to R36: the commit step whose window has closed: the second, the accepted stages in order (tenant, command
sequence, journal index, staged commands), the management stage, whether it is armed; `relabel` tells that IRIG labels the second anew,
`labels` the old and new label of S once it has switched (R61). -/
structure CommitStep where
  second : U48
  stages : List (Fin 256 × U32 × Nat × List Instr)
  mgmt : List MgmtChange
  autoService : Bool
  armed : Bool
  relabel : Bool := false
  labels : Option (U48 × U48) := none
deriving DecidableEq, Repr, Inhabited

/-- R451: a response frame on its way out and the transport and source it answers. -/
structure Outgoing where
  dest : Source
  bytes : Bytes
deriving DecidableEq, Repr, Inhabited

/-- An event occurrence: its ID, payload, time, and the tenants it is offered to (R517). -/
structure Occurrence where
  id : Nat
  payload : Bytes
  vt : Vt96
  tsb : Byte
  generation : U32
  recips : List (Fin 256)
deriving DecidableEq, Repr, Inhabited

/-! ## Mailbox (chapter 13) -/

/-- R454, R455: the service-port rings and their registers. An index holds offset in bits [13:0] and wrap in bit 14.
`ram` holds the bytes of the three rings (window addresses 0x1_0000 to 0x1_BFFF), `evtWaiting` the tenants whose push waits for room. -/
structure Rings where
  cmdProd : BitVec 15 := 0
  cmdCons : BitVec 15 := 0
  rspProd : BitVec 15 := 0
  rspCons : BitVec 15 := 0
  evtProd : BitVec 15 := 0
  evtCons : BitVec 15 := 0
  cmdStalled : Bool := false
  cmdFrameError : Bool := false
  ringResets : Byte := 0
  ram : List Host.Cell := []
  cmdWaiting : List Instr := []
  rspWaiting : List Bytes := []
  evtWaiting : List (Fin 256) := []
  misoWord : U32 := 0
deriving DecidableEq, Repr, Inhabited

/-- Ownership of R500. -/
structure Ownership where
  channel : Vector (Fin 256) 128 := Vector.replicate 128 0
  engine : Vector (Fin 256) 512 := Vector.replicate 512 0
  route : Vector (Fin 256) 32 := Vector.replicate 32 0
  ti : Vector (Fin 256) 4 := Vector.replicate 4 0
  pages : Assoc Page := []
  swept : U64 := 0
deriving DecidableEq, Repr, Inhabited

/-- R36: the configuration of the generation before a switch whose commit record is not yet written. -/
structure Prior where
  labelShift : Int := 0
  holdoverForced : Bool
  cfg : TimebaseCfg
  leaps : List LeapEntry
  tenants : Vector Tenant 256
  own : Ownership
  chans : Vector Channel 128
  calCfg : CalCfg
  routes : Vector Route 32
  trigOuts : Vector TrigOut 4
  rachisCfg : RachisCfg
  rports : Vector RachisPort 4
  sources : Vector StampSource 132
  nodes : Vector Node 8
  insts : Assoc Instance
  dram : DramUnit
  winnow : Winnow
  jobs : Assoc Job
  scrubDays : Nat
  refreshBits : Nat
  ports : Vector Port 3
  streams : Vector Stream 128
  drillCfg : DrillCfg
  probes : Vector Probe 8
  loops : List (Nat × Nat × Nat)
  testSources : Vector TestSource 16
  sheafIsolated : U16
  restartPolicy : Bool
deriving DecidableEq, Repr, Inhabited

/-- R34, R36, R483, R488: journal, generation and commit record; `waiting` are the readbacks of R479, `outbox` the
occurrences raised and not yet placed in the queues, `stepEvents` those that enter after the commit record (R521),
`outgoing` the response frames on their way out; `genLog` the clock readings of the switches and the generations since, newest first, and
`genBase` the generation before the oldest of them. -/
structure Journal where
  entries : Assoc JournalEntry := []
  next : Nat := 0
  generation : U32 := 0
  recGeneration : U32 := 0
  recSecond : U48 := 0
  step : Option CommitStep := none
  awaiting : Bool := false
  switched : Option CommitStep := none
  prior : Option Prior := none
  waiting : List Instr := []
  outbox : List Occurrence := []
  stepEvents : List Occurrence := []
  outgoing : List Outgoing := []
  genLog : List (Nat × U32) := []
  genBase : U32 := 0
deriving DecidableEq, Repr, Inhabited

/-- Quench state of R443 and R444. -/
structure Quench where
  pin : Bool := false
  mgmt : Bool := false
  count : Byte := 0
deriving DecidableEq, Repr, Inhabited

/-! ## The state -/

/-- The tenants as delivered (R501). -/
def deliveredTenants : Vector Tenant 256 :=
  (Vector.replicate 256 ({} : Tenant)).set 0 stewardDelivered

/-- The state of the block. `pending` is the queue of waiting commands, `clock` the SLICE ticks since power-up,
`freeCtr` the model's own counter of free values (log entry 3). -/
structure State where
  pending : List Instr := []
  freeCtr : Nat := 0
  clock : Nat := 0
  time : TimeBase := {}
  rings : Rings := {}
  jr : Journal := {}
  tenants : Vector Tenant 256 := deliveredTenants
  own : Ownership := {}
  summary : Vector U32 48 := Vector.replicate 48 0
  chans : Vector Channel 128 := Vector.replicate 128 {}
  cal : Calibration := {}
  routes : Vector Route 32 := Vector.replicate 32 {}
  trigOuts : Vector TrigOut 4 := Vector.replicate 4 {}
  trigIns : Vector TrigIn 4 := Vector.replicate 4 {}
  tiller : Tiller := {}
  rachis : Rachis := {}
  rports : Vector RachisPort 4 := Vector.replicate 4 {}
  sources : Vector StampSource 132 := Vector.replicate 132 {}
  engines : Vector Engine 512 := Vector.replicate 512 {}
  nodes : Vector Node 8 := Vector.replicate 8 {}
  insts : Assoc Instance := []
  images : Assoc ImageSlot := []
  keys : Assoc (BitVec 256) := []
  dram : DramUnit := {}
  winnow : Winnow := {}
  granary : Granary := {}
  ports : Vector Port 3 := Vector.replicate 3 {}
  streams : Vector Stream 128 := Vector.replicate 128 {}
  transfers : List Transfer := []
  quench : Quench := {}
  drill : Drill := {}
  probes : Vector Probe 8 := Vector.replicate 8 {}
  test : TestUnit := {}
  power : Power := {}
deriving DecidableEq, Repr, Inhabited

/-- The block right after reset, before its start conditions have held (R597): every register at the value its table
gives, memory with nothing listed, values held in MRAM as delivered (log entry 6), and every register without a reset
value at zero (log entry 4). -/
def State.reset : State := {}

/-! ## How a step can stop -/

/-- Machine faults. No command of the spec stops the block: every error has a status, an event or a counter. The one
constructor is never raised and marks that. Safe. -/
inductive Fault where
  /-- Raised by nothing. Safe. -/
  | none
deriving DecidableEq, Repr, Inhabited

/-- Refusals by name. -/
inductive Refusal where
  /-- The command has no meaning in this model yet; raised by arms of `exec` only. Safe. -/
  | notModelled (mnemonic : String)
deriving DecidableEq, Repr, Inhabited

end Sys2Proof.Machine
end

