-- ==== Sys2Proof/Machine/Ops.lean ====
section
/-! DEFINITION. The named operations every command is written over: byte order, checksums, tables by number, byte
memories in canonical form, and time. -/

namespace Sys2Proof.Machine

/-! ## Bytes (R7) -/

/-- The low `n` bytes of `v`, little-endian. -/
def leBytes : Nat → Nat → Bytes
  | 0, _ => []
  | n + 1, v => BitVec.ofNat 8 v :: leBytes n (v / 256)

/-- The value of little-endian bytes. -/
def leNat : Bytes → Nat
  | [] => 0
  | b :: bs => b.toNat + 256 * leNat bs

/-- A two's-complement value in `n` bytes. -/
def leInt (n : Nat) (v : Int) : Bytes := leBytes n (v.emod ((2 : Int) ^ (8 * n))).toNat

/-- Read an unsigned `w`-bit number as two's complement. -/
def signed (w v : Nat) : Int := if v < 2 ^ (w - 1) then (v : Int) else (v : Int) - ((2 : Int) ^ w)

def zeros (n : Nat) : Bytes := List.replicate n 0

def w8 (v : Nat) : Bytes := leBytes 1 v
def w16 (v : Nat) : Bytes := leBytes 2 v
def w32 (v : Nat) : Bytes := leBytes 4 v
def w48 (v : Nat) : Bytes := leBytes 6 v
def w64 (v : Nat) : Bytes := leBytes 8 v

/-- Padding with zero bytes to a multiple of 8 (R455, R494). -/
def pad8 (bs : Bytes) : Bytes := bs ++ zeros ((8 - bs.length % 8) % 8)

def boolNat (b : Bool) : Nat := if b then 1 else 0

/-- A list of bytes cut into pieces of at most `n` bytes; at least one piece. -/
def chunks (n fuel : Nat) (bs : Bytes) : List Bytes :=
  match fuel with
  | 0 => [bs]
  | fuel + 1 => if bs.length ≤ n then [bs] else bs.take n :: chunks n fuel (bs.drop n)

/-! ## Checksums -/

/-- One bit of the reflected Castagnoli division (R459). -/
def crcBit (c : U32) : U32 := if c.getLsbD 0 then (c >>> 1) ^^^ 0x82F63B78 else c >>> 1

/-- One byte of the CRC-32C. -/
def crcByte (c : U32) (b : Byte) : U32 :=
  crcBit (crcBit (crcBit (crcBit (crcBit (crcBit (crcBit (crcBit (c ^^^ b.setWidth 32))))))))

/-- R459: CRC-32C. -/
def crc32c (bs : Bytes) : U32 := ~~~ (bs.foldl crcByte 0xFFFFFFFF)

/-! ## Tables by number -/

/-- The element at `i`; outside the table, the default. -/
def vget [Inhabited α] (v : Vector α n) (i : Nat) : α := v[i]?.getD default

/-- Replace the element at `i` by its image; outside the table nothing changes. -/
def vmod (v : Vector α n) (i : Nat) (f : α → α) : Vector α n :=
  if h : i < n then v.set i (f v[i]) else v

/-- Replace the element at `i`. -/
def vset (v : Vector α n) (i : Nat) (a : α) : Vector α n := vmod v i fun _ => a

/-- Apply `f` with the index to every element in turn. -/
def vmodAll (v : Vector α n) (f : Nat → α → α) : Vector α n :=
  (List.range n).foldl (fun v i => vmod v i (f i)) v

/-- The entry of a sparse table. -/
def aget : Assoc α → Nat → Option α
  | [], _ => none
  | (j, a) :: m, k => if j = k then some a else aget m k

/-- Write an entry of a sparse table, keys rising. -/
def aset : Assoc α → Nat → α → Assoc α
  | [], k, a => [(k, a)]
  | (j, b) :: m, k, a =>
    if k < j then (k, a) :: (j, b) :: m else if k = j then (k, a) :: m else (j, b) :: aset m k a

/-- Remove an entry. -/
def adel (m : Assoc α) (k : Nat) : Assoc α := m.filter fun e => !(e.1 == k)

/-- Change an entry that exists. -/
def amod (m : Assoc α) (k : Nat) (f : α → α) : Assoc α :=
  m.map fun e => if e.1 = k then (e.1, f e.2) else e

/-- Replace element `i` of a list. -/
def lmod : List α → Nat → (α → α) → List α
  | [], _, _ => []
  | a :: l, 0, f => f a :: l
  | a :: l, i + 1, f => a :: lmod l i f

/-- Write element `i` of a list. -/
def lset (l : List α) (i : Nat) (a : α) : List α := lmod l i fun _ => a

/-- The last `n` elements of a list. -/
def lastN (n : Nat) (l : List α) : List α := l.drop (l.length - n)

/-- Set or clear bit `i`. -/
def setBit (v : BitVec w) (i : Nat) (b : Bool) : BitVec w :=
  if b then v ||| (1#w <<< i) else v &&& ~~~ (1#w <<< i)

/-- The numbers whose bit is set. -/
def bitsOf (v : BitVec w) : List Nat := (List.range w).filter fun i => v.getLsbD i

/-- The word with the listed bits set. -/
def maskOf (w : Nat) (l : List Nat) : BitVec w := l.foldl (fun v i => v ||| (1#w <<< i)) 0

/-- Saturating increment. -/
def satInc (v : BitVec w) : BitVec w := if v = BitVec.allOnes w then v else v + 1

/-! ## Byte memories -/

/-- The canonical form: addresses strictly rising, no byte 0 listed (an unlisted byte reads 0, log entry 8). -/
def Memory.wf : List Host.Cell → Bool
  | [] => true
  | (_, b) :: [] => b != 0
  | (a, b) :: (a', b') :: m => b != 0 && decide (a < a') && Memory.wf ((a', b') :: m)

/-- One byte. -/
def memGet : List Host.Cell → Nat → Byte
  | [], _ => 0
  | (a, b) :: m, k => if a = k then b else memGet m k

/-- Write one byte. -/
def memSet : List Host.Cell → Nat → Byte → List Host.Cell
  | [], k, v => if v = 0 then [] else [(k, v)]
  | (a, b) :: m, k, v =>
    if k < a then (if v = 0 then (a, b) :: m else (k, v) :: (a, b) :: m)
    else if k = a then (if v = 0 then m else (k, v) :: m)
    else (a, b) :: memSet m k v

/-- Write bytes at ascending addresses. -/
def memWrite : List Host.Cell → Nat → Bytes → List Host.Cell
  | m, _, [] => m
  | m, k, b :: bs => memWrite (memSet m k b) (k + 1) bs

/-- Read `n` bytes at ascending addresses. -/
def memRead (m : List Host.Cell) (k : Nat) : Nat → Bytes
  | 0 => []
  | n + 1 => memGet m k :: memRead m (k + 1) n

/-! ## Time (R35, R54, R64 to R67) -/

/-- R35: SLICE ticks of one VT second. -/
def ticksPerSec : Nat := 625000000

/-- The fraction of tick `k` of a second, in units of 2⁻⁴⁸ s; the division rounds toward zero as in R255. -/
def fracOfTicks (k : Nat) : Nat := k * 2 ^ 48 / ticksPerSec

/-- A VT instant as a number of units of 2⁻⁴⁸ s. -/
def vtNat (v : Vt96) : Nat := v.sec.toNat * 2 ^ 48 + v.frac.toNat

/-- The VT instant of a number of units of 2⁻⁴⁸ s. -/
def vtOfNat (n : Nat) : Vt96 := ⟨BitVec.ofNat 48 (n / 2 ^ 48), BitVec.ofNat 48 n⟩

/-- A VT instant moved by a signed number of units. -/
def vtAdd (v : Vt96) (d : Int) : Vt96 := vtOfNat ((vtNat v : Int) + d).toNat

/-- `a - b` in units of 2⁻⁴⁸ s. -/
def vtSub (a b : Vt96) : Int := (vtNat a : Int) - (vtNat b : Int)

def vtLt (a b : Vt96) : Bool := decide (vtNat a < vtNat b)
def vtLe (a b : Vt96) : Bool := decide (vtNat a ≤ vtNat b)

/-- Start of a VT second. -/
def vtSecond (s : U48) : Vt96 := ⟨s, 0⟩

/-- R65. -/
def vt80 (v : Vt96) : BitVec 80 := v.frac.setWidth 80 ||| ((v.sec.setWidth 80 &&& 0xFFFFFFFF) <<< 48)

/-- R66. -/
def cs64 (v : Vt96) : U64 :=
  let f44 := (v.frac.toNat + 8) / 16
  let carry := f44 == 2 ^ 44
  let s := if carry then v.sec.toNat + 1 else v.sec.toNat
  BitVec.ofNat 64 ((s % 2 ^ 20) * 2 ^ 44 + if carry then 0 else f44)

/-- R67: the VT96 seconds whose low `w` bits are `low`, nearest `ref`. -/
def rebuild (ref low w : Nat) : Nat :=
  let span := 2 ^ w
  let cand := ref / span * span + low
  let d : Int := (cand : Int) - ref
  if d > (span / 2 : Nat) then ((cand : Int) - span).emod (2 ^ 48) |>.toNat
  else if d ≤ -((span / 2 : Nat) : Int) then (cand + span) % 2 ^ 48
  else cand

/-- R64. -/
def vt96Bytes (v : Vt96) : Bytes := w48 v.frac.toNat ++ w48 v.sec.toNat

def vt80Bytes (v : BitVec 80) : Bytes := leBytes 10 v.toNat

/-- A VT96 in a payload. -/
def vtOfBytes (bs : Bytes) : Vt96 := ⟨BitVec.ofNat 48 (leNat (bs.drop 6)), BitVec.ofNat 48 (leNat (bs.take 6))⟩

/-- Picoseconds, nanoseconds and femtoseconds in units of 2⁻⁴⁸ s, toward minus infinity. -/
def unitsOfFs (fs : Int) : Int := fs * 2 ^ 48 / 1000000000000000
def unitsOfPs (ps : Int) : Int := unitsOfFs (ps * 1000)
def unitsOfNs (ns : Int) : Int := unitsOfFs (ns * 1000000)

/-- A span in units of 2⁻⁴⁸ s is at least so many ps, ns. -/
def atLeastPs (d : Int) (ps : Nat) : Bool := decide (((ps * 2 ^ 48 : Nat) : Int) ≤ d * 1000000000000)
def atLeastNs (d : Int) (ns : Nat) : Bool := decide (((ns * 2 ^ 48 : Nat) : Int) ≤ d * 1000000000)

/-- SLICE ticks of a time in nanoseconds, rounded up. -/
def ticksOfNs (ns : Nat) : Nat := (ns * 5 + 7) / 8

/-- SLICE ticks of a time in milliseconds. -/
def ticksOfMs (ms : Nat) : Nat := ms * 625000

/-- SLICE ticks of a time in microseconds. -/
def ticksOfUs (us : Nat) : Nat := us * 625

/-- Ticks since the start of the present VT second. The second ends with the command VT_SECOND_BOUNDARY (log entry 2). -/
def State.tickInSec (s : State) : Nat := min (s.clock - s.time.secStart) (ticksPerSec - 1)

/-- The VT now, to the SLICE tick. -/
def State.now (s : State) : Vt96 := ⟨s.time.vtSec, BitVec.ofNat 48 (fracOfTicks s.tickInSec)⟩

/-- R54: the VT now on the CORE tick. -/
def State.coreNow (s : State) : Vt96 := ⟨s.time.vtSec, BitVec.ofNat 48 (fracOfTicks (s.tickInSec / 2 * 2))⟩

/-- The VT of a clock reading, under the present labels. -/
def State.vtOfTick (s : State) (tick : Nat) : Vt96 :=
  let total : Int := (s.time.vtSec.toNat * ticksPerSec : Nat) + (tick : Int) - s.time.secStart
  ⟨BitVec.ofInt 48 (total / ticksPerSec), BitVec.ofNat 48 (fracOfTicks (total % ticksPerSec).toNat)⟩

/-- The first clock reading at or after a VT instant, under the present labels. -/
def State.tickOfVt (s : State) (v : Vt96) : Nat :=
  let total : Int := ((v.sec.toNat : Int) - s.time.vtSec.toNat) * ticksPerSec
    + ((v.frac.toNat * ticksPerSec + 2 ^ 48 - 1) / 2 ^ 48 : Nat) + s.time.secStart
  total.toNat

/-- R161: the SLICE tick that holds a tag, counted from the epoch; the tag of a tick lies in that tick. -/
def tickOfTag (v : Vt96) : Nat := v.sec.toNat * ticksPerSec + ((v.frac.toNat + 1) * ticksPerSec - 1) / 2 ^ 48

/-- The VT tick at which the clock read 0, under the present labels. -/
def State.vtBase (s : State) : Int := ((s.time.vtSec.toNat * ticksPerSec : Nat) : Int) - s.time.secStart

/-- The clock reading of the tick that holds a VT instant, under the present labels. -/
def State.tickHolding (s : State) (v : Vt96) : Nat := ((tickOfTag v : Int) - s.vtBase).toNat

/-- R53: the CORE tick of a clock reading: CORE ticks are pairs of SLICE ticks from the start of the VT second on. -/
def State.coreOf (s : State) (tick : Nat) : Nat := (tick + s.time.secStart % 2) / 2

/-- R53: the clock reading at which a CORE tick begins. -/
def State.coreClock (s : State) (core : Nat) : Nat := 2 * core - s.time.secStart % 2

/-- A command happens at clock reading `t`; the clock does not run back. -/
def State.advance (s : State) (t : Nat) : State := { s with clock := max s.clock t }

/-- Take a free value (log entry 3). -/
def State.free (s : State) : BitVec 64 × State := (Config.freeValue s.freeCtr, { s with freeCtr := s.freeCtr + 1 })

/-! ## Numbering (R4, R16, R20, R21) -/

def sheafOf (c : Nat) : Nat := c / 8
def stookOf (c : Nat) : Nat := c / 16
def engineSheaf (e : Nat) : Nat := e / 32
def engineNode (e : Nat) : Nat := e / 4 % 8

/-- The owner of a channel, an engine, a route, a timing input. -/
def State.chanOwner (s : State) (c : Nat) : Nat := (vget s.own.channel c).val
def State.engineOwner (s : State) (e : Nat) : Nat := (vget s.own.engine e).val
def State.routeOwner (s : State) (r : Nat) : Nat := (vget s.own.route r).val
def State.tiOwner (s : State) (i : Nat) : Nat := (vget s.own.ti i).val

/-- The owner of a stamp source: 0 to 127 channels, 128 to 131 timing inputs. -/
def State.sourceOwner (s : State) (i : Nat) : Nat := if i < 128 then s.chanOwner i else s.tiOwner (i - 128)

/-- The result ring of an instance number. -/
def resultRing (n : Nat) : RingId := .results (Fin.ofNat 1024 n)

/-- A tenant number in its range. -/
def ten (n : Nat) : Fin 256 := Fin.ofNat 256 n

/-! ## Updates of one unit -/

def State.modTime (s : State) (f : TimeBase → TimeBase) : State := { s with time := f s.time }
def State.modJr (s : State) (f : Journal → Journal) : State := { s with jr := f s.jr }
def State.modRings (s : State) (f : Rings → Rings) : State := { s with rings := f s.rings }
def State.modTenant (s : State) (i : Nat) (f : Tenant → Tenant) : State := { s with tenants := vmod s.tenants i f }
def State.modChan (s : State) (i : Nat) (f : Channel → Channel) : State := { s with chans := vmod s.chans i f }
def State.modRoute (s : State) (i : Nat) (f : Route → Route) : State := { s with routes := vmod s.routes i f }
def State.modSource (s : State) (i : Nat) (f : StampSource → StampSource) : State :=
  { s with sources := vmod s.sources i f }
def State.modLane (s : State) (i j : Nat) (f : Lane → Lane) : State :=
  s.modSource i fun x => { x with lanes := vmod x.lanes j f }
def State.modEngine (s : State) (i : Nat) (f : Engine → Engine) : State := { s with engines := vmod s.engines i f }
def State.modInst (s : State) (i : Nat) (f : Instance → Instance) : State := { s with insts := amod s.insts i f }
def State.modDram (s : State) (k : Nat) (f : Dram → Dram) : State :=
  { s with dram := { s.dram with ctrl := vmod s.dram.ctrl k f } }
def State.modCassette (s : State) (k : Nat) (f : Cassette → Cassette) : State :=
  { s with granary := { s.granary with cassettes := vmod s.granary.cassettes k f } }
def State.modDie (s : State) (k : Nat) (f : Die → Die) : State :=
  { s with granary := { s.granary with dies := vmod s.granary.dies k f } }
def State.modJob (s : State) (k : Nat) (f : Job → Job) : State :=
  { s with granary := { s.granary with jobs := amod s.granary.jobs k f } }
def State.modPort (s : State) (k : Nat) (f : Port → Port) : State := { s with ports := vmod s.ports k f }
def State.modStream (s : State) (k : Nat) (f : Stream → Stream) : State := { s with streams := vmod s.streams k f }
def State.modRport (s : State) (k : Nat) (f : RachisPort → RachisPort) : State := { s with rports := vmod s.rports k f }
def State.modRachis (s : State) (f : Rachis → Rachis) : State := { s with rachis := f s.rachis }
def State.modProbe (s : State) (k : Nat) (f : Probe → Probe) : State := { s with probes := vmod s.probes k f }
def State.modPower (s : State) (f : Power → Power) : State := { s with power := f s.power }
def State.modCal (s : State) (f : Calibration → Calibration) : State := { s with cal := f s.cal }
def State.modTiller (s : State) (f : Tiller → Tiller) : State := { s with tiller := f s.tiller }
def State.modDrill (s : State) (f : Drill → Drill) : State := { s with drill := f s.drill }
def State.modWinnow (s : State) (f : Winnow → Winnow) : State := { s with winnow := f s.winnow }
def State.modGranary (s : State) (f : Granary → Granary) : State := { s with granary := f s.granary }
def State.modTrigOut (s : State) (i : Nat) (f : TrigOut → TrigOut) : State := { s with trigOuts := vmod s.trigOuts i f }
def State.modTest (s : State) (f : TestUnit → TestUnit) : State := { s with test := f s.test }

def State.tenant (s : State) (i : Nat) : Tenant := vget s.tenants i
def State.chan (s : State) (i : Nat) : Channel := vget s.chans i
def State.source (s : State) (i : Nat) : StampSource := vget s.sources i
def State.engine (s : State) (i : Nat) : Engine := vget s.engines i
def State.ctrl (s : State) (k : Nat) : Dram := vget s.dram.ctrl k
def State.port (s : State) (k : Nat) : Port := vget s.ports k
def State.stream (s : State) (k : Nat) : Stream := vget s.streams k
def State.cassette (s : State) (k : Nat) : Cassette := vget s.granary.cassettes k
def State.rport (s : State) (k : Nat) : RachisPort := vget s.rports k
def State.probe (s : State) (k : Nat) : Probe := vget s.probes k
def State.routeN (s : State) (k : Nat) : Route := vget s.routes k

/-- R140: the kind bit of a change of the management plane. -/
def MgmtChange.bit : MgmtChange → Nat
  | .coefficients _ _ _ => 0 | .handover _ => 1 | .runResult _ => 2 | .substitute _ _ => 3 | .awnTables _ _ _ _ => 5
  | .setFallback _ => 6

def MgmtChange.channel : MgmtChange → Option Nat
  | .coefficients c _ _ => some c.val
  | .handover c => some c.val
  | .runResult c => some c.val
  | .substitute c _ => some c.val
  | .awnTables i _ _ _ => if i.val < 128 then some i.val else none
  | .setFallback c => some c.val

/-- Two changes of one kind to one thing: the later takes the place of the earlier. -/
def MgmtChange.same : MgmtChange → MgmtChange → Bool
  | .coefficients a _ _, .coefficients b _ _ => a == b
  | .runResult a, .runResult b => a == b
  | .handover a, .handover b => a == b
  | .substitute a i, .substitute b j => a == b && i == j
  | .awnTables a i _ _, .awnTables b j _ _ => a == b && i == j
  | .setFallback a, .setFallback b => a == b
  | _, _ => false

/-- R32, R138: a change enters the management plane's stage. -/
def State.stageMgmt (s : State) (m : MgmtChange) : State :=
  s.modCal fun k => { k with staged := (k.staged.filter fun e => !e.same m) ++ [m] }

/-- Changes that a step could not make stay staged for the next, but for handovers, which are decided anew (DESIGN CHOICE, log entry 48). -/
def State.restageMgmt (s : State) (l : List MgmtChange) : State :=
  s.modCal fun k => { k with staged := (l.filter fun m => m.bit != 1 && !k.staged.any fun e => e.same m) ++ k.staged }

/-- R275: the open gates of instances are cut at an instant (units of 2⁻⁴⁸ s). -/
def State.cutGates (s : State) (which : Instance → Bool) (at_ : Nat) : State :=
  { s with insts := s.insts.map fun e =>
      if e.2.mode = 1 && which e.2 then (e.1, { e.2 with cursor := { e.2.cursor with cuts := e.2.cursor.cuts ++ [at_] } }) else e }

/-- Whether an instance has a channel, or another stamp source, as an input (R292). -/
def Instance.readsSource (x : Instance) (i : Nat) : Bool := x.inputs.any fun e => e.kind != 4 && e.index == i

/-- Apply a state change for each number of a list in turn. -/
def State.each (s : State) (l : List α) (f : State → α → State) : State := l.foldl f s

end Sys2Proof.Machine
end

