-- ==== Sys2Proof/Machine/Units.lean ====
section
/-! DEFINITION. The units of tests, loop-backs and isolation (R565, R566, R582): which are isolated, out of use, looped. -/

namespace Sys2Proof.Machine

/-- R582: a channel or its sheaf is isolated. -/
def State.chanIsolated (s : State) (c : Nat) : Bool := (s.chan c).isolated || s.test.sheafIsolated.getLsbD (sheafOf c)

/-- R582: the sheaf of a timing input is isolated. -/
def State.tiIsolated (s : State) (i : Nat) : Bool := s.test.sheafIsolated.getLsbD (if i < 2 then 0 else 15)

/-- R582: a stamp source is isolated with its channel or sheaf. -/
def State.sourceIsolated (s : State) (i : Nat) : Bool := if i < 128 then s.chanIsolated i else s.tiIsolated (i - 128)

/-- R40, R582: a node is isolated, by command or by its fault. -/
def State.nodeOut (s : State) (n : Nat) : Bool := (vget s.nodes n).failed || (vget s.nodes n).isolated

/-- R565: the units of a kind. -/
def unitCount (kind : Nat) : Nat := ([128, 1152, 132, 16, 8, 512, 8, 4, 16, 2, 4, 1, 8][kind]?).getD 0

/-- R565: whether a unit is out of use. -/
def State.outOfUse (s : State) (kind i : Nat) : Bool :=
  match kind with
  | 0 => s.chanIsolated i
  | 1 => (s.chan (i / 9)).retired.map (·.val) == some (i % 9) || s.chanIsolated (i / 9)
  | 2 => if i < 128 then s.chanIsolated i else !(s.source i).ti.enable
  | 3 => s.test.sheafIsolated.getLsbD i
  | 4 => s.nodeOut i
  | 5 => (s.engine i).retired || s.nodeOut (engineNode i) || s.test.sheafIsolated.getLsbD (engineSheaf i)
      || (s.engineOwner i == 0 && !(s.engine i).running.isSome && !s.insts.any fun x => x.2.state == 1 && x.2.engines.contains i)
  | 6 => (s.ctrl i).state == .isolated || (s.ctrl i).state == .failed
  | 7 => (vget s.winnow.lanes i).state != .inService
  | 8 => (s.cassette (i / 8)).state == .unformatted || (s.cassette (i / 8)).state == .failed
  | 9 => (s.port i).isolated
  | 10 => (s.rport i).isolated || !s.rachis.cfg.portEnable.getLsbD i
  | 11 => !(s.drill.state == .waiting || s.drill.state == .playing)
  | 12 => (s.probe i).cfg.mode == 0
  | _ => false

/-- R566: whether a loop-back, a test source or a self-test may act on a unit. -/
def State.testable (s : State) (kind i : Nat) : Bool :=
  s.outOfUse kind i || (s.power.opState == .maintenance && kind != 6)

/-- R566, R569: the loop-back that acts on a unit; 0 none. -/
def State.loopDepth (s : State) (kind i : Nat) : Nat :=
  match s.test.loops.find? fun l => l.1 == kind && l.2.1 == i with
  | some l => if s.testable kind i then l.2.2 else 0
  | none => 0

/-- R567: a looped unit, whose output reaches nothing. -/
def State.looped (s : State) (kind i : Nat) : Bool := s.loopDepth kind i != 0

end Sys2Proof.Machine
end

