-- ==== Sys2Proof/Machine/Operands.lean ====
section
/-! DEFINITION. The operands of commands: the fields of a payload, the checks of acceptance step 9, what a command
answers, and the opcodes. -/

namespace Sys2Proof.Machine

/-! ## Fields of a payload -/

/-- The bytes of a payload from an offset. -/
def part (p : Bytes) (off len : Nat) : Bytes := (p.drop off).take len

def p8 (p : Bytes) (off : Nat) : Nat := leNat (part p off 1)
def p16 (p : Bytes) (off : Nat) : Nat := leNat (part p off 2)
def p32 (p : Bytes) (off : Nat) : Nat := leNat (part p off 4)
def p48 (p : Bytes) (off : Nat) : Nat := leNat (part p off 6)
def p64 (p : Bytes) (off : Nat) : Nat := leNat (part p off 8)
def s8 (p : Bytes) (off : Nat) : Int := signed 8 (p8 p off)
def s16 (p : Bytes) (off : Nat) : Int := signed 16 (p16 p off)
def s32 (p : Bytes) (off : Nat) : Int := signed 32 (p32 p off)
def s64 (p : Bytes) (off : Nat) : Int := signed 64 (p64 p off)
def vtAt (p : Bytes) (off : Nat) : Vt96 := vtOfBytes (part p off 12)

/-- A mask of `len` bytes in which bit i of byte j stands for number 8 × j + i. -/
def maskAt (w : Nat) (p : Bytes) (off len : Nat) : BitVec w := BitVec.ofNat w (leNat (part p off len))

/-- Whether the bytes are zero (R10). -/
def zeroAt (p : Bytes) (off len : Nat) : Bool := (part p off len).all (· == 0)

/-! ## Answers -/

/-- What executing a command answers. -/
structure Reply where
  status : Status := .done
  payload : Bytes := []
  journal : Option Nat := none
  detail : Nat := 0
deriving DecidableEq, Repr, Inhabited

/-- A command's outcome: refused with an answer, changing nothing (R463), or executed. -/
abbrev Outcome := Except Reply (Reply × State)

def refuse (st : Status) : Reply := { status := st }

/-- R460: ST_BAD_PARAM at a payload offset; 0xFFFF for a header field. -/
def badParam (off : Nat) : Reply := { status := .badParam, detail := off }

/-- The offset that stands for a header field. -/
def headerField : Nat := 0xFFFF

def require (ok : Bool) (r : Reply) : Except Reply Unit := if ok then .ok () else .error r

/-- R463 step 9: the fields in the order listed; the first refused decides. -/
def fields : List (Nat × Bool) → Except Reply Unit
  | [] => .ok ()
  | (off, ok) :: l => if ok then fields l else .error (badParam off)

/-- R463 step 9: payload_len against the layout, then the fields. -/
def layout (p : Bytes) (len : Nat) (l : List (Nat × Bool)) : Except Reply Unit :=
  if p.length = len then fields l else .error (badParam headerField)

/-- The numeric code of a status. -/
def Status.code : Status → Nat
  | .done => 0x00 | .scheduled => 0x01 | .part => 0x02 | .badFrame => 0x10 | .badOpcode => 0x11 | .badParam => 0x12
  | .noRights => 0x13 | .busy => 0x14 | .late => 0x15 | .invalidTime => 0x16 | .exhausted => 0x17 | .duplicate => 0x18
  | .gap => 0x19 | .notOwnerState => 0x1A | .fault => 0x20 | .degraded => 0x21

/-- The flags of a command frame (R458). -/
def ackReq (f : Frame) : Bool := f.flags.getLsbD 0
def asap (f : Frame) : Bool := f.flags.getLsbD 1
def dryRun (f : Frame) : Bool := f.flags.getLsbD 2
def wantsSnapshot (f : Frame) : Bool := f.flags.getLsbD 3

/-- R458: the bytes of a command frame before its CRC. -/
def frameBytes (opcode : Nat) (f : Frame) : Bytes :=
  w16 opcode ++ w8 f.tenant.val ++ w8 f.flags.toNat ++ w32 f.seq.toNat ++ w32 f.target.toNat
    ++ w16 f.payload.length ++ w16 0 ++ f.payload

/-! ## Opcodes (R499) -/

/-- R499: the opcode and the frame of a command that arrives in a frame; none for the other commands of the table. -/
def hostCommand : Instr → Option (Nat × Frame)
  | .hello f => some (0x0101, f)
  | .commitAt f => some (0x0102, f)
  | .commitCancel f => some (0x0103, f)
  | .stageDiscard f => some (0x0104, f)
  | .stageGet f => some (0x0105, f)
  | .journalQuery f => some (0x0106, f)
  | .journalList f => some (0x0107, f)
  | .responseReplay f => some (0x0108, f)
  | .identityGet f => some (0x0109, f)
  | .timeGet f => some (0x0201, f)
  | .timebaseConfig f => some (0x0202, f)
  | .timeSet f => some (0x0203, f)
  | .leapSchedule f => some (0x0204, f)
  | .timeAlign f => some (0x0205, f)
  | .timeConvert f => some (0x0206, f)
  | .holdoverForce f => some (0x0207, f)
  | .leapTableGet f => some (0x0208, f)
  | .channelConfig f => some (0x0301, f)
  | .comparatorConfig f => some (0x0302, f)
  | .channelStatusGet f => some (0x0303, f)
  | .delayTableGet f => some (0x0304, f)
  | .rotationConfig f => some (0x0305, f)
  | .sliceSubstitute f => some (0x0306, f)
  | .calConfig f => some (0x0401, f)
  | .calChannelConfig f => some (0x0402, f)
  | .calRun f => some (0x0403, f)
  | .calStatusGet f => some (0x0404, f)
  | .calSetGet f => some (0x0405, f)
  | .calLogGet f => some (0x0406, f)
  | .triggerRouteConfig f => some (0x0501, f)
  | .armTrigger f => some (0x0502, f)
  | .softTrigger f => some (0x0503, f)
  | .triggerStatusGet f => some (0x0504, f)
  | .trigOutConfig f => some (0x0505, f)
  | .routeAssign f => some (0x0506, f)
  | .tillerLoad f => some (0x0507, f)
  | .tillerControl f => some (0x0508, f)
  | .rachisConfig f => some (0x0509, f)
  | .rachisStatusGet f => some (0x050A, f)
  | .rachisSend f => some (0x050B, f)
  | .rachisQuench f => some (0x050C, f)
  | .captureConfig f => some (0x0601, f)
  | .reductionConfig f => some (0x0602, f)
  | .accumConfig f => some (0x0603, f)
  | .armCapture f => some (0x0604, f)
  | .captureStatusGet f => some (0x0605, f)
  | .recordFetch f => some (0x0606, f)
  | .stampConfig f => some (0x0701, f)
  | .tiConfig f => some (0x0702, f)
  | .armStamps f => some (0x0703, f)
  | .awnStatusGet f => some (0x0704, f)
  | .measureConfig f => some (0x0705, f)
  | .engineAssign f => some (0x0801, f)
  | .imageLoad f => some (0x0802, f)
  | .imageVerify f => some (0x0803, f)
  | .imageDelete f => some (0x0804, f)
  | .reducerConfig f => some (0x0805, f)
  | .engineStatusGet f => some (0x0806, f)
  | .reducerStatusGet f => some (0x0807, f)
  | .engineKeyEnroll f => some (0x0808, f)
  | .engineRestore f => some (0x0809, f)
  | .imageList f => some (0x080A, f)
  | .dramStatusGet f => some (0x0901, f)
  | .dramPortStatsGet f => some (0x0902, f)
  | .dramQosConfig f => some (0x0903, f)
  | .dramConfig f => some (0x0904, f)
  | .dramMapConfig f => some (0x0905, f)
  | .dramIsolate f => some (0x0906, f)
  | .dramErrorLogGet f => some (0x0907, f)
  | .winnowConfig f => some (0x0A01, f)
  | .winnowFlush f => some (0x0A02, f)
  | .winnowStatusGet f => some (0x0A03, f)
  | .granaryStatusGet f => some (0x0B01, f)
  | .archiveJobConfig f => some (0x0B02, f)
  | .archiveRead f => some (0x0B03, f)
  | .archiveList f => some (0x0B04, f)
  | .archiveRetain f => some (0x0B05, f)
  | .damageListGet f => some (0x0B06, f)
  | .gleanConfig f => some (0x0B07, f)
  | .cassetteFormat f => some (0x0B08, f)
  | .cassetteEvacuate f => some (0x0B09, f)
  | .cassetteRetire f => some (0x0B0A, f)
  | .portConfig f => some (0x0C01, f)
  | .portStatusGet f => some (0x0C02, f)
  | .streamConfig f => some (0x0C03, f)
  | .streamStart f => some (0x0C04, f)
  | .streamStop f => some (0x0C05, f)
  | .streamLeaseRenew f => some (0x0C06, f)
  | .streamStatusGet f => some (0x0C07, f)
  | .quench f => some (0x0C08, f)
  | .tenantConfig f => some (0x0D01, f)
  | .tenantStatusGet f => some (0x0D02, f)
  | .channelAssign f => some (0x0D03, f)
  | .pageGrant f => some (0x0D04, f)
  | .eventSubscribe f => some (0x0D05, f)
  | .eventAck f => some (0x0D06, f)
  | .eventQuery f => some (0x0D07, f)
  | .sweepStatusGet f => some (0x0D08, f)
  | .drillSegmentLoad f => some (0x0E01, f)
  | .drillConfig f => some (0x0E02, f)
  | .drillControl f => some (0x0E03, f)
  | .drillStatusGet f => some (0x0E04, f)
  | .probeConfig f => some (0x0E05, f)
  | .probeProfileLoad f => some (0x0E06, f)
  | .probeStatusGet f => some (0x0E07, f)
  | .loopbackSet f => some (0x0F01, f)
  | .selfTestRun f => some (0x0F02, f)
  | .testResultGet f => some (0x0F03, f)
  | .unitIsolate f => some (0x0F04, f)
  | .testSourceConfig f => some (0x0F05, f)
  | .powerStatusGet f => some (0x1001, f)
  | .housekeepingConfig f => some (0x1002, f)
  | .housekeepingGet f => some (0x1003, f)
  | .operatingStateSet f => some (0x1004, f)
  | .powerFailReportGet f => some (0x1005, f)
  | .firmwareLoad f => some (0x1006, f)
  | .firmwareActivate f => some (0x1007, f)
  | .moduleReset f => some (0x1008, f)
  | _ => none

/-- R499: the command of an opcode. -/
def ofOpcode (op : Nat) (f : Frame) : Option Instr :=
  match op with
  | 0x0101 => some (.hello f)
  | 0x0102 => some (.commitAt f)
  | 0x0103 => some (.commitCancel f)
  | 0x0104 => some (.stageDiscard f)
  | 0x0105 => some (.stageGet f)
  | 0x0106 => some (.journalQuery f)
  | 0x0107 => some (.journalList f)
  | 0x0108 => some (.responseReplay f)
  | 0x0109 => some (.identityGet f)
  | 0x0201 => some (.timeGet f)
  | 0x0202 => some (.timebaseConfig f)
  | 0x0203 => some (.timeSet f)
  | 0x0204 => some (.leapSchedule f)
  | 0x0205 => some (.timeAlign f)
  | 0x0206 => some (.timeConvert f)
  | 0x0207 => some (.holdoverForce f)
  | 0x0208 => some (.leapTableGet f)
  | 0x0301 => some (.channelConfig f)
  | 0x0302 => some (.comparatorConfig f)
  | 0x0303 => some (.channelStatusGet f)
  | 0x0304 => some (.delayTableGet f)
  | 0x0305 => some (.rotationConfig f)
  | 0x0306 => some (.sliceSubstitute f)
  | 0x0401 => some (.calConfig f)
  | 0x0402 => some (.calChannelConfig f)
  | 0x0403 => some (.calRun f)
  | 0x0404 => some (.calStatusGet f)
  | 0x0405 => some (.calSetGet f)
  | 0x0406 => some (.calLogGet f)
  | 0x0501 => some (.triggerRouteConfig f)
  | 0x0502 => some (.armTrigger f)
  | 0x0503 => some (.softTrigger f)
  | 0x0504 => some (.triggerStatusGet f)
  | 0x0505 => some (.trigOutConfig f)
  | 0x0506 => some (.routeAssign f)
  | 0x0507 => some (.tillerLoad f)
  | 0x0508 => some (.tillerControl f)
  | 0x0509 => some (.rachisConfig f)
  | 0x050A => some (.rachisStatusGet f)
  | 0x050B => some (.rachisSend f)
  | 0x050C => some (.rachisQuench f)
  | 0x0601 => some (.captureConfig f)
  | 0x0602 => some (.reductionConfig f)
  | 0x0603 => some (.accumConfig f)
  | 0x0604 => some (.armCapture f)
  | 0x0605 => some (.captureStatusGet f)
  | 0x0606 => some (.recordFetch f)
  | 0x0701 => some (.stampConfig f)
  | 0x0702 => some (.tiConfig f)
  | 0x0703 => some (.armStamps f)
  | 0x0704 => some (.awnStatusGet f)
  | 0x0705 => some (.measureConfig f)
  | 0x0801 => some (.engineAssign f)
  | 0x0802 => some (.imageLoad f)
  | 0x0803 => some (.imageVerify f)
  | 0x0804 => some (.imageDelete f)
  | 0x0805 => some (.reducerConfig f)
  | 0x0806 => some (.engineStatusGet f)
  | 0x0807 => some (.reducerStatusGet f)
  | 0x0808 => some (.engineKeyEnroll f)
  | 0x0809 => some (.engineRestore f)
  | 0x080A => some (.imageList f)
  | 0x0901 => some (.dramStatusGet f)
  | 0x0902 => some (.dramPortStatsGet f)
  | 0x0903 => some (.dramQosConfig f)
  | 0x0904 => some (.dramConfig f)
  | 0x0905 => some (.dramMapConfig f)
  | 0x0906 => some (.dramIsolate f)
  | 0x0907 => some (.dramErrorLogGet f)
  | 0x0A01 => some (.winnowConfig f)
  | 0x0A02 => some (.winnowFlush f)
  | 0x0A03 => some (.winnowStatusGet f)
  | 0x0B01 => some (.granaryStatusGet f)
  | 0x0B02 => some (.archiveJobConfig f)
  | 0x0B03 => some (.archiveRead f)
  | 0x0B04 => some (.archiveList f)
  | 0x0B05 => some (.archiveRetain f)
  | 0x0B06 => some (.damageListGet f)
  | 0x0B07 => some (.gleanConfig f)
  | 0x0B08 => some (.cassetteFormat f)
  | 0x0B09 => some (.cassetteEvacuate f)
  | 0x0B0A => some (.cassetteRetire f)
  | 0x0C01 => some (.portConfig f)
  | 0x0C02 => some (.portStatusGet f)
  | 0x0C03 => some (.streamConfig f)
  | 0x0C04 => some (.streamStart f)
  | 0x0C05 => some (.streamStop f)
  | 0x0C06 => some (.streamLeaseRenew f)
  | 0x0C07 => some (.streamStatusGet f)
  | 0x0C08 => some (.quench f)
  | 0x0D01 => some (.tenantConfig f)
  | 0x0D02 => some (.tenantStatusGet f)
  | 0x0D03 => some (.channelAssign f)
  | 0x0D04 => some (.pageGrant f)
  | 0x0D05 => some (.eventSubscribe f)
  | 0x0D06 => some (.eventAck f)
  | 0x0D07 => some (.eventQuery f)
  | 0x0D08 => some (.sweepStatusGet f)
  | 0x0E01 => some (.drillSegmentLoad f)
  | 0x0E02 => some (.drillConfig f)
  | 0x0E03 => some (.drillControl f)
  | 0x0E04 => some (.drillStatusGet f)
  | 0x0E05 => some (.probeConfig f)
  | 0x0E06 => some (.probeProfileLoad f)
  | 0x0E07 => some (.probeStatusGet f)
  | 0x0F01 => some (.loopbackSet f)
  | 0x0F02 => some (.selfTestRun f)
  | 0x0F03 => some (.testResultGet f)
  | 0x0F04 => some (.unitIsolate f)
  | 0x0F05 => some (.testSourceConfig f)
  | 0x1001 => some (.powerStatusGet f)
  | 0x1002 => some (.housekeepingConfig f)
  | 0x1003 => some (.housekeepingGet f)
  | 0x1004 => some (.operatingStateSet f)
  | 0x1005 => some (.powerFailReportGet f)
  | 0x1006 => some (.firmwareLoad f)
  | 0x1007 => some (.firmwareActivate f)
  | 0x1008 => some (.moduleReset f)
  | _ => none

/-- The opcode of a command, 0 where it has none. -/
def opcodeOf (i : Instr) : Nat := ((hostCommand i).map (·.1)).getD 0

/-- The payload of a command. -/
def payloadOf (i : Instr) : Bytes := ((hostCommand i).map (·.2.payload)).getD []

/-- The command sequence of a command. -/
def seqOf (i : Instr) : U32 := ((hostCommand i).map (·.2.seq)).getD 0

end Sys2Proof.Machine
end

