-- ==== Sys2Proof/Machine/Ed25519.lean ====
section
/-! DEFINITION. Ed25519 as published in RFC 8032, pure form, no context (R303): SHA-512, the curve, and the check of a signature. Everything is
computed on natural numbers. -/

namespace Sys2Proof.Machine

/-! ## SHA-512 -/

def sha512Mod : Nat := 2 ^ 64

/-- The first 64 bits of the fractional parts of the cube roots of the first 80 primes. -/
def sha512K0 : List Nat :=
  [0x428a2f98d728ae22, 0x7137449123ef65cd, 0xb5c0fbcfec4d3b2f, 0xe9b5dba58189dbbc
  , 0x3956c25bf348b538, 0x59f111f1b605d019, 0x923f82a4af194f9b, 0xab1c5ed5da6d8118
  , 0xd807aa98a3030242, 0x12835b0145706fbe, 0x243185be4ee4b28c, 0x550c7dc3d5ffb4e2
  , 0x72be5d74f27b896f, 0x80deb1fe3b1696b1, 0x9bdc06a725c71235, 0xc19bf174cf692694
  , 0xe49b69c19ef14ad2, 0xefbe4786384f25e3, 0xfc19dc68b8cd5b5, 0x240ca1cc77ac9c65]

def sha512K1 : List Nat :=
  [0x2de92c6f592b0275, 0x4a7484aa6ea6e483, 0x5cb0a9dcbd41fbd4, 0x76f988da831153b5
  , 0x983e5152ee66dfab, 0xa831c66d2db43210, 0xb00327c898fb213f, 0xbf597fc7beef0ee4
  , 0xc6e00bf33da88fc2, 0xd5a79147930aa725, 0x6ca6351e003826f, 0x142929670a0e6e70
  , 0x27b70a8546d22ffc, 0x2e1b21385c26c926, 0x4d2c6dfc5ac42aed, 0x53380d139d95b3df
  , 0x650a73548baf63de, 0x766a0abb3c77b2a8, 0x81c2c92e47edaee6, 0x92722c851482353b]

def sha512K2 : List Nat :=
  [0xa2bfe8a14cf10364, 0xa81a664bbc423001, 0xc24b8b70d0f89791, 0xc76c51a30654be30
  , 0xd192e819d6ef5218, 0xd69906245565a910, 0xf40e35855771202a, 0x106aa07032bbd1b8
  , 0x19a4c116b8d2d0c8, 0x1e376c085141ab53, 0x2748774cdf8eeb99, 0x34b0bcb5e19b48a8
  , 0x391c0cb3c5c95a63, 0x4ed8aa4ae3418acb, 0x5b9cca4f7763e373, 0x682e6ff3d6b2b8a3
  , 0x748f82ee5defb2fc, 0x78a5636f43172f60, 0x84c87814a1f0ab72, 0x8cc702081a6439ec]

def sha512K3 : List Nat :=
  [0x90befffa23631e28, 0xa4506cebde82bde9, 0xbef9a3f7b2c67915, 0xc67178f2e372532b
  , 0xca273eceea26619c, 0xd186b8c721c0c207, 0xeada7dd6cde0eb1e, 0xf57d4f7fee6ed178
  , 0x6f067aa72176fba, 0xa637dc5a2c898a6, 0x113f9804bef90dae, 0x1b710b35131c471b
  , 0x28db77f523047d84, 0x32caab7b40c72493, 0x3c9ebe0a15c9bebc, 0x431d67c49c100d4c
  , 0x4cc5d4becb3e42b6, 0x597f299cfc657e2a, 0x5fcb6fab3ad6faec, 0x6c44198c4a475817]

def sha512K : List Nat := sha512K0 ++ sha512K1 ++ sha512K2 ++ sha512K3

/-- The initial hash: the same of the square roots of the first 8 primes. -/
def sha512Init : List Nat :=
  [0x6a09e667f3bcc908, 0xbb67ae8584caa73b, 0x3c6ef372fe94f82b, 0xa54ff53a5f1d36f1
  , 0x510e527fade682d1, 0x9b05688c2b3e6c1f, 0x1f83d9abfb41bd6b, 0x5be0cd19137e2179]

def rotr64 (x n : Nat) : Nat := Nat.lor (x >>> n) ((x <<< (64 - n)) % sha512Mod)
def xor3 (a b c : Nat) : Nat := Nat.xor (Nat.xor a b) c
def bigSigma0 (x : Nat) : Nat := xor3 (rotr64 x 28) (rotr64 x 34) (rotr64 x 39)
def bigSigma1 (x : Nat) : Nat := xor3 (rotr64 x 14) (rotr64 x 18) (rotr64 x 41)
def smallSigma0 (x : Nat) : Nat := xor3 (rotr64 x 1) (rotr64 x 8) (x >>> 7)
def smallSigma1 (x : Nat) : Nat := xor3 (rotr64 x 19) (rotr64 x 61) (x >>> 6)
def shaCh (x y z : Nat) : Nat := Nat.xor (Nat.land x y) (Nat.land (sha512Mod - 1 - x) z)
def shaMaj (x y z : Nat) : Nat := xor3 (Nat.land x y) (Nat.land x z) (Nat.land y z)

/-- A big-endian number. -/
def shaWord (l : Bytes) : Nat := l.foldl (fun n b => n * 256 + b.toNat) 0

/-- One round with the word and the constant of that round. -/
def shaRound (kw : Nat) : List Nat → List Nat
  | [a, b, c, d, e, f, g, h] =>
    let t1 := h + bigSigma1 e + shaCh e f g + kw
    let t2 := bigSigma0 a + shaMaj a b c
    [(t1 + t2) % sha512Mod, a, b, c, (d + t1) % sha512Mod, e, f, g]
  | l => l

/-- The rounds of a block over its last 16 words, oldest first. -/
def shaRounds : List Nat → List Nat → List Nat → List Nat
  | [], _, st => st
  | k :: ks, w, st =>
    let w0 := w.headD 0
    let next := (smallSigma1 (w.getD 14 0) + w.getD 9 0 + smallSigma0 (w.getD 1 0) + w0) % sha512Mod
    shaRounds ks (w.drop 1 ++ [next]) (shaRound (k + w0) st)

/-- The message with its padding: a 1 bit, zeros, and its length in bits as 128 bits. -/
def shaPad (m : Bytes) : Bytes :=
  m ++ [(0x80 : Byte)] ++ List.replicate ((239 - m.length % 128) % 128) 0 ++ (leBytes 16 (8 * m.length)).reverse

/-- The hash over so many blocks. -/
def shaBlocks : Nat → Bytes → List Nat → List Nat
  | 0, _, h => h
  | n + 1, m, h =>
    let w := (List.range 16).map fun i => shaWord (part m (8 * i) 8)
    shaBlocks n (m.drop 128) ((h.zip (shaRounds sha512K w h)).map fun e => (e.1 + e.2) % sha512Mod)

/-- SHA-512, 64 bytes. -/
def sha512 (m : Bytes) : Bytes :=
  let p := shaPad m
  ((shaBlocks (p.length / 128) p sha512Init).map fun x => (leBytes 8 x).reverse).flatten

/-! ## The field and the curve -/

def edP : Nat := 2 ^ 255 - 19
/-- The order of the base point. -/
def edL : Nat := 2 ^ 252 + 27742317777372353535851937790883648493
def edD : Nat := 0x52036cee2b6ffe738cc740797779e89800700a4d4141d8ab75eb4dca135978a3
/-- A square root of −1. -/
def edRootM1 : Nat := 0x2b8324804fc1df0b2b4d00993dfbd7a72f431806ad2fe478c4ee1b274a0ea0b0
def edSub (a b : Nat) : Nat := (a + edP - b % edP) % edP

/-- A power modulo p, over the bits of the exponent. -/
def edPow (a : Nat) : Nat → Nat → Nat
  | 0, _ => 1
  | n + 1, e =>
    let h := edPow a n (e / 2)
    if e % 2 = 1 then h * h % edP * a % edP else h * h % edP

/-- A point in extended coordinates: x = X/Z, y = Y/Z, xy = T/Z. -/
structure EdPoint where
  x : Nat
  y : Nat
  z : Nat
  t : Nat

def EdPoint.add (p q : EdPoint) : EdPoint :=
  let a := edSub p.y p.x * edSub q.y q.x % edP
  let b := (p.y + p.x) * (q.y + q.x) % edP
  let c := 2 * p.t * q.t * edD % edP
  let d := 2 * p.z * q.z % edP
  let e := edSub b a
  let f := edSub d c
  let g := (d + c) % edP
  let h := (b + a) % edP
  ⟨e * f % edP, g * h % edP, f * g % edP, e * h % edP⟩

def edZero : EdPoint := ⟨0, 1, 1, 0⟩

/-- A multiple of a point, over the bits of the factor. -/
def EdPoint.mul (p : EdPoint) : Nat → Nat → EdPoint
  | 0, _ => edZero
  | n + 1, k =>
    let h := p.mul n (k / 2)
    let h := h.add h
    if k % 2 = 1 then h.add p else h

def EdPoint.same (p q : EdPoint) : Bool := p.x * q.z % edP == q.x * p.z % edP && p.y * q.z % edP == q.y * p.z % edP

/-- The point whose encoding is a number: y in bits [254:0], the sign of x in bit 255. -/
def edDecode (n : Nat) : Option EdPoint :=
  let y := n % 2 ^ 255
  if edP ≤ y then none
  else
    let u := edSub (y * y % edP) 1
    let v := (edD * y % edP * y + 1) % edP
    let x := u * (v * v % edP * v % edP) % edP * edPow (u * edPow v 3 7 % edP) 255 ((edP - 5) / 8) % edP
    let vxx := v * x % edP * x % edP
    let root := if vxx = u then some x else if vxx = edSub 0 u then some (x * edRootM1 % edP) else none
    root.bind fun x =>
      let sign := n / 2 ^ 255
      if x = 0 ∧ sign = 1 then none
      else
        let x := if x % 2 = sign then x else edP - x
        some ⟨x, y, 1, x * y % edP⟩

def edBase : EdPoint :=
  let x := 0x216936d3cd6e53fec0a4e231fdd6dc5c692cc7609525a7b2c9562d608f25d51a
  let y := 0x6666666666666666666666666666666666666666666666666666666666666658
  ⟨x, y, 1, x * y % edP⟩

/-- R303: whether a signature of 64 bytes over a message verifies under a key: [8][S]B = [8]R + [8][k]A (log entry 247). -/
def ed25519Verify (key : BitVec 256) (m sig : Bytes) : Bool :=
  let r := leNat (part sig 0 32)
  let s := leNat (part sig 32 32)
  match edDecode key.toNat, edDecode r with
  | some a, some rp =>
    let k := leNat (sha512 (part sig 0 32 ++ leBytes 32 key.toNat ++ m)) % edL
    sig.length == 64 && decide (s < edL) && ((edBase.mul 253 s).mul 4 8).same ((rp.add (a.mul 253 k)).mul 4 8)
  | _, _ => false

end Sys2Proof.Machine
end

