-- ==== Sys2Proof/Machine/Cmd.lean ====
section
/-! DEFINITION. What a host command is to the acceptance of R463: its kind, who may send it, its checks, what it does at
once, and, for a staged one, what it does at the commit. -/

namespace Sys2Proof.Machine

/-- R26 to R30, R476: the kinds of commands. A schedulable command can be executed at a named second. -/
inductive CmdKind where
  | hello | readback | staged | schedules | schedulable | immediate
deriving DecidableEq, Repr, Inhabited

/-- One host command: `rights` are its rights on the units it names (step 7 of R463), `check` its payload (step 9), `run`
its execution (step 10 and its effect), `apply` its effect at a commit with the refusal of its stage (R33), `final` what it asks of the
state its whole stage leaves, `keys` the
fields a staged payload sets and `without` the payload that no longer sets some of them (R30). -/
structure Cmd where
  kind : CmdKind
  steward : Bool := false
  startUp : Bool := false
  rights : Frame → State → Bool := fun _ _ => true
  check : Frame → State → Except Reply Unit
  run : Frame → State → Outcome := fun _ s => .ok ({}, s)
  apply : Frame → State → Except Status State := fun _ s => .ok s
  final : Frame → State → Except Status Unit := fun _ _ => .ok ()
  keys : Bytes → List Nat := fun _ => []
  without : Bytes → List Nat → Bytes := fun p _ => p

/-- The payload of a command whose first `n` bytes are a mask of what it sets, without the numbers listed. -/
def clearMask (n : Nat) (p : Bytes) (l : List Nat) : Bytes :=
  leBytes n (BitVec.ofNat (8 * n) (leNat (p.take n)) &&& ~~~ maskOf (8 * n) l).toNat ++ p.drop n

/-- A command without a payload. -/
def noPayload (f : Frame) (_ : State) : Except Reply Unit := layout f.payload 0 []

/-- The reply of a readback. -/
def answer (p : Bytes) (s : State) : Outcome := .ok ({ payload := p }, s)

/-- R118: a tenant owns every channel of a mask. -/
def ownsChannels (f : Frame) (s : State) : Bool :=
  (bitsOf (maskAt 128 f.payload 0 16)).all fun c => s.chanOwner c == f.tenant.val

/-- The Steward's commands that wait for a commit: its open stage, the stages of its pending commits, and the step in progress. -/
def State.stewardWaiting (s : State) : List Instr :=
  (s.tenant 0).stage
    ++ ((s.tenant 0).items.flatMap fun i => match i with
      | .commit _ _ _ _ _ l => l
      | .scheduled _ _ _ _ => [])
    ++ ((s.jr.step.map (·.stages)).getD [] |>.flatMap fun g => if g.1 = 0 then g.2.2.2 else [])

/-- Whether a waiting CHANNEL_ASSIGN gives a channel to a tenant (R531). -/
def State.promised (s : State) (t c : Nat) : Bool :=
  s.stewardWaiting.any fun i => match i with
    | .channelAssign g => p8 g.payload 16 == t && (maskAt 128 g.payload 0 16).getLsbD c
    | _ => false

/-- Whether a waiting CHANNEL_ASSIGN or TI_CONFIG gives a stamp source to a tenant (R282, R531). -/
def State.promisedSource (s : State) (t i : Nat) : Bool :=
  if i < 128 then s.promised t i
  else s.stewardWaiting.any fun j => match j with
    | .tiConfig g => p8 g.payload 0 == i - 128 && p8 g.payload 3 == t
    | _ => false

/-- R118, R152, R246, R280: a staged command on channels is taken from their owner, and from the tenant to which a waiting CHANNEL_ASSIGN
gives them; the commit step judges anew (DEDUCED, log entry 29). -/
def mayOwn (f : Frame) (s : State) : Bool :=
  (bitsOf (maskAt 128 f.payload 0 16)).all fun c => s.chanOwner c == f.tenant.val || s.promised f.tenant.val c

/-- The Steward, or the owner of one unit. -/
def ownerOrSteward (f : Frame) (owner : Option Nat) : Bool :=
  f.tenant == 0 || (match owner with
    | some o => o == f.tenant.val
    | none => true)

/-- The owner of a numbered unit, none where there is no such unit. -/
def ownerOf (n limit : Nat) (owner : Nat → Nat) : Option Nat := if n < limit then some (owner n) else none

def oneOf (v : Nat) (l : List Nat) : Bool := l.contains v
def inRange (lo v hi : Nat) : Bool := decide (lo ≤ v ∧ v ≤ hi)
def inRangeI (lo v hi : Int) : Bool := decide (lo ≤ v ∧ v ≤ hi)

end Sys2Proof.Machine
end

