-- ==== Sys2Proof/Machine/Flags.lean ====
section
/-! DEFINITION. Every status word and flag computation of the spec: the time status byte (R74, R75), the registers of
the time snapshot block (R76), of the power block (R623), of the rings (R454), and the counters that follow a change
of a status word. -/

namespace Sys2Proof.Machine

/-! ## Leap state (R68 to R70, R76) -/

/-- The VT second of effect of a leap entry. -/
def LeapEntry.effect (e : LeapEntry) : Int := if e.naive = 0 then 0 else (e.naive : Int) + e.offset

/-- The leap entry that takes effect next, if any. -/
def TimeBase.nextLeap (t : TimeBase) : Option LeapEntry :=
  t.leaps.find? fun e => decide ((t.vtSec.toNat : Int) < e.effect)

/-- R70: TAI−UTC at the present second. -/
def TimeBase.offsetNow (t : TimeBase) : Int :=
  t.leaps.foldl (fun o e => if e.effect ≤ (t.vtSec.toNat : Int) then e.offset else o) 32

/-- R74 bit 4: a leap entry takes effect within the next 24 h. -/
def TimeBase.leapPending (t : TimeBase) : Bool :=
  match t.nextLeap with
  | some e => decide (e.effect - t.vtSec.toNat ≤ 86400)
  | none => false

/-- R76: LEAP_AT. -/
def TimeBase.leapAt (t : TimeBase) : Nat := (t.nextLeap.map fun e => e.effect.toNat).getD 0

/-! ## The time status byte (R74) -/

/-- R74 bit 0. -/
def TimeBase.refFollows (t : TimeBase) : Bool := t.refValid && t.freqSource == 0

/-- R74 bit 6. -/
def TimeBase.traceable (t : TimeBase) : Bool :=
  t.refFollows && t.ppsAligned && t.labelValid && !t.holdover && !t.slewing

/-- R74; a Rachis follower copies every bit but pps_aligned from the master's (R181). -/
def TimeBase.tsb (t : TimeBase) : Byte :=
  match t.masterTsb with
  | some b => (b &&& 0xFB) ||| BitVec.ofNat 8 (4 * boolNat t.ppsAligned)
  | none =>
  BitVec.ofNat 8 (boolNat t.refFollows + 2 * boolNat t.holdover + 4 * boolNat t.ppsAligned + 8 * boolNat t.labelValid
    + 16 * boolNat t.leapPending + 32 * boolNat t.utcValid + 64 * boolNat t.traceable + 128 * boolNat t.slewing)

/-- R75: bits 0, 2, 3, 5 and 6 are the AND, bits 1, 4 and 7 the OR. -/
def tsbJoin (a b : Byte) : Byte := ((a &&& b) &&& 0x6D) ||| ((a ||| b) &&& 0x92)

/-- The changes of the TSB that stand in a span from tick `t0` to now: all after `t0`, and the one in force at `t0`. -/
def tsbSince (t0 : Nat) : List (Nat × Byte) → List Byte
  | [] => []
  | (k, b) :: l => if k ≤ t0 then [b] else b :: tsbSince t0 l

/-- R75: the time status byte over the ticks from `t0` up to `t1`. -/
def State.tsbOver (s : State) (t0 t1 : Nat) : Byte :=
  match tsbSince t0 (s.time.tsbLog.dropWhile fun e => decide (t1 ≤ e.1)) with
  | b :: l => l.foldl tsbJoin b
  | [] => s.time.tsb

/-- R174: the time status byte at a tick. -/
def State.tsbAt (s : State) (tick : Nat) : Byte :=
  ((s.time.tsbLog.find? fun e => decide (e.1 ≤ tick)).map (·.2)).getD s.time.tsb

/-- R38, R39: the generation live at a clock reading. -/
def State.generationOf (s : State) (tick : Nat) : U32 := ((s.jr.genLog.find? fun e => decide (e.1 ≤ tick)).map (·.2)).getD s.jr.genBase

/-- R174: the generation live at an instant of the present labels. -/
def State.generationAt (s : State) (tag : Vt96) : U32 := s.generationOf (s.tickHolding tag)

/-! ## Registers of the time snapshot block (R76), without their update_count -/

def TimeBase.statusWord (t : TimeBase) : Nat :=
  t.tsb.toNat + 2 ^ 8 * t.freqSource.toNat + 2 ^ 10 * t.phaseSource.toNat + 2 ^ 12 * t.labelSource.toNat
    + 2 ^ 16 * t.refDetected.toNat

def TimeBase.taiWord (t : TimeBase) : Nat :=
  (t.taiUtc.emod 65536).toNat + 2 ^ 16 * boolNat t.leapPending + 2 ^ 17 * boolNat t.leapNegative

def TimeBase.rootWord (t : TimeBase) : Nat :=
  t.band.toNat + 2 ^ 6 * boolNat t.locked + 2 ^ 7 * boolNat t.searching + 2 ^ 8 * t.lockCount.toNat
    + 2 ^ 16 * boolNat t.holdoverForced

/-- The fields whose change moves update_count. -/
def TimeBase.watched (t : TimeBase) : Nat × Nat × Nat := (t.statusWord, t.taiWord, t.rootWord)

/-- A status word with its update_count in bits [31:24]. -/
def withCount (w : Nat) (n : Byte) : U32 := BitVec.ofNat 32 (w + 2 ^ 24 * n.toNat)

/-! ## Registers of the power block (R623) -/

/-- R594: the code of an operating state. -/
def OpState.code : OpState → Nat
  | .startUp => 0 | .recovery => 1 | .maintenance => 2 | .service => 3 | .powerFail => 4

def Power.statusWord (p : Power) : Nat :=
  p.opState.code + 8 * boolNat p.pwrFailPin + 16 * boolNat p.holdupReady + 32 * boolNat p.mainOn
    + 64 * boolNat p.thermalWarn + 128 * boolNat p.restartPolicy

def Power.causeWord (p : Power) : Nat := p.fullCause.toNat + 16 * p.culmCause.toNat + 256 * p.culmRestarts.toNat

def State.holdupWord (s : State) : Nat :=
  s.power.holdupMs.toNat + 2 ^ 16 * ((s.clock - s.power.holdupAt) / (86400 * ticksPerSec) % 2 ^ 16)

def Power.fwWord (p : Power) : Nat := p.fw.activeSlot.toNat + 2 * p.fw.otherState.toNat

/-! ## Registers of the rings (R454) -/

def Rings.statusWord (r : Rings) : Nat :=
  boolNat (r.rspProd != r.rspCons) + 2 * boolNat (r.evtProd != r.evtCons) + 4 * boolNat r.cmdStalled
    + 8 * boolNat r.cmdFrameError + 2 ^ 8 * r.ringResets.toNat

/-! ## After every command -/

/-- Bring the copies of the leap state up to date (R70) and count a change of the watched words against `t0`, the time
base before the command (R76). -/
def TimeBase.refresh (t0 t : TimeBase) : TimeBase :=
  let t := { t with taiUtc := t.offsetNow
                    leapNegative := t.leapPending && ((t.nextLeap.map LeapEntry.negative).getD false) }
  { t with updateCount := if t.watched = t0.watched then t0.updateCount else t0.updateCount + 1 }

/-- Enter a change of the TSB in the log of changes. -/
def TimeBase.logTsb (clock : Nat) (t : TimeBase) : TimeBase :=
  match t.tsbLog with
  | (_, b) :: _ => if b = t.tsb then t else { t with tsbLog := (clock, t.tsb) :: t.tsbLog }
  | [] => { t with tsbLog := [(clock, t.tsb)] }

/-- R623: count a change of POWER_STATUS against `p0`. -/
def Power.refresh (p0 p : Power) : Power :=
  { p with updateCount := if p.statusWord = p0.statusWord then p0.updateCount else p0.updateCount + 1 }

end Sys2Proof.Machine
end

