-- ==== Sys2Proof/Machine/Calendar.lean ====
section
/-! DEFINITION. Calendar dates and the leap table (R68 to R73). -/

namespace Sys2Proof.Machine

/-- R71. -/
def isLeapYear (y : Nat) : Bool := y % 4 == 0 && y != 2100

/-- R71: the days of a month. -/
def daysInMonth (y m : Nat) : Nat :=
  if m = 2 then (if isLeapYear y then 29 else 28) else if m = 4 ∨ m = 6 ∨ m = 9 ∨ m = 11 then 30 else 31

/-- R73. -/
def daysBeforeYear (y : Nat) : Nat :=
  let n := y - 2000
  365 * n + (n + 3) / 4 - (if 2100 < y then 1 else 0)

/-- R73: 1 on 1 January. -/
def dayOfYear (y m d : Nat) : Nat := ((List.range (m - 1)).map fun i => daysInMonth y (i + 1)).sum + d

/-- Days since 2000-01-01. -/
def dayNumber (y m d : Nat) : Nat := daysBeforeYear y + dayOfYear y m d - 1

/-- R73: the naive second of a date; second 60 equals the next 00:00:00. -/
def civilNaive (c : Civil) : Nat :=
  dayNumber c.year c.month c.day * 86400 + c.hour * 3600 + c.minute * 60 + c.second

/-- R73: the TAI−UTC of the last entry whose naive second is at or before `n`. -/
def offsetInForce (leaps : List LeapEntry) (n : Nat) : Int :=
  leaps.foldl (fun o e => if e.naive ≤ n then e.offset else o) 32

/-- The leap entry at the end of a day, by day number. -/
def leapOfDay (leaps : List LeapEntry) (day : Nat) : Option LeapEntry :=
  leaps.find? fun e => e.naive == (day + 1) * 86400

/-- R71, R72: whether a date and time exist; `utc` tells the scale. -/
def civilValid (leaps : List LeapEntry) (utc : Bool) (c : Civil) : Bool :=
  decide (2000 ≤ c.year ∧ c.year ≤ 2199 ∧ 1 ≤ c.month ∧ c.month ≤ 12 ∧ 1 ≤ c.day ∧ c.day ≤ daysInMonth c.year c.month
    ∧ c.hour ≤ 23 ∧ c.minute ≤ 59)
  && (let leap := leapOfDay leaps (dayNumber c.year c.month c.day)
      let last := c.hour == 23 && c.minute == 59
      if c.second ≤ 58 then true
      else if c.second = 59 then !(utc && last && (leap.map (·.negative)).getD false)
      else c.second == 60 && utc && last && (leap.map fun e => !e.negative).getD false)

/-- R73: the VT second of a valid date. -/
def civilToVt (leaps : List LeapEntry) (utc : Bool) (c : Civil) : Nat :=
  let n := civilNaive c
  if !utc then n
  else if c.second = 60 then ((n : Int) + offsetInForce leaps (n - 1)).toNat
  else ((n : Int) + offsetInForce leaps n).toNat

/-- The month and day of a day of a year, the month counted from `m`. -/
def monthOf (y : Nat) : Nat → Nat → Nat → Nat × Nat
  | 0, m, d => (m, d + 1)
  | fuel + 1, m, d => if d < daysInMonth y m then (m, d + 1) else monthOf y fuel (m + 1) (d - daysInMonth y m)

/-- The year and day within it of a day number, the year counted from `y`. -/
def yearOf : Nat → Nat → Nat → Nat × Nat
  | 0, y, d => (y, d)
  | fuel + 1, y, d =>
    let len := if isLeapYear y then 366 else 365
    if d < len then (y, d) else yearOf fuel (y + 1) (d - len)

/-- The date and time of a naive second; none outside the years 2000 to 2199. -/
def civilOf (n : Nat) : Option Civil :=
  let (y, d) := yearOf 200 2000 (n / 86400)
  if 2199 < y then none
  else
    let (m, dd) := monthOf y 11 1 d
    some ⟨y, m, dd, n % 86400 / 3600, n % 3600 / 60, n % 60⟩

/-- R85: the date of a VT second on a scale; none outside the calendar range. A positive leap second is 23:59:60. -/
def civilOfVt (leaps : List LeapEntry) (utc : Bool) (v : Nat) : Option Civil :=
  if !utc then civilOf v
  else if leaps.any fun e => e.naive != 0 && !e.negative && decide (e.effect = (v : Int) + 1) then
    let o := leaps.foldl (fun o e => if e.effect ≤ (v : Int) then e.offset else o) 32
    (civilOf ((v : Int) - o - 1).toNat).map fun c => { c with second := 60 }
  else
    let o := leaps.foldl (fun o e => if e.effect ≤ (v : Int) then e.offset else o) 32
    if (v : Int) < o then none else civilOf ((v : Int) - o).toNat

/-- The CAL_TIME at a payload offset. -/
def calAt (p : Bytes) (off : Nat) : Civil :=
  ⟨p16 p off, p8 p (off + 2), p8 p (off + 3), p8 p (off + 4), p8 p (off + 5), p8 p (off + 6)⟩

/-- The CAL_TIME layout: date, scale, fraction. -/
def calBytes (c : Civil) (utc : Bool) (frac : U48) : Bytes :=
  w16 c.year ++ w8 c.month ++ w8 c.day ++ w8 c.hour ++ w8 c.minute ++ w8 c.second ++ w8 (boolNat utc)
    ++ w48 frac.toNat ++ w16 0

/-- Insert a leap entry, oldest first, in place of an entry of the same naive second. -/
def insertLeap : List LeapEntry → LeapEntry → List LeapEntry
  | [], e => [e]
  | x :: l, e =>
    if e.naive < x.naive then e :: x :: l else if e.naive = x.naive then e :: l else x :: insertLeap l e

/-- The offsets of the entries after a change: each is one more, or one less where it is negative, than the one before. -/
def reoffset : Int → List LeapEntry → List LeapEntry
  | _, [] => []
  | o, e :: l =>
    let o' := if e.naive = 0 then e.offset else if e.negative then o - 1 else o + 1
    { e with offset := o' } :: reoffset o' l

end Sys2Proof.Machine
end

