-- ==== Sys2Proof/Machine/Events.lean ====
section
/-! DEFINITION. Events: identifiers, recipients, queues and their delivery (R513 to R528). -/

namespace Sys2Proof.Machine

/-! ## Identifiers (R513 to R516) -/

/-- R513: channel event k of channel c. -/
def chanEvent (c k : Nat) : Nat := c * 8 + k
/-- R513: sheaf event k of a sheaf. -/
def sheafEvent (sheaf k : Nat) : Nat := 0x400 + sheaf * 16 + k

/-- The sheaf on which the events of a stamp source are raised: its own, or 0 and 15 for timing inputs (R515). -/
def sourceSheaf (source : Nat) : Nat := if source < 128 then source / 8 else if source < 130 then 0 else 15

/-! ## Recipients (R517) -/

/-- The tenants that are active. -/
def State.activeTenants (s : State) : List Nat := (List.range 256).filter fun t => (s.tenant t).active

/-- R517: the owner of a channel at an instant: before the commit second that passed it last, the owner of before. -/
def State.chanOwnerAt (s : State) (vt : Vt96) (c : Nat) : Nat :=
  match (s.chan c).passedFrom with
  | some (old, at_) => if vtLt vt at_ then old.val else s.chanOwner c
  | none => s.chanOwner c

/-- R517: the recipients of an event timed `vt`; `named` are the tenants it names or that own what it names. -/
def State.recipients (s : State) (vt : Vt96) (id : Nat) (named : List Nat) : List Nat :=
  if id < 0x400 then [s.chanOwnerAt vt (id / 8), 0].dedup
  else if id < 0x500 then
    ((List.range 8).map (fun p => s.chanOwnerAt vt ((id - 0x400) / 16 * 8 + p)) ++ named ++ [0]).dedup
  else if id = 0x503 ∨ id = 0x504 ∨ id = 0x528 ∨ id = 0x530 ∨ id = 0x531 ∨ (0x540 ≤ id ∧ id ≤ 0x543) then
    (named ++ [0]).dedup
  else s.activeTenants

/-- R513: the 8-byte payload. -/
def eventPayload (p : Bytes) : Bytes := (p ++ zeros 8).take 8

/-- R528: set the bit of an event ID in the summary. -/
def State.markSummary (s : State) (id : Nat) : State :=
  { s with summary := vmod s.summary (id / 32) fun w => w ||| (1#32 <<< (id % 32)) }

/-- R526: an occurrence at an instant, to named tenants, with the time status and the generation of that instant: its summary bit is set and it
waits for the Culm to place it. -/
def State.raiseAt (s : State) (vt : Vt96) (id : Nat) (p : Bytes) (named : List Nat := []) : State :=
  let past := vtLt vt s.now
  let o : Occurrence := { id, payload := eventPayload p, vt, tsb := if past then s.tsbAt (s.tickHolding vt) else s.time.tsb
                          generation := if past then s.generationAt vt else s.jr.generation
                          recips := (s.recipients vt id named).map ten }
  (s.markSummary id).modJr fun j => { j with outbox := j.outbox ++ [o] }

/-- An occurrence now. -/
def State.raise (s : State) (id : Nat) (p : Bytes) (named : List Nat := []) : State := s.raiseAt s.now id p named

/-! ## Queues (R519 to R523) -/

/-- R523: the payload of EV_EVENT_LOST. -/
def lostPayload (n : Nat) (sec : U48) : Bytes := w32 n ++ w32 sec.toNat

/-- R523: count an occurrence that found no slot in the kept EV_EVENT_LOST entry. -/
def Tenant.loseEvent (t : Tenant) (o : Occurrence) : Tenant :=
  let t := { t with eventsLost := t.eventsLost + 1 }
  if t.lostOpen then
    { t with queue := t.queue.map fun e =>
        if e.lost && e.seq == t.eventSeq - 1 then
          { e with payload := w32 (min (leNat (e.payload.take 4) + 1) (2 ^ 32 - 1)) ++ e.payload.drop 4 }
        else e }
  else
    { t with
      lostOpen := true
      eventSeq := t.eventSeq + 1
      queue := t.queue ++ [{ seq := t.eventSeq, id := 0x502, rep := 1, tsb := o.tsb, vt := vt80 o.vt
                             generation := o.generation, payload := lostPayload 1 o.vt.sec, pushed := false
                             lost := true }] }

/-- R522: whether an occurrence merges into the newest entry. -/
def Tenant.merges (t : Tenant) (o : Occurrence) : Bool :=
  match t.queue.getLast? with
  | some e => !e.pushed && !e.lost && e.id == o.id && e.payload == o.payload
  | none => false

/-- R518 to R523: offer an occurrence to a tenant's queue. An EV_EVENT_LOST entry that is closed takes a slot as every entry does, so that one
slot stays kept for the next (DEDUCED, log entry 267). -/
def Tenant.offer (t : Tenant) (o : Occurrence) : Tenant :=
  if !t.active || !t.eventMask.getLsbD o.id then t
  else if t.merges o then
    { t with queue := lmod t.queue (t.queue.length - 1) fun e => { e with rep := min 255 (e.rep + 1) } }
  else if t.lostOpen || decide (t.eventDepth ≤ t.queue.length + 1) then t.loseEvent o
  else
    { t with
      eventSeq := t.eventSeq + 1
      queue := t.queue ++ [{ seq := t.eventSeq, id := o.id, rep := 1, tsb := o.tsb, vt := vt80 o.vt
                             generation := o.generation, payload := o.payload, pushed := false, lost := false }] }

/-- Offer an occurrence to one tenant; a first loss is itself an occurrence of EV_EVENT_LOST (0x502). -/
def State.offerTo (s : State) (o : Occurrence) (r : Nat) : State :=
  let t := s.tenant r
  let t' := t.offer o
  let s := s.modTenant r fun _ => t'
  if t'.lostOpen && !t.lostOpen then s.markSummary 0x502 else s

/-- Place an occurrence in the queues of its recipients. -/
def State.place (s : State) (o : Occurrence) : State := s.each (o.recips.map (·.val)) fun s r => s.offerTo o r

/-- Place the occurrences that wait for the Culm, in the order raised (R521). -/
def State.placeOccurrences (s : State) : State :=
  { s.each s.jr.outbox State.place with jr := { s.jr with outbox := [] } }

/-! ## Entries and frames (R525, R526) -/

/-- R526. -/
def EventEntry.bytes (e : EventEntry) : Bytes :=
  w32 e.seq.toNat ++ w16 e.id ++ w8 e.rep ++ [e.tsb] ++ vt80Bytes e.vt ++ w16 0 ++ w32 e.generation.toNat ++ e.payload

/-- R525: an event frame. -/
def eventFrame (tenant : Nat) (lostTotal : U32) (es : List EventEntry) : Bytes :=
  let body := w16 0x0DFF ++ w8 tenant ++ w8 es.length ++ w32 ((es.head?.map (·.seq.toNat)).getD 0)
    ++ w32 lostTotal.toNat ++ w32 0 ++ (es.map (·.bytes)).flatten
  body ++ w32 (crc32c body).toNat

end Sys2Proof.Machine
end

