-- ==== Sys2Proof/Machine/Journals.lean ====
section
/-! DEFINITION. The journal (R482 to R487): entries, their place in the ring, and what a command writes into them. -/

namespace Sys2Proof.Machine

/-- R484: work still running. -/
def JournalEntry.running (e : JournalEntry) : Bool := e.state == 1 && e.remainder == 0

/-- R484: a pending commit or scheduled command. -/
def JournalEntry.pending (e : JournalEntry) : Bool := e.state == 0 && e.status == .scheduled

/-- R485: whether an index can be taken. -/
def Journal.canTake (j : Journal) (i : Nat) : Bool :=
  match aget j.entries i with
  | some e => !e.running && !e.pending
  | none => true

/-- R485: the next index in ring order that can be taken, looking at `fuel` indices from `i`. -/
def Journal.findFree (j : Journal) : Nat → Nat → Option Nat
  | 0, _ => none
  | fuel + 1, i => if j.canTake (i % 4096) then some (i % 4096) else j.findFree fuel (i + 1)

def Journal.nextFree (j : Journal) : Option Nat := j.findFree 4096 j.next

/-- R483: the 32 bytes of an entry, its check computed. -/
def JournalEntry.bytes (e : JournalEntry) : Bytes :=
  let b := w32 e.seq.toNat ++ w8 e.tenant.val ++ w8 e.state ++ w16 e.opcode.toNat ++ w48 e.vtSecond.toNat
    ++ w8 e.status.code ++ w8 e.remainder ++ w32 e.done.toNat ++ w32 e.total.toNat ++ w32 e.generation.toNat
  b ++ w32 (crc32c b).toNat

/-- R485: a new entry, or none when no index can be taken. -/
def State.newEntry (s : State) (e : JournalEntry) : Option (Nat × State) :=
  s.jr.nextFree.map fun i => (i, s.modJr fun j => { j with entries := aset j.entries i e, next := (i + 1) % 4096 })

/-- R482: an entry for work that begins now: partial, still running. -/
def State.workEntry (s : State) (tenant : Nat) (seq : U32) (opcode : Nat) (total : Nat) : JournalEntry :=
  { seq, tenant := ten tenant, state := 1, opcode := BitVec.ofNat 16 opcode, vtSecond := s.time.vtSec, status := .part
    remainder := 0, done := 0, total := BitVec.ofNat 32 total, generation := s.jr.generation }

/-- R484: an entry of a pending commit or scheduled command for second S. -/
def State.pendingEntry (s : State) (tenant : Nat) (seq : U32) (opcode : Nat) (sec : U48) : JournalEntry :=
  { seq, tenant := ten tenant, state := 0, opcode := BitVec.ofNat 16 opcode, vtSecond := sec, status := .scheduled
    remainder := 0, done := 0, total := 1, generation := s.jr.generation }

/-- Begin work of a command: its entry, or ST_EXHAUSTED (R485). -/
def State.startWork (s : State) (f : Frame) (opcode total : Nat) : Except Reply (Nat × State) :=
  match s.newEntry (s.workEntry f.tenant.val f.seq opcode total) with
  | some r => .ok r
  | none => .error (refuse .exhausted)

/-- Change an entry; every update states the second and the generation of the update (R483). -/
def State.modEntry (s : State) (i : Nat) (f : JournalEntry → JournalEntry) : State :=
  s.modJr fun j => { j with entries := amod j.entries i fun e =>
    { f e with vtSecond := s.time.vtSec, generation := j.generation } }

/-- Change an entry that keeps its second (commits and scheduled commands). -/
def State.modEntryKeep (s : State) (i : Nat) (f : JournalEntry → JournalEntry) : State :=
  s.modJr fun j => { j with entries := amod j.entries i f }

/-- R483: an entry of the journal for something the module does on its own, with command sequence 0; what it names stands in its units, all of
them done (DESIGN CHOICE, log entry 24). -/
def State.noteEntry (s : State) (opcode : Nat) (word : U32) (second : U48) : State :=
  match s.newEntry { s.workEntry 0 0 opcode word.toNat with state := 2, status := .done, done := word, vtSecond := second } with
  | some (_, s) => s
  | none => s

/-- More units of an entry are done. -/
def State.addUnits (s : State) (i n : Nat) : State :=
  s.modEntry i fun e => { e with done := e.done + BitVec.ofNat 32 n }

/-- Work ends complete. -/
def State.completeEntry (s : State) (i : Nat) : State :=
  s.modEntry i fun e => { e with state := 2, status := .done, remainder := 0 }

/-- Work ends complete with every unit done. -/
def State.completeAll (s : State) (i : Nat) : State :=
  s.modEntry i fun e => { e with state := 2, status := .done, remainder := 0, done := e.total }

/-- Work ends partial. -/
def State.partialEntry (s : State) (i rem : Nat) : State :=
  s.modEntry i fun e => { e with state := 1, status := .part, remainder := rem }

/-- Work or a pending item ends not started. -/
def State.notStarted (s : State) (i : Nat) (st : Status) (rem : Nat) : State :=
  s.modEntryKeep i fun e => { e with state := 0, status := st, remainder := rem, generation := s.jr.generation }

/-- A change of an optional entry. -/
def State.withEntry (s : State) (i : Option Nat) (f : State → Nat → State) : State :=
  match i with
  | some i => f s i
  | none => s

end Sys2Proof.Machine
end

