-- ==== Sys2Proof/Machine/Mailbox.lean ====
section
/-! DEFINITION. Responses and their delivery (R451 to R468): parts, numbering, the replay store, the service-port rings,
and what closes every command. -/

namespace Sys2Proof.Machine

/-! ## Response frames (R460, R461) -/

/-- R460: the flags byte of a response part. -/
def Response.flagByte (r : Response) (more : Bool) : Nat :=
  boolNat more + 2 * boolNat r.replayed + 4 * boolNat r.dryRun + 8 * boolNat r.snapshot + 16 * boolNat r.unsequenced
    + 32 * boolNat r.truncated

/-- R460: the bytes of one part of a response with its CRC. -/
def Response.bytes (r : Response) (part : Byte) (more : Bool) (respSeq : U32) : Bytes :=
  let b := w16 r.opcode.toNat ++ w8 r.tenant.val ++ w8 r.status.code ++ w8 (r.flagByte more) ++ [part]
    ++ w16 r.payload.length ++ w32 r.seq.toNat ++ w32 respSeq.toNat ++ w32 r.generation.toNat ++ w16 r.journal.toNat
    ++ w16 r.detail.toNat ++ r.payload
  b ++ w32 (crc32c b).toNat

/-- The port of a UDP transport. -/
def portOf : Transport → Nat
  | .host0 => 0 | .host1 => 1 | .mgmt => 2 | .service => 3

/-- R461: the payload bytes one part carries. -/
def State.partMax (s : State) (src : Source) : Nat :=
  match src.via with
  | .service => 8192
  | v => ((s.port (portOf v)).cfg.mtu - (if src.v6 then 40 else 20) - 8 - 28) / 8 * 8

/-- Put a frame on its way out. -/
def State.sendOut (s : State) (dest : Source) (bytes : Bytes) : State :=
  s.modJr fun j => { j with outgoing := j.outgoing ++ [{ dest, bytes }] }

/-- The response to a command. -/
def State.responseTo (s : State) (opcode : Nat) (f : Frame) (r : Reply) : Response :=
  { opcode := BitVec.ofNat 16 opcode, tenant := f.tenant, status := r.status, dryRun := dryRun f
    snapshot := wantsSnapshot f, seq := f.seq, generation := s.jr.recGeneration
    journal := BitVec.ofNat 16 (r.journal.getD 0xFFFF), detail := BitVec.ofNat 16 r.detail, payload := r.payload }

/-- R463, R470: a response outside every sequence. -/
def State.answerUnsequenced (s : State) (opcode : Nat) (f : Frame) (r : Reply) : State :=
  let resp := { s.responseTo opcode f r with unsequenced := true, dryRun := false, snapshot := false }
  s.sendOut f.src (resp.bytes 0 false 0)

/-- R468: what the replay store keeps of a part. -/
def storedForm (r : Response) : Response :=
  if r.payload.length ≤ 36 then r else { r with payload := [], truncated := true }

/-- R468: the 256 newest entries. -/
def trimStore (l : List ReplayEntry) : List ReplayEntry := lastN 256 l

/-- R461, R467, R468: number, store and, where `send` holds, send the parts of a response. -/
def State.emitParts (s : State) (dest : Source) (r : Response) (crc : U32) (send : Bool) :
    Nat → List Bytes → State
  | _, [] => s
  | k, p :: ps =>
    let more := !ps.isEmpty
    let resp := { r with payload := p }
    let t := s.tenant r.tenant.val
    let entry : ReplayEntry :=
      { resp := storedForm resp, part := BitVec.ofNat 8 k, more, respSeq := t.respSeq, cmdCrc := crc }
    let s := s.modTenant r.tenant.val fun t =>
      { t with respSeq := t.respSeq + 1, replay := trimStore (t.replay ++ [entry]) }
    let s := if send then s.sendOut dest (resp.bytes (BitVec.ofNat 8 k) more entry.respSeq) else s
    s.emitParts dest r crc send (k + 1) ps

/-- R462: the sequenced response of a command; ST_DONE without ACK_REQ is kept back unless it is a readback's. -/
def State.respond (s : State) (opcode : Nat) (f : Frame) (crc : U32) (readback : Bool) (r : Reply) : State :=
  let resp := s.responseTo opcode f r
  let send := readback || ackReq f || r.status != .done
  s.emitParts f.src resp crc send 0 (chunks (s.partMax f.src) 255 resp.payload)

/-- R465: send a stored part again. -/
def State.resend (s : State) (dest : Source) (e : ReplayEntry) : State :=
  s.sendOut dest ({ e.resp with replayed := true }.bytes e.part e.more e.respSeq)

/-! ## Service-port rings (R454, R455) -/

/-- Offsets of the three rings in the ring memory (window address less 0x0001_0000). -/
def cmdBase : Nat := 0x0000
def rspBase : Nat := 0x4000
def evtBase : Nat := 0x8000

/-- Bytes between a consumer and a producer index; the wrap bit makes the index count mod 32 KiB. -/
def ringUsed (prod cons : BitVec 15) : Nat := (prod - cons).toNat

/-- R455: whether a ring has room for so many bytes. -/
def ringRoom (prod cons : BitVec 15) (len : Nat) : Bool := decide (ringUsed prod cons + len ≤ 16384)

/-- Write bytes into a ring from an offset; past its end they continue at offset 0. -/
def ringWrite (ram : List Host.Cell) (base off : Nat) : Bytes → List Host.Cell
  | [] => ram
  | b :: bs => ringWrite (memSet ram (base + off % 16384) b) base (off + 1) bs

/-- Read bytes of a ring from an offset. -/
def ringRead (ram : List Host.Cell) (base off : Nat) : Nat → Bytes
  | 0 => []
  | n + 1 => memGet ram (base + off % 16384) :: ringRead ram base (off + 1) n

/-- R455: write the waiting response frames while there is room. -/
def Rings.drainResponses (r : Rings) : Nat → Rings
  | 0 => r
  | fuel + 1 =>
    match r.rspWaiting with
    | [] => r
    | f :: fs =>
      let b := pad8 f
      if ringRoom r.rspProd r.rspCons b.length then
        { r with ram := ringWrite r.ram rspBase (r.rspProd.toNat % 16384) b
                 rspProd := r.rspProd + BitVec.ofNat 15 b.length
                 rspWaiting := fs }.drainResponses fuel
      else r

/-- R455: write what there is room for, and stall while a response waits. -/
def Rings.settle (r : Rings) : Rings :=
  let r := r.drainResponses r.rspWaiting.length
  { r with cmdStalled := !r.rspWaiting.isEmpty }

/-! ## Delivery -/

/-- Log entry 83: the bytes a frame takes in the buffer of a queue: the frame of R422 less its check sequence. -/
def PortCfg.buffered (c : PortCfg) (f : TxFrame) : Nat :=
  let tag := if c.vlan = 65535 then 0 else 4
  let ip := if f.v6 then 40 else 20
  14 + tag + (match f.carried with
    | .arp _ => 0
    | .icmp _ => ip
    | .udp => ip + 8) + f.bytes.length

/-- R425, R449: a frame goes on queue 0. -/
def Port.queue0 (p : Port) (f : TxFrame) : Port :=
  let q := p.q0 ++ [f]
  { p with q0 := q, q0Peak := max p.q0Peak (q.map p.cfg.buffered).sum, txFrames := p.txFrames + 1 }

/-- R451: hand a response frame to its transport: queue 0 of the port, or the response ring. -/
def State.deliver (s : State) (o : Outgoing) : State :=
  match o.dest.via with
  | .service => s.modRings fun r => { r with rspWaiting := r.rspWaiting ++ [o.bytes] }
  | v =>
    s.modPort (portOf v) fun p =>
      p.queue0 { v6 := o.dest.v6, destIp := o.dest.ip, destPort := o.dest.port, srcPort := p.cfg.cmdPort, bytes := o.bytes }

/-- Deliver every frame on its way out. -/
def State.deliverAll (s : State) : State :=
  { s.each s.jr.outgoing State.deliver with jr := { s.jr with outgoing := [] } }

/-- What closes every command: status words against those before it, occurrences placed in the queues while the Culm
runs, response frames handed to their transports, waiting ones written into the ring. -/
def State.settle (s0 s : State) : State :=
  let s := if s.power.culmUp then s.placeOccurrences else s
  let s := s.deliverAll
  { s with
    time := (TimeBase.refresh s0.time s.time).logTsb s.clock
    power := Power.refresh s0.power s.power
    rings := s.rings.settle }

end Sys2Proof.Machine
end

