-- ==== Sys2Proof/Machine/Rings.lean ====
section
/-! DEFINITION. Pages and item rings: who holds a page (R508 to R512), what a ring holds, who has released it, and the
layouts of records (R174, R215 to R217, R225, R243, R244). -/

namespace Sys2Proof.Machine

/-! ## Pages (R508) -/

/-- Pages of one stook that can be granted; the 64 highest are the module's own (log entry 9). -/
def grantable : Nat := 8128

/-- A page number of a stook. -/
def pageOf (stook i : Nat) : Nat := stook * 8192 + i

def State.page (s : State) (p : Nat) : Page := (aget s.own.pages p).getD {}

/-- Write the entry of a page; a page in the swept pool is not listed. -/
def State.setPage (s : State) (p : Nat) (x : Page) : State :=
  { s with own := { s.own with pages := if x = {} then adel s.own.pages p else aset s.own.pages p x } }

def State.modPage (s : State) (p : Nat) (f : Page → Page) : State := s.setPage p (f (s.page p))

/-- The listed pages of a stook that hold a property, lowest first. -/
def State.pagesWith (s : State) (stook : Nat) (f : Page → Bool) : List Nat :=
  (s.own.pages.filter fun e => e.1 / 8192 == stook && f e.2).map (·.1)

/-- R534: pages a tenant holds in a stook, swept or not. -/
def State.pagesHeld (s : State) (tenant stook : Nat) : Nat :=
  (s.pagesWith stook fun p => p.owner == some (ten tenant)).length

/-- Pages a tenant holds in all stooks. -/
def State.pagesTotal (s : State) (tenant : Nat) : Nat := ((List.range 8).map (s.pagesHeld tenant)).sum

/-- Pages of a tenant in a stook that no ring holds. -/
def State.unringed (s : State) (tenant stook : Nat) : List Nat :=
  s.pagesWith stook fun p => p.owner == some (ten tenant) && !p.inRing

/-- Pages of a tenant that a ring can take: swept and in no ring. -/
def State.freePages (s : State) (tenant stook : Nat) : List Nat :=
  s.pagesWith stook fun p => p.owner == some (ten tenant) && !p.inRing && !p.sweeping

/-- Pages of the pool that are swept, lowest first. -/
def State.poolSwept (s : State) (stook : Nat) : List Nat :=
  let listed := (s.pagesWith stook fun _ => true)
  ((List.range grantable).map (pageOf stook)).filter fun p => !listed.contains p

/-- Pages of the pool still in sweep, lowest first. -/
def State.poolSweeping (s : State) (stook : Nat) : List Nat :=
  s.pagesWith stook fun p => p.owner == none && p.sweeping && !p.retired

/-- R355: the newest entry with the parts of a DRAM address (R320, R328); another entry of the same place within 1 s is merged into it. -/
def State.logDram (s : State) (e : DramLogEntry) : State :=
  let d := s.dram
  let last := (d.logNext + 1023) % 1024
  let same := match aget d.log last with
    | some o => e.kind == 0 && { e with at_ := o.at_, vtSecond := o.vtSecond, count := o.count, generation := o.generation } == o
        && decide (e.at_ ≤ o.at_ + ticksPerSec)
    | none => false
  { s with dram :=
      if same then { d with log := amod d.log last fun o => { o with count := o.count + 1 } }
      else { d with log := aset d.log d.logNext e, logNext := (d.logNext + 1) % 1024 } }

/-- An entry of the DRAM error log that happens now. -/
def State.dramEntry (s : State) (kind controller : Nat) : DramLogEntry :=
  { at_ := s.clock, vtSecond := s.time.vtSec, kind, controller, generation := s.jr.generation }

/-- R326: the retirement list: the pages never granted again. -/
def State.retiredPages (s : State) (stook : Nat) : List Nat := s.pagesWith stook (·.retired)

/-- R326: whether the retirement list has room. -/
def State.retireRoom (s : State) : Bool := decide (((List.range 8).map fun k => (s.retiredPages k).length).sum < 1024)

/-- R326: a page leaves its owner and is never granted again; with the list full it only loses its mark. -/
def State.retirePage (s : State) (p : Nat) : State :=
  if s.retireRoom then (s.setPage p { retired := true }).logDram { s.dramEntry 2 (p / 8192) with page := p }
  else s.modPage p fun x => { x with markRetire := false }

/-- R509: one more sweep of this commit step for a tenant. -/
def State.sweepStarted (s : State) (t : Nat) : State :=
  s.modTenant t fun x =>
    if x.sweeps.any fun e => e.second == s.time.vtSec then
      { x with sweeps := x.sweeps.map fun e => if e.second = s.time.vtSec then { e with left := e.left + 1 } else e }
    else { x with sweeps := x.sweeps ++ [{ second := s.time.vtSec, left := 1 }] }

/-- R509: a sweep of a commit step is over for a tenant; the event comes when none of that step is left. -/
def State.sweepOver (s : State) (t : Nat) (second : U48) (pages channels : Nat) : State :=
  let s := s.modTenant t fun x => { x with sweeps := x.sweeps.map fun e =>
    if e.second = second then { e with left := e.left - 1, pages := e.pages + pages, channels := e.channels + channels } else e }
  match (s.tenant t).sweeps.find? fun e => e.second == second && e.left == 0 with
  | some e =>
    let s := s.modTenant t fun x => { x with sweeps := x.sweeps.filter fun e => e.second != second }
    s.raise 0x503 (w32 e.pages ++ w8 e.channels) [t]
  | none => s

/-- A page whose sweep runs for a tenant is no longer waited for by it. -/
def State.sweepForgone (s : State) (p : Nat) : State :=
  match (s.page p).owner with
  | some t => if (s.page p).sweeping then s.sweepOver t.val (s.page p).step 0 0 else s
  | none => s

/-- R510: start the sweep of a page for its holder; a page marked for retirement is retired by the change of owner (R326). -/
def State.sweepPage (s : State) (p : Nat) (owner : Option (Fin 256)) : State :=
  let s := s.sweepForgone p
  let s := if (s.page p).markRetire then s.retirePage p else s
  if (s.page p).retired then s
  else
    let s := s.setPage p { owner, sweeping := true, step := if owner.isSome then s.time.vtSec else 0 }
    match owner with
    | some t => s.sweepStarted t.val
    | none => s

/-- R509: the sweep of a page completes: it is its owner's, or in the pool; it is counted (R535). -/
def State.pageSwept (s : State) (p : Nat) : State :=
  let x := s.page p
  if !x.sweeping then s
  else
    let s := s.setPage p { x with sweeping := false, step := 0 }
    let s := { s with own := { s.own with swept := s.own.swept + 1 } }
    match x.owner with
    | some t => s.sweepOver t.val x.step 1 0
    | none => s

/-- R508: pages return to the pool and are swept. -/
def State.returnPages (s : State) (ps : List Nat) : State := s.each ps fun s p => s.sweepPage p none

/-- R215: take so many swept pages of a tenant for a ring. -/
def State.takePages (s : State) (tenant stook n : Nat) : Option (List Nat × State) :=
  let free := s.freePages tenant stook
  if free.length < n then none
  else
    let ps := free.take n
    some (ps, s.each ps fun s p => s.modPage p fun x => { x with inRing := true })

/-- R326: a page leaves its ring; one marked for retirement leaves its tenant as well. -/
def State.freeRingPage (s : State) (p : Nat) : State :=
  let s := s.modPage p fun x => { x with inRing := false }
  if (s.page p).markRetire then s.retirePage p else s

/-! ## Layouts -/

/-- R174: the 32 bytes of a trigger descriptor. -/
def Descriptor.bytes (d : Descriptor) : Bytes :=
  w8 d.route ++ w8 d.sourceKind ++ w8 d.sourceIndex ++ [d.flags] ++ w16 d.triggerId.toNat ++ w8 d.origin.toNat
    ++ [d.tsb] ++ vt96Bytes d.tag ++ w32 d.coincident.toNat ++ w32 d.discarded.toNat ++ w32 d.generation.toNat

/-- R225: the 32 bytes of an overflow mark, its check computed. -/
def Mark.bytes (m : Mark) : Bytes :=
  let b := w8 1 ++ w8 m.reason ++ w8 m.channel ++ w8 m.mode ++ w32 m.lastGoodIndex.toNat ++ vt80Bytes m.lastGoodVt
    ++ [m.port] ++ w8 0 ++ w32 m.triggersLost.toNat ++ w32 m.generation.toNat
  b ++ w32 (crc32c b).toNat

/-- R244: one entry of the flag map. -/
def FlagRun.entry (r : FlagRun) : Bytes := w32 r.start.toNat ++ leBytes 3 r.len.toNat ++ w8 r.flags.toNat

/-- R244: at most 4,096 entries; the last of more runs on to the end with the OR of the flags. -/
def coarsenRuns (count : Nat) (runs : List FlagRun) : List FlagRun × Bool :=
  if runs.length ≤ 4096 then (runs, false)
  else
    let rest := runs.drop 4095
    let start := (rest.head?.map (·.start.toNat)).getD 0
    let flags := rest.foldl (fun f r => f ||| r.flags) (0 : BitVec 4)
    (runs.take 4095 ++ [⟨BitVec.ofNat 32 start, BitVec.ofNat 24 (min (count - start) (2 ^ 24 - 1)), flags⟩], true)

/-- R243: the 128-byte header. -/
def Record.header (r : Record) : Bytes :=
  w16 128 ++ w8 1 ++ w8 r.kind ++ w8 r.channel ++ w8 r.tenant.val ++ w8 r.dataFormat ++ [r.tsb] ++ w64 r.recordId.toNat
    ++ vt80Bytes r.firstVt ++ w8 r.endCause ++ [r.flags] ++ w32 r.count.toNat ++ w32 r.genFirst.toNat
    ++ w32 r.genLast.toNat ++ w8 r.decim ++ w8 r.fir ++ w8 r.range ++ w8 r.filter ++ w8 r.coupling ++ zeros 3
    ++ w64 (200000 * 2 ^ r.decim) ++ w32 r.firstIndex.toNat ++ w32 r.acquisitionId.toNat ++ r.trigger.bytes
    ++ w32 r.pre.toNat ++ w32 r.segmentIndex.toNat ++ w32 r.missed.toNat ++ w32 r.accumCount.toNat
    ++ w32 r.rejected.toNat ++ vt80Bytes r.lastVt ++ w16 r.runs.length

/-- R243, R244: header, padded payload, flag map, and the overflow mark where end_cause is 1. -/
def Record.bytes (r : Record) : Bytes :=
  r.header ++ pad8 r.payload ++ (r.runs.map FlagRun.entry).flatten ++ ((r.mark.map Mark.bytes).getD [])

def stampBytes (es : List U64) : Bytes := (es.map fun e => w64 e.toNat).flatten

/-- R427: the bytes of an item. -/
def ItemBody.bytes : ItemBody → Bytes
  | .record r => r.bytes
  | .stamps _ es => stampBytes es
  | .result b => b

/-- The length of an item without forming it. -/
def ItemBody.size : ItemBody → Nat
  | .record r => 128 + (r.payload.length + 7) / 8 * 8 + 8 * r.runs.length + (if r.mark.isSome then 32 else 0)
  | .stamps _ es => 8 * es.length
  | .result b => b.length

/-- R427: the item_id: a record_id, the ring index of a frame's marker, or a result_seq. -/
def Item.itemId (i : Item) : Nat :=
  match i.body with
  | .stamps f _ => f.index
  | _ => i.id

/-! ## Rings (R216, R217) -/

def State.ring (s : State) : RingId → Ring
  | .record c => (s.chan c.val).ring
  | .circular c => (s.chan c.val).circ
  | .stamps i => (s.source i.val).ring
  | .results i => ((aget s.insts i.val).map (·.ring)).getD {}

def State.modRing (s : State) (r : RingId) (f : Ring → Ring) : State :=
  match r with
  | .record c => s.modChan c.val fun x => { x with ring := f x.ring }
  | .circular c => s.modChan c.val fun x => { x with circ := f x.circ }
  | .stamps i => s.modSource i.val fun x => { x with ring := f x.ring }
  | .results i => s.modInst i.val fun x => { x with ring := f x.ring }

/-- The tenant that owns a ring. -/
def State.ringOwner (s : State) : RingId → Nat
  | .record c => s.chanOwner c.val
  | .circular c => s.chanOwner c.val
  | .stamps i => s.sourceOwner i.val
  | .results i => ((aget s.insts i.val).map (·.owner.val)).getD 0

/-- A frame of stamps that is still being written. -/
def Item.openFrame (i : Item) : Bool :=
  !i.complete && (match i.body with
    | .stamps .. => true
    | _ => false)

/-- A frame whose oldest entries are overwritten. -/
def Item.headless (i : Item) : Bool :=
  match i.body with
  | .stamps f _ => f.headless
  | _ => false

/-- R216, R264: whether every registered consumer has released an item; a ring without any reclaims its entries as it writes. -/
def Ring.released (r : Ring) (i : Item) : Bool :=
  (i.complete || (r.consumers.isEmpty && i.openFrame)) && r.consumers.all fun c => i.releasedBy.contains c

/-- R216: the items not yet reclaimed; space is reclaimed from the oldest end only. -/
def Ring.held (r : Ring) : List Item := r.items.dropWhile r.released

def Ring.capacity (r : Ring) : Nat := r.pages.length * 2097152

def itemsSize (l : List Item) : Nat := (l.map fun i => i.body.size).sum

/-- R251: reclaimable pages. -/
def Ring.freePages (r : Ring) : Nat := r.pages.length - (itemsSize r.held + 2097151) / 2097152

/-- R217: whether so many bytes can be written without overwriting an item some consumer has not released. -/
def Ring.hasRoom (r : Ring) (n : Nat) : Bool := decide (itemsSize r.held + n ≤ r.capacity)

/-- Drop the oldest items until so many bytes fit. -/
def overwriteOldest (cap : Nat) : List Item → List Item
  | [] => []
  | i :: l => if itemsSize (i :: l) ≤ cap then i :: l else overwriteOldest cap l

/-- R264: a frame without its oldest `n` entries. -/
def Item.behead (n : Nat) (i : Item) : Item :=
  match i.body with
  | .stamps f es =>
    let stamps := if f.headless then n else n - 1
    { i with body := .stamps { f with headless := f.headless || decide (0 < n), level := if f.slope = 2 then (f.level + stamps) % 2 else f.level } (es.drop n) }
  | _ => i

/-- R264: drop the oldest entries of a stamp ring until so many bytes fit, of the frame being written those that are oldest. -/
def overwriteStamps (cap : Nat) : List Item → List Item
  | [] => []
  | [i] => if i.body.size ≤ cap then [i] else if i.complete then [] else [i.behead ((i.body.size - cap + 7) / 8)]
  | i :: l => if itemsSize (i :: l) ≤ cap then i :: l else overwriteStamps cap l

/-- Write an item, overwriting the oldest reclaimed ones. -/
def Ring.push (r : Ring) (i : Item) : Ring :=
  { r with items := overwriteOldest (r.capacity - i.body.size) r.items ++ [i] }

/-- R217: write an item, or make the writer wait. -/
def State.pushItem (s : State) (id : RingId) (i : Item) : Bool × State :=
  let r := s.ring id
  if r.hasRoom i.body.size then (true, s.modRing id fun r => { r.push i with waiting := false })
  else (false, s.modRing id fun r => { r with waiting := true })

/-- R216: a consumer releases its oldest unreleased item. -/
def releaseOldest (c : Consumer) : List Item → List Item
  | [] => []
  | i :: l =>
    if i.complete && !i.releasedBy.contains c then { i with releasedBy := i.releasedBy ++ [c] } :: l
    else i :: releaseOldest c l

def Ring.release (r : Ring) (c : Consumer) : Ring := { r with items := releaseOldest c r.items }

/-- The oldest item a consumer has not released, complete. -/
def Ring.nextFor (r : Ring) (c : Consumer) : Option Item :=
  r.items.find? fun i => i.complete && !i.releasedBy.contains c

/-- R216: register a consumer; it takes the items written from now on, of stamps from the next marker still held. -/
def Ring.register (r : Ring) (c : Consumer) : Ring :=
  if r.consumers.contains c then r
  else { r with consumers := r.consumers ++ [c]
                items := r.items.map fun i =>
                  if i.complete || i.headless then { i with releasedBy := i.releasedBy ++ [c] } else i }

/-- R441, R310: a consumer's registration ends at once. -/
def Ring.deregister (r : Ring) (c : Consumer) : Ring :=
  { r with consumers := r.consumers.filter (· != c)
           items := r.items.map fun i => { i with releasedBy := i.releasedBy.filter (· != c) } }

/-- Pages a ring takes in a stook for a tenant, in place of the pages it had, keeping them where their number stands. -/
def State.sizeRing (s : State) (id : RingId) (tenant stook n : Nat) : Option State :=
  let old := (s.ring id).pages
  if old.length = n ∧ old.all (· / 8192 == stook) then some s
  else
    let s := s.each old State.freeRingPage
    match s.takePages tenant stook n with
    | some (ps, s) => some (s.modRing id fun r => { r with pages := ps, items := [], waiting := false })
    | none => none

/-- A ring gives its pages back to their tenant and is empty. -/
def State.dropRing (s : State) (id : RingId) : State :=
  let s := s.each (s.ring id).pages State.freeRingPage
  s.modRing id fun r => { r with pages := [], items := [], waiting := false }

/-- Rings that hold a page: every ring of the module. -/
def State.ringIds (s : State) : List RingId :=
  (List.range 128).flatMap (fun c => [.record (Fin.ofNat 128 c), .circular (Fin.ofNat 128 c)])
    ++ (List.range 132).map (fun i => .stamps (Fin.ofNat 132 i))
    ++ (s.insts.filter fun e => decide (e.1 < 1024)).map (fun e => resultRing e.1)

end Sys2Proof.Machine
end

