-- ==== Sys2Proof/Machine/Streams.lean ====
section
/-! DEFINITION. Streams, transfers and the frames they send (R423 to R443): destinations, data frames, VDIF frames,
rates, and how a stream stops. -/

namespace Sys2Proof.Machine

/-! ## Destinations (R421 to R423) -/

/-- R423: a multicast destination needs no resolution. -/
def isMulticast (v6 : Bool) (ip : BitVec 128) : Bool :=
  if v6 then ip.extractLsb' 120 8 == 0xFF else ip.extractLsb' 28 4 == 0xE

/-- R421: an IPv6 link-local address. -/
def isLinkLocal (ip : BitVec 128) : Bool := ip.extractLsb' 118 10 == 0x3FA

/-- R423: the address to resolve for a destination: itself, or the gateway when it lies off-link. -/
def PortCfg.nextHop (p : PortCfg) (v6 : Bool) (ip : BitVec 128) : BitVec 128 :=
  if v6 then
    (if p.ip6 >>> (128 - p.prefix6) == ip >>> (128 - p.prefix6) || isLinkLocal ip then ip else p.gw6)
  else
    let a : U32 := ip.setWidth 32
    if p.ip4 >>> (32 - p.prefix4) == a >>> (32 - p.prefix4) then ip else p.gw4.setWidth 128

/-- R422, R423: whether a destination is resolved on a port. -/
def Port.resolves (p : Port) (v6 : Bool) (ip : BitVec 128) : Bool :=
  isMulticast v6 ip ||
  (let hop := p.cfg.nextHop v6 ip
   if v6 then p.ndp.any (·.1 == hop) else p.arp.any (·.1 == hop.setWidth 32))

/-! ## Quench (R443, R444) -/

/-- R192: a Rachis quench stands: the module's own, or the fast level of an up port. -/
def State.rachisQuench (s : State) : Bool :=
  s.rachis.ownQuench || (List.range 4).any fun p => (s.rport p).fastIn && (s.rport p).state == .up

/-- R443: any path quenches. -/
def State.quenched (s : State) : Bool := s.quench.pin || s.quench.mgmt || s.rachisQuench

/-- R444: QUENCH_STATUS. -/
def State.quenchWord (s : State) : Nat :=
  boolNat s.quench.pin + 2 * boolNat s.quench.mgmt + 4 * boolNat s.rachisQuench + 8 * boolNat s.quenched
    + 2 ^ 8 * s.quench.count.toNat

/-! ## Data frames (R427) -/

/-- The fields of a data frame beside its payload. -/
structure DataHead where
  frameType : Nat
  first : Bool := true
  last : Bool := true
  gap : Bool := false
  stream : Nat := 0xFF
  tenant : Nat
  journal : Nat := 0xFFFF
  frameSeq : U32
  itemId : Nat := 0
  offset : Nat := 0
  itemLen : Nat
  genLast : U32

/-- R427: a data frame with its damage entries and CRC. -/
def dataFrame (h : DataHead) (payload : Bytes) (damage : List (Nat × Nat)) : Bytes :=
  let flags := boolNat h.first + 2 * boolNat h.last + 4 * boolNat (!damage.isEmpty) + 8 * boolNat h.gap
  let b := [0x43, 0x4C, 0x44, 0x46] ++ w8 1 ++ w8 h.frameType ++ w8 flags ++ w8 h.stream ++ w8 h.tenant
    ++ w8 damage.length ++ w16 h.journal ++ w32 h.frameSeq.toNat ++ w64 h.itemId ++ w32 h.offset ++ w32 h.itemLen
    ++ w16 payload.length ++ w16 0 ++ w32 h.genLast.toNat ++ payload
    ++ (damage.map fun d => w32 d.1 ++ w32 d.2).flatten
  b ++ w32 (crc32c b).toNat

/-- Enter an extent in a list of runs in ascending order that do not touch; runs it touches become one with it. -/
def insertRun (e : Nat × Nat) : List (Nat × Nat) → List (Nat × Nat)
  | [] => [e]
  | x :: l =>
    if x.1 + x.2 < e.1 then x :: insertRun e l
    else if e.1 + e.2 < x.1 then e :: x :: l
    else insertRun (min x.1 e.1, max (x.1 + x.2) (e.1 + e.2) - min x.1 e.1) l

/-- R428: the runs of damage within a fragment, cut to it, in ascending order. -/
def damageIn (off len : Nat) (d : List (Nat × Nat)) : List (Nat × Nat) :=
  (d.foldr insertRun []).filterMap fun e =>
    let a := max e.1 off
    let b := min (e.1 + e.2) (off + len)
    if a < b then some (a, b - a) else none

/-- R428: the payload carries zeros where it is damaged. -/
def blank (off : Nat) (p : Bytes) (d : List (Nat × Nat)) : Bytes :=
  d.foldl (fun p e => p.take (e.1 - off) ++ zeros e.2 ++ p.drop (e.1 - off + e.2)) p

/-- R429: the payload bytes a fragment can carry with so many damage entries. -/
def fragmentMax (mtu : Nat) (v6 : Bool) (entries : Nat) : Nat :=
  mtu - (if v6 then 40 else 20) - 8 - 44 - 8 * entries

/-- R428, R429: the length and damage of the fragment at an offset: at most 15 entries, and all of it within the MTU. -/
def fragment (mtu : Nat) (v6 : Bool) (total off : Nat) (d : List (Nat × Nat)) : Nat × List (Nat × Nat) :=
  let whole := min (total - off) (fragmentMax mtu v6 0)
  let n := min 15 (damageIn off whole d).length
  let len := min (total - off) (fragmentMax mtu v6 n)
  let ds := damageIn off len d
  match ds[15]? with
  | some e => (e.1 - off, ds.take 15)
  | none => (len, ds)

/-- Queue a data frame of a port (R425, R426). -/
def State.queueData (s : State) (port queue : Nat) (f : TxFrame) : State :=
  s.modPort port fun p =>
    if queue = 0 then p.queue0 f
    else { p with data := p.data ++ [(queue, f)], txFrames := p.txFrames + 1 }

/-! ## Frames of the network layer (R421, R422; log entry 26) -/

/-- A number from bytes in network order (R8). -/
def beNat (bs : Bytes) : Nat := leNat bs.reverse

/-- `n` bytes of a number in network order. -/
def beBytes (n v : Nat) : Bytes := (leBytes n v).reverse

/-- The bytes of an address in network order. -/
def ipBytes (v6 : Bool) (ip : BitVec 128) : Bytes := if v6 then beBytes 16 ip.toNat else beBytes 4 (ip.setWidth 32).toNat

def macBytes (m : U48) : Bytes := w48 m.toNat

/-- The 16-bit ones' complement sum of bytes. -/
def inetSum : Bytes → Nat → Nat
  | a :: b :: l, acc => inetSum l (acc + a.toNat * 256 + b.toNat)
  | [a], acc => acc + a.toNat * 256
  | [], acc => acc

def inetCheck (bs : Bytes) : Nat :=
  let s := inetSum bs 0
  let s := s % 65536 + s / 65536
  let s := s % 65536 + s / 65536
  65535 - s % 65536

/-- An ICMP message with its checksum; over IPv6 the pseudo-header is covered. -/
def icmpMessage (v6 : Bool) (src dst : BitVec 128) (type : Nat) (body : Bytes) : Bytes :=
  let head := beBytes 1 type ++ beBytes 1 0
  let pseudo := if v6 then ipBytes true src ++ ipBytes true dst ++ beBytes 4 (4 + body.length) ++ zeros 3 ++ beBytes 1 58 else []
  head ++ beBytes 2 (inetCheck (pseudo ++ head ++ zeros 2 ++ body)) ++ body

/-- R421: the link-local address of a port, by modified EUI-64. -/
def linkLocal (p : Nat) : BitVec 128 :=
  let m := macBytes (Config.mac p)
  BitVec.ofNat 128 (beNat ([0xFE, 0x80] ++ zeros 6 ++ (m.take 3).mapIdx (fun i b => if i = 0 then b ^^^ 2 else b) ++ [0xFF, 0xFE]
    ++ m.drop 3))

/-- An ARP packet of a port. -/
def arpPacket (p : Nat) (c : PortCfg) (op : Nat) (targetMac : U48) (targetIp : U32) : Bytes :=
  beBytes 2 1 ++ beBytes 2 0x0800 ++ beBytes 1 6 ++ beBytes 1 4 ++ beBytes 2 op ++ macBytes (Config.mac p)
    ++ beBytes 4 c.ip4.toNat ++ macBytes targetMac ++ beBytes 4 targetIp.toNat

/-- R425: queue a frame on queue 0 of a port. -/
def State.queueControl (s : State) (port : Nat) (f : TxFrame) : State := s.queueData port 0 f

/-- The solicited-node multicast address of an address. -/
def solicitedNode (ip : BitVec 128) : BitVec 128 := 0xFF0200000000000000000001FF000000 ||| (ip &&& 0xFFFFFF)

/-- R422: ask for the address of a next hop: an ARP request or a neighbour solicitation. -/
def State.askAddress (s : State) (port : Nat) (v6 : Bool) (hop : BitVec 128) : State :=
  let c := (s.port port).cfg
  if v6 then
    let dst := solicitedNode hop
    s.queueControl port { v6 := true, destIp := dst, carried := .icmp c.ip6
                          bytes := icmpMessage true c.ip6 dst 135 (zeros 4 ++ ipBytes true hop ++ beBytes 1 1 ++ beBytes 1 1
                            ++ macBytes (Config.mac port)) }
  else s.queueControl port { destIp := hop, carried := .arp 0xFFFFFFFFFFFF, bytes := arpPacket port c 1 0 (hop.setWidth 32) }

/-- R423: a port asks for the address a destination needs, where it does not know it. -/
def State.seek (s : State) (port : Nat) (v6 : Bool) (ip : BitVec 128) : State :=
  let p := s.port port
  if p.resolves v6 ip then s else s.askAddress port v6 (p.cfg.nextHop v6 ip)

/-! ## Streams (R431 to R434) -/

/-- R431: the ring a stream takes its items from. -/
def State.streamRing (s : State) (c : StreamCfg) : RingId :=
  if c.kind = 1 then .circular (Fin.ofNat 128 c.input)
  else if c.kind = 2 then
    (if (s.chan c.input).capture.mode = 2 ∨ (s.chan c.input).capture.mode = 3 then .circular (Fin.ofNat 128 c.input)
     else .record (Fin.ofNat 128 c.input))
  else if c.kind = 3 then .stamps (Fin.ofNat 132 c.input)
  else resultRing c.input

/-- R243: data_format of a channel's live settings: a sample format, or the width of an average. -/
def Channel.dataFormat (c : Channel) : Nat :=
  if c.reduction.k = 0 then c.fe.sampleFormat else if c.reduction.outWidth = 0 then 3 else 4

/-- R432: bytes on the wire of a UDP datagram: preamble, header, tag, FCS and gap included. -/
def wireBytes (p : PortCfg) (v6 : Bool) (udp : Nat) : Nat :=
  udp + 8 + (if v6 then 40 else 20) + 14 + (if p.vlan = 65535 then 0 else 4) + 4 + 8 + 12

/-- Bytes of one VDIF frame. -/
def StreamCfg.vdifBytes (c : StreamCfg) : Nat := 32 + c.vdifSpf * c.vdifBits / 8

/-- R432: the admitted rate of a stream, bytes per second on the wire. -/
def State.streamRate (s : State) (c : StreamCfg) : Nat :=
  if c.kind = 1 then
    5000000000 / 2 ^ (s.chan c.input).reduction.k / (max c.vdifSpf 1)
      * wireBytes (s.port c.port).cfg c.v6 c.vdifBytes
  else c.rateLimit * 1000000

/-- R432: the sum over the running streams that hold a property. -/
def State.rateSum (s : State) (f : Stream → Bool) : Nat :=
  ((List.range 128).map fun i =>
    let x := s.stream i
    match x.cfg with
    | some c => if x.running && f x then s.streamRate c else 0
    | none => 0).sum

/-- R432: the admitted rate of a host port. -/
def State.portRate (s : State) (p : Nat) : Nat :=
  s.rateSum fun x => (x.cfg.map (·.port)) == some p

/-- R505: the admitted rate of a tenant's streams. -/
def State.tenantRate (s : State) (t : Nat) : Nat := s.rateSum fun x => x.owner == ten t

/-- R442: what is left of the lease, ms. -/
def State.leaseLeft (s : State) (x : Stream) : Nat := if x.running then (x.leaseUntil - s.clock) / 625000 else 0

/-- R434: items older than lag_ms that have not been queued. -/
def State.lagItems (s : State) (i : Nat) (c : StreamCfg) : List Item :=
  (s.ring (s.streamRing c)).items.filter fun it =>
    it.complete && !it.releasedBy.contains (.stream (Fin.ofNat 128 i)) && decide (it.born + ticksOfMs c.lagMs < s.clock)

/-- The transmit form of a stream's frame. -/
def streamTx (c : StreamCfg) (b : Bytes) : TxFrame :=
  { v6 := c.v6, destIp := c.destIp, destPort := c.destPort, srcPort := c.srcPort, bytes := b, dscp := c.dscp, pcp := c.pcp }

/-- Queue a frame of a stream and count it. -/
def State.sendStream (s : State) (i : Nat) (c : StreamCfg) (queue : Nat) (b : Bytes) : State :=
  let wire := wireBytes (s.port c.port).cfg c.v6 b.length
  (s.queueData c.port queue (streamTx c b)).modStream i fun x =>
    { x with framesSent := x.framesSent + 1, bytesSent := x.bytesSent + BitVec.ofNat 64 b.length
             framesThis := x.framesThis + 1, bytesThis := x.bytesThis + BitVec.ofNat 64 b.length
             frameSeq := x.frameSeq + 1
             recent := (s.clock, wire) :: x.recent.filter fun e => decide (s.clock ≤ e.1 + ticksOfUs 100) }

/-- The head of a frame of a stream that carries no item (R439, R440). -/
def State.controlHead (s : State) (i : Nat) (frameType len : Nat) : DataHead :=
  { frameType, stream := i, tenant := (s.stream i).owner.val, frameSeq := (s.stream i).frameSeq, itemLen := len
    genLast := s.jr.generation }

/-- R440: the payload of an end frame. -/
def endPayload (cause : Nat) (x : Stream) : Bytes := w8 cause ++ zeros 3 ++ w32 x.lastItem.toNat

/-- R440: the queue an end frame takes. -/
def State.endQueue (s : State) (c : StreamCfg) : Nat := if s.quenched then 0 else c.queue

/-- R440: of several causes in one CORE tick the stream records the lowest-numbered: the end frame still queued gives way to one with that cause. -/
def State.reviseStop (s : State) (i : Nat) (c : StreamCfg) (cause : Nat) : State :=
  let x := s.stream i
  match x.ended with
  | some (tick, old) =>
    if tick = s.coreOf s.clock ∧ cause < x.lastCause then
      let b := dataFrame { s.controlHead i 5 8 with frameSeq := x.frameSeq - 1 } (endPayload cause x) []
      let was := streamTx c old
      let s := s.modPort c.port fun p =>
        { p with q0 := p.q0.filter (· != was), data := p.data.filter (·.2 != was), txFrames := p.txFrames - 1 }
      (s.queueData c.port (s.endQueue c) (streamTx c b)).modStream i fun x => { x with lastCause := cause, ended := some (tick, b) }
    else s
  | none => s

/-- R440: stop a running stream with a cause: its end frame, its registration, its journal entry (R441, R482). -/
def State.stopStream (s : State) (i cause : Nat) : State :=
  let x := s.stream i
  match x.cfg, x.running with
  | some c, true =>
    let b := dataFrame (s.controlHead i 5 8) (endPayload cause x) []
    let s := s.sendStream i c (s.endQueue c) b
    let s := s.modRing (s.streamRing c) (·.deregister (.stream (Fin.ofNat 128 i)))
    let s := s.withEntry x.journal State.completeEntry
    s.modStream i fun x =>
      { x with running := false, lastCause := cause, item := none, itemPos := 0, damage := [], journal := none, ended := some (s.coreOf s.clock, b) }
  | some c, false => s.reviseStop i c cause
  | none, _ => s

/-- Stop every running stream that takes its items from a ring (cause 5 of R440). -/
def State.stopStreamsOn (s : State) (r : RingId) (cause : Nat) : State :=
  s.each (List.range 128) fun s i =>
    match (s.stream i).cfg with
    | some c => if s.streamRing c = r then s.stopStream i cause else s
    | none => s

/-- R443: what the assertion of a quench path does to streams, queues and transfers on the host ports. -/
def State.applyQuench (s : State) : State :=
  let s := s.each (List.range 128) fun s i => s.stopStream i 1
  let s := s.each [0, 1] fun s p => s.modPort p fun x => { x with data := [], txFrames := x.txFrames - BitVec.ofNat 64 x.data.length }
  let ended := s.transfers.filter fun t => t.port < 2
  let s := s.each ended fun s t => s.partialEntry t.journal 1
  { s with transfers := s.transfers.filter fun t => 2 ≤ t.port }

/-- R443, R444: a quench path is asserted. -/
def State.quenchAssert (s : State) : State :=
  let s := { s with quench := { s.quench with count := s.quench.count + 1 } }
  s.applyQuench

/-! ## Items as frames (R427 to R429) -/

/-- The frame type, item_id and last generation of an item. -/
def Item.frameType (i : Item) : Nat :=
  match i.body with
  | .record _ => 1 | .stamps .. => 2 | .result _ => 3

/-- R429: send the next fragment of a stream's present item; when it was the last, the item is released (R431). -/
def State.sendFragment (s : State) (i : Nat) (c : StreamCfg) (it : Item) : State :=
  let x := s.stream i
  let b := it.body.bytes
  let (len, d) := fragment (s.port c.port).cfg.mtu c.v6 b.length x.itemPos x.damage
  let last := decide (b.length ≤ x.itemPos + len)
  let h : DataHead :=
    { frameType := it.frameType, first := x.itemPos == 0, last, gap := x.gap && x.itemPos == 0, stream := i
      tenant := x.owner.val, frameSeq := x.frameSeq, itemId := it.itemId, offset := x.itemPos, itemLen := b.length
      genLast := it.generation }
  let s := s.sendStream i c c.queue (dataFrame h (blank x.itemPos (part b x.itemPos len) d) d)
  if last then
    let s := s.modRing (s.streamRing c) (·.release (.stream (Fin.ofNat 128 i)))
    let s := s.withEntry x.journal fun s j => s.addUnits j 1
    s.modStream i fun x => { x with item := none, itemPos := 0, damage := [], gap := false, lastItem := BitVec.ofNat 32 it.itemId }
  else s.modStream i fun x => { x with item := some it.id, itemPos := x.itemPos + len, gap := false }

/-! ## VDIF (R435 to R437) -/

/-- One output of a payload in its data format (R115, R230). -/
def outputAt (fmt : Nat) (p : Bytes) (j : Nat) : Int :=
  if fmt = 0 then s16 p (2 * j)
  else if fmt = 1 then s16 p (2 * j) / 16
  else if fmt = 2 then
    let w := leNat (part p (j / 2 * 3) 3)
    signed 12 (if j % 2 = 0 then w % 4096 else w / 4096)
  else if fmt = 3 then s16 p (2 * j)
  else signed 24 (leNat (part p (3 * j) 3))

/-- Division rounded to nearest with ties away from zero. -/
def roundAway (x : Int) (d : Nat) : Int :=
  if 0 ≤ x then (x * 2 + d) / (2 * d) else -((-x * 2 + d) / (2 * d))

/-- R436: the code of an output, in offset binary. -/
def vdifCode (fmt bits shift : Nat) (x : Int) : Nat :=
  if bits = 16 then ((if fmt = 3 then x + 32768 else x * 16 + 32768).emod 65536).toNat
  else (max (-128) (min 127 (roundAway x (2 ^ (if fmt = 3 then shift + 4 else shift)))) + 128).toNat

/-- Whether an output carries a flag. -/
def Record.flagged (r : Record) (j : Nat) : Bool :=
  r.runs.any fun e => decide (e.start.toNat ≤ j ∧ j < e.start.toNat + e.len.toNat) && e.flags != 0

/-- R115, R230: the bytes of a record that hold output j of its payload: where they begin and how many. -/
def Record.outputPlace (r : Record) (j : Nat) : Nat × Nat :=
  if r.dataFormat = 2 then (128 + j / 2 * 3 + j % 2, 2) else if r.dataFormat = 4 then (128 + 3 * j, 3) else (128 + 2 * j, 2)

/-- R325: whether an output of a record lies in damaged extents of it. -/
def Record.damagedAt (r : Record) (damage : List (Nat × Nat)) (j : Nat) : Bool :=
  !(damageIn (r.outputPlace j).1 (r.outputPlace j).2 damage).isEmpty

/-- The time of output j of a record, in units of 2⁻⁴⁸ fs, its seconds resolved against the present (R65, R67): exact beyond the first output's. -/
def State.outputFine (s : State) (r : Record) (j : Nat) : Nat :=
  let sec := rebuild s.time.vtSec.toNat ((r.firstVt >>> 48).toNat) 32
  (sec * 2 ^ 48 + (r.firstVt.setWidth 48).toNat) * 1000000000000000 + j * (200000 * 2 ^ r.decim) * 2 ^ 48

/-- The same in units of 2⁻⁴⁸ s. -/
def State.outputTime (s : State) (r : Record) (j : Nat) : Nat := s.outputFine r j / 1000000000000000

/-- R437: the number of output j of a record within its VT second. -/
def State.outputInSec (s : State) (r : Record) (j : Nat) : Nat :=
  s.outputFine r j % (2 ^ 48 * 1000000000000000) / (200000 * 2 ^ r.decim * 2 ^ 48)

/-- R435: the first four words of the header, and the extended data version. -/
def vdifHeader (invalid : Bool) (sec epoch frame words bits thread station : Nat) : Bytes :=
  w32 (sec % 2 ^ 30 + 2 ^ 31 * boolNat invalid) ++ w32 (frame % 2 ^ 24 + 2 ^ 24 * (epoch % 64))
    ++ w32 (words % 2 ^ 24) ++ w32 (station + 2 ^ 16 * thread + 2 ^ 26 * (bits - 1)) ++ zeros 16

/-- R653: the half-years since 2000 and the naive UTC second at which the half-year of a VT second starts. -/
def State.vdifEpoch (s : State) (sec : Nat) : Nat × Nat :=
  match civilOfVt s.time.leaps true sec with
  | some c =>
    let second := decide (7 ≤ c.month)
    ((c.year - 2000) * 2 + boolNat second, dayNumber c.year (if second then 7 else 1) 1 * 86400)
  | none => (0, 0)

/-- The outputs of a ring's records from a position, at most `n` of them: record and index of each. -/
def takeOutputs : List Record → Nat → Nat → List (Record × Nat)
  | [], _, _ => []
  | r :: l, pos, n =>
    let here := (List.range (min n (r.count.toNat - pos))).map fun j => (r, pos + j)
    if here.length < n then here ++ takeOutputs l 0 (n - here.length) else here

/-- The records of a ring a stream has not released, oldest first. -/
def Ring.recordsFor (r : Ring) (c : Consumer) : List (Nat × Record) :=
  r.items.filterMap fun i =>
    if i.complete && !i.releasedBy.contains c then
      match i.body with
      | .record x => some (i.id, x)
      | _ => none
    else none

/-- Move a stream's position on by `n` outputs, releasing the records it has used up. -/
def State.advanceVdif (s : State) (i : Nat) (ring : RingId) : List (Nat × Record) → Nat → Nat → State
  | [], _, _ => s
  | (id, r) :: l, pos, n =>
    if pos + n < r.count.toNat then s.modStream i fun x => { x with itemPos := pos + n }
    else
      let s := s.modRing ring (·.release (.stream (Fin.ofNat 128 i)))
      let s := s.withEntry (s.stream i).journal fun s j => s.addUnits j 1
      let s := s.modStream i fun x => { x with itemPos := 0, damage := [], lastItem := BitVec.ofNat 32 id }
      s.advanceVdif i ring l 0 (pos + n - r.count.toNat)

/-- R433, R435 to R437: send the next VDIF frame of a kind 1 stream: outputs up to the next frame boundary are passed
over, those of an inserted leap second are not sent, a damaged output is sent as zero in a frame marked invalid (log entry 251), and a frame
waits until 50 µs after its first sample. -/
def State.sendVdif (s : State) (i : Nat) (c : StreamCfg) : State :=
  let ring := s.streamRing c
  let x := s.stream i
  let rs := (s.ring ring).recordsFor (.stream (Fin.ofNat 128 i))
  match rs with
  | [] => s
  | (_, r) :: _ =>
    let t := s.outputTime r x.itemPos
    let n := s.outputInSec r x.itemPos
    let toFrame := (c.vdifSpf - n % c.vdifSpf) % c.vdifSpf
    let sec := t / 2 ^ 48
    let leap := (civilOfVt s.time.leaps true sec).map (·.second) == some 60
    if toFrame ≠ 0 then s.advanceVdif i ring rs x.itemPos toFrame
    else if leap then
      (s.advanceVdif i ring rs x.itemPos c.vdifSpf).modStream i fun x =>
        { x with itemsSkipped := x.itemsSkipped + 1, skippedThis := x.skippedThis + 1, gap := true }
    else if !atLeastNs ((vtNat s.now : Int) - t) 50000 then s
    else
      let outs := takeOutputs (rs.map (·.2)) x.itemPos c.vdifSpf
      if outs.length < c.vdifSpf then s
      else
        let flagged := (outs.filter fun o => o.1.flagged o.2).length
        let bad (o : Record × Nat) : Bool := o.1.recordId == r.recordId && o.1.damagedAt x.damage o.2
        let codes := outs.map fun o =>
          vdifCode o.1.dataFormat c.vdifBits c.vdifShift (if bad o then 0 else outputAt o.1.dataFormat o.1.payload o.2)
        let payload := (codes.map fun v => leBytes (c.vdifBits / 8) v).flatten
        let naive := ((sec : Int) - (s.time.leaps.foldl (fun o e => if e.effect ≤ (sec : Int) then e.offset else o) 32)).toNat
        let b := vdifHeader (flagged != 0 || outs.any bad || x.gap) (naive - x.epochIndex) x.epoch (n / c.vdifSpf)
          ((32 + payload.length) / 8) c.vdifBits c.input c.vdifStation ++ payload
        let first : Int := ((t % 2 ^ 48 : Nat) : Int) * 1000000000000000 / 2 ^ 48
        let s := s.sendStream i c c.queue b
        let s := s.modStream i fun x =>
          { x with gap := false, flaggedThis := x.flaggedThis + BitVec.ofNat 32 flagged
                   frameSeq := x.frameSeq - 1
                   firstOffsetFs := if n = 0 then BitVec.ofInt 64 first else x.firstOffsetFs }
        s.advanceVdif i ring rs x.itemPos c.vdifSpf

end Sys2Proof.Machine
end

