-- ==== Sys2Proof/Machine/Delays.lean ====
section
/-! DEFINITION. The delays the module removes (R42, R93, R128), sample numbers (R206, R207), and the tag of an Awn
conversion (R255). -/

namespace Sys2Proof.Machine

/-- R93: a table measured at 25, 40 and 55 °C, interpolated linearly at a temperature in 0.01 °C, held outside; a result
between two fs is rounded down (DESIGN CHOICE, log entry 46). -/
def interpDelay (table : Nat → U32) (t : Int) : Nat :=
  let v i : Int := (table i).toNat
  let r : Int :=
    if t ≤ 2500 then v 0
    else if t ≤ 4000 then v 0 + (v 1 - v 0) * (t - 2500) / 1500
    else if t ≤ 5500 then v 1 + (v 2 - v 1) * (t - 4000) / 1500
    else v 2
  r.toNat

/-- The index of a front end's range and filter in the delay tables. -/
def delayIndex (range filter : Nat) : Nat := 4 * range + filter

/-- R93: sample-path delay of a channel at a range and filter, fs, at the filtered plate temperature. -/
def State.sampleDelayAt (s : State) (c range filter : Nat) : Nat :=
  interpDelay (fun i => Config.sampleDelay c (delayIndex range filter) i) s.cal.tFilt

/-- R93: comparator-path delay of a channel at a range and filter, fs. -/
def State.compDelayAt (s : State) (c range filter : Nat) : Nat :=
  interpDelay (fun i => Config.compDelay c (delayIndex range filter) i) s.cal.tFilt

def State.sampleDelay (s : State) (c : Nat) : Nat := s.sampleDelayAt c (s.chan c).fe.range (s.chan c).fe.filter
def State.compDelay (s : State) (c : Nat) : Nat := s.compDelayAt c (s.chan c).fe.range (s.chan c).fe.filter

/-- A VT80 as units of 2⁻⁴⁸ s, its seconds resolved against the present (R67). -/
def State.vt80Units (s : State) (v : BitVec 80) : Nat :=
  rebuild s.time.vtSec.toNat ((v >>> 48).toNat) 32 * 2 ^ 48 + (v.setWidth 48).toNat

/-- The slice in service at a phase (R121). -/
def Channel.sliceAt (x : Channel) (phase : Nat) : Nat := (x.phaseMap.toNat / 16 ^ phase) % 16

/-- R128: the live background skew correction, fs: the correction of the channel's aperture loop together with the relative skews of
R125 of the slices in service, which enter as their mean, rounded down (DESIGN CHOICE, log entry 235). -/
def State.skewCorrection (s : State) (c : Nat) : Int :=
  let x := s.chan c
  Config.skewCorrection c s.cal.tFilt + (((List.range 8).map fun p => (x.live.getD (x.sliceAt p) {}).tau).sum) / 8

/-- R42: the delay removed from the times of a channel's samples, fs. -/
def State.removedSample (s : State) (c : Nat) (fe : FeCfg) : Int := (s.sampleDelayAt c fe.range fe.filter : Int) + s.skewCorrection c

/-- R42, R206, R207: the number of the last sample at or before a tag and the tag's place after it in units of 1/64
sample, rounded to nearest with ties up; samples are 200 ps apart, with the delay of a front end removed. The tag is of the labels whose VT
tick at clock 0 is `base`. -/
def State.sampleWith (s : State) (c : Nat) (fe : FeCfg) (base : Int) (tag : Vt96) : Nat × Nat :=
  let u : Nat := ((vtNat tag : Int) * 1000000000000000 + s.removedSample c fe * 2 ^ 48 - base * 1600000 * 2 ^ 48).toNat
  let d : Nat := 200000 * 2 ^ 48
  let n := u / d
  let f := (2 * 64 * (u % d) + d) / (2 * d)
  if f = 64 then (n + 1, 0) else (n, f)

/-- R233: the first sample of a channel whose instant is at or after a VT instant. -/
def State.firstSampleAt (s : State) (c : Nat) (v : Vt96) : Nat :=
  let u : Nat := ((vtNat v : Int) * 1000000000000000 + s.removedSample c (s.chan c).fe * 2 ^ 48 - s.vtBase * 1600000 * 2 ^ 48).toNat
  (u + 200000 * 2 ^ 48 - 1) / (200000 * 2 ^ 48)

/-- R207: the trigger sample and fraction of a trigger, by a front end; of a COARSE tag it is phase 0 of the tick it names. -/
def State.triggerWith (s : State) (c : Nat) (fe : FeCfg) (base : Int) (tag : Vt96) (coarse : Bool) : Nat × Nat :=
  if coarse then (((tickOfTag tag : Int) - base).toNat * 8, 0) else s.sampleWith c fe base tag

/-- A time in fs since the epoch as VT, rounded down. -/
def vtOfFs (fs : Int) : Vt96 := vtOfNat (fs * 2 ^ 48 / 1000000000000000).toNat

/-- The connector-plane time of a sample in fs, under labels whose VT tick at clock 0 is `base`. -/
def State.sampleFs (s : State) (c : Nat) (fe : FeCfg) (base : Int) (n : Nat) : Int :=
  ((n * 200000 : Nat) : Int) + base * 1600000 - s.removedSample c fe

/-- R35: the clock reading of the tick in which the connector-plane time of a sample lies. -/
def State.sampleTick (s : State) (c : Nat) (fe : FeCfg) (n : Nat) : Nat := (((n * 200000 : Nat) : Int) - s.removedSample c fe).toNat / 1600000

/-- The VT of a sample at the connector plane. -/
def State.vtOfSample (s : State) (c n : Nat) : Vt96 := vtOfFs (s.sampleFs c (s.chan c).fe s.vtBase n)

/-- R255: the code tables a lane uses: those a check measured, else the factory's. -/
def laneTapEnd (l : Lane) (source lane m : Nat) : Nat :=
  match l.tables with
  | some (t, _) => (t[m]?).getD 0
  | none => Config.tapEnd source lane m

def laneVern (l : Lane) (source lane n : Nat) : Nat :=
  match l.tables with
  | some (_, v) => (v[n]?).getD 0
  | none => Config.vern source lane n

/-- R255: the delay removed from a source's stamps, fs. -/
def State.removedDelay (s : State) (source : Nat) : Int :=
  if source < 128 then (s.compDelay source : Int) + s.skewCorrection source
  else ((Config.tiDelay (source - 128)).toNat : Int)

/-- R255: the tag of a conversion: second S and tick j of the edge, tap m and vernier count n. -/
def conversionTag (sec j : Nat) (tapEnd vern : Nat) (removed : Int) : Vt96 :=
  let t : Int := (fracOfTicks j : Int) + tapEnd - vern - unitsOfFs removed
  vtOfNat ((sec * 2 ^ 48 : Nat) + t).toNat

end Sys2Proof.Machine
end

