-- ==== Sys2Proof/Machine/Samples.lean ====
section
/-! DEFINITION. From conversions to the outputs of a record (R95, R98, R106, R114 to R116, R125, R230 to R236, R574): the correction of a
sample and its flags, interval averages and the compensation FIR, the payload of each format, the flag runs. -/

namespace Sys2Proof

/-- The conversion of a sample number of a channel in what a row brings; one it does not bring is a free value. -/
def SampleData.sample (d : SampleData) (c n : Nat) : RawSample :=
  let unseen : RawSample := { code := (Config.unseenSample c n).setWidth 12, overload := (Config.unseenSample c n).getLsbD 12 }
  if n < d.start then unseen else (d.raw[n - d.start]?).getD unseen

/-- One past the last conversion a row brings. -/
def SampleData.stop (d : SampleData) : Nat := d.start + d.raw.length

/-- R125: offset and gain taken out of a code: (x − o) / (1 + g). -/
def Terms.level (t : Terms) (x : Int) : Rat := ((x : Rat) - (t.o : Rat) / 256) / (1 + (t.g : Rat) / 262144)

end Sys2Proof

namespace Sys2Proof.Machine

/-! ## Samples -/

/-- R114, R230: to nearest, ties away from zero. -/
def nearestAway (q : Rat) : Int := if 0 ≤ q then (q + 1 / 2).floor else -((-q + 1 / 2).floor)

/-- R114: the range of a code. -/
def clipCode (v : Int) : Int := max (-2048) (min 2047 v)

/-- R125: the part of a skew that the aperture DAC leaves: its steps are 25 fs, so at most ± 12.5 fs. -/
def fineSkew (tau : Int) : Int := tau - 25 * nearestAway ((tau : Rat) / 25)

/-- R574: the code that channel depth 4 delivers at a phase of SLICE tick k, given 8k + phase. -/
def rampCode (n : Int) : Int := n % 4096 - 2048

/-- The coefficients of a phase at a sample: those live then. -/
def Channel.termsAt (x : Channel) (n : Nat) : Terms :=
  match x.coef.find? fun e => decide (e.1 ≤ n) with
  | some e => e.2.getD (n % 8) {}
  | none => x.live.getD (x.sliceAt (n % 8)) {}

/-- R106, R107: a sample lies in a phase's fault. -/
def FaultSpan.covers (f : FaultSpan) (n : Nat) : Bool :=
  f.phase == n % 8 && decide (f.from_ ≤ n) && (f.to_.map fun e => decide (n < e)).getD true

/-- What one record's samples are formed with: its channel, whether it is looped at depth 4 (R574), and the labels' tick at clock 0. -/
structure Forming where
  index : Nat
  chan : Channel
  ramp : Bool
  base : Int
  settleEnd : Nat
  data : SampleData

/-- The code of a sample before correction. -/
def Forming.code (w : Forming) (n : Nat) : Int := if w.ramp then rampCode ((n : Int) + 8 * w.base) else (w.data.sample w.index n).code.toInt

/-- R125, R574: the coefficients of a sample: unit ones at depth 4. -/
def Forming.terms (w : Forming) (n : Nat) : Terms := if w.ramp then {} else w.chan.termsAt n

/-- R125: a sample with offset and gain taken out. -/
def Forming.level (w : Forming) (n : Nat) : Rat := (w.terms n).level (w.code n)

/-- R125: bandwidth mismatch and the rest of the skew taken out as well, each with the neighbouring samples. -/
def Forming.corrected (w : Forming) (n : Nat) : Rat :=
  let t := w.terms n
  if t.beta = 0 ∧ fineSkew t.tau = 0 then w.level n
  else Config.mismatchFilter t.beta (fineSkew t.tau) (w.level (n - 1)) (w.level n) (w.level (n + 1))

/-- R114: the sample. -/
def Forming.sample (w : Forming) (n : Nat) : Int := clipCode (nearestAway (w.corrected n))

/-- R95: a raw code at a limit, a corrected value that reached one (R114: it is clipped there; DEDUCED, log entry 47), or the overload
detector asserted in the 10 samples up to it. -/
def Forming.ovr (w : Forming) (n : Nat) : Bool :=
  let x := w.code n
  let v := nearestAway (w.corrected n)
  decide (x ≤ -2048 ∨ 2047 ≤ x ∨ v ≤ -2048 ∨ 2047 ≤ v) || (List.range 10).any fun j => decide (j ≤ n) && (w.data.sample w.index (n - j)).overload

/-- R95, R98, R106: OVR, FE_SETTLING, SLICE_FAULT of a sample in bits 0 to 2. -/
def Forming.flags (w : Forming) (n : Nat) : BitVec 4 :=
  BitVec.ofNat 4 (boolNat (w.ovr n) + 2 * boolNat (decide (n < w.settleEnd)) + 4 * boolNat (w.chan.faultSpans.any fun f => f.covers n))

/-! ## Interval averages (R230 to R235) -/

/-- An output: its value and its flags (bit 3 SETTLING). -/
structure Sample where
  value : Int
  flags : BitVec 4

/-- R230: a mean of 2^k samples to the width of the format; `f` is 4 or 12. -/
def roundShift (sum : Int) (k f : Nat) : Int :=
  if k ≤ f then sum * 2 ^ (f - k) else nearestAway ((sum : Rat) / 2 ^ (k - f))

/-- R230, R235: boxcar output m. -/
def Forming.boxcar (w : Forming) (r : Record) (m : Nat) : Sample :=
  let first := r.sync + m * 2 ^ r.decim
  let l := (List.range (2 ^ r.decim)).map fun j => first + j
  { value := roundShift ((l.map w.sample).sum) r.decim (if r.dataFormat = 3 then 4 else 12)
    flags := l.foldl (fun f n => f ||| w.flags n) 0 }

/-- R230: the ends of an output's range. -/
def widthMax (format : Nat) : Int := if format = 3 then 32767 else 8388607

/-- R232: a coefficient of the compensation FIR of a decimation: it is symmetric. -/
def firTap (k i : Nat) : Int := Config.firCoefficient k (min i (95 - i))

/-- R232, R234, R235: FIR output m from boxcar outputs m − 95 to m, of which those before the sync are none. -/
def Forming.firOut (w : Forming) (r : Record) (m : Nat) : Sample :=
  let taps := (List.range 96).filter (· ≤ m)
  let l := taps.map fun i => (i, w.boxcar r (m - i))
  let acc : Int := (l.map fun e => firTap r.decim e.1 * e.2.value).sum
  let v := nearestAway ((acc : Rat) / 2 ^ Config.firShift r.decim)
  let hi := widthMax r.dataFormat
  let flags := l.foldl (fun f e => f ||| e.2.flags) 0
  let flags := if hi < v ∨ v < -hi - 1 then flags ||| 1 else flags
  { value := max (-hi - 1) (min hi v), flags := if m < 95 then flags ||| 8 else flags }

/-- Output m of a record. -/
def Forming.output (w : Forming) (r : Record) (m : Nat) : Sample :=
  if r.decim = 0 then { value := w.sample (r.sync + m), flags := w.flags (r.sync + m) }
  else if r.fir = 0 then w.boxcar r m
  else w.firOut r m

/-- R206, R231, R232: the time of output m after the sync sample, fs. -/
def Record.outputFs (r : Record) (m : Nat) : Int :=
  if r.decim = 0 then m * 200000
  else if r.fir = 0 then (2 * m + 1) * 2 ^ r.decim * 100000 - 100000
  else ((m : Int) - 47) * 2 ^ r.decim * 200000 - 100000

/-- One past the last sample of the first `stop` outputs of a record. -/
def Record.sampleBefore (r : Record) (stop : Nat) : Nat := r.sync + stop * 2 ^ r.decim

/-- Outputs that are complete before a sample. -/
def Record.outputsBefore (r : Record) (n : Nat) : Nat := (n - r.sync) / 2 ^ r.decim

/-! ## Payloads (R115, R116, R230) -/

/-- R115: two 12-bit samples in three bytes. -/
def packPair (a b : Int) : Bytes :=
  let x := (BitVec.ofInt 12 a).toNat
  let y := (BitVec.ofInt 12 b).toNat
  w8 (x % 256) ++ w8 (x / 256 + 16 * (y % 16)) ++ w8 (y / 16)

def packAll : List Int → Bytes
  | a :: b :: l => packPair a b ++ packAll l
  | [a] => packPair a 0
  | [] => []

/-- R115, R116, R230: the payload of outputs in a data format. -/
def outputBytes (format : Nat) (nibble : Bool) (l : List Sample) : Bytes :=
  if format = 0 then (l.map fun o => leInt 2 o.value).flatten
  else if format = 1 then (l.map fun o => leInt 2 (o.value * 16 + (if nibble then (o.flags &&& 7).toNat else 0))).flatten
  else if format = 2 then packAll (l.map (·.value))
  else if format = 3 then (l.map fun o => leInt 2 o.value).flatten
  else (l.map fun o => leInt 3 o.value).flatten

/-- R244: runs of consecutive outputs with one unchanged non-zero set of flags, each at most 2^24 − 1 long. -/
def flagRuns : Nat → List (BitVec 4) → List FlagRun
  | _, [] => []
  | i, f :: l =>
    match flagRuns (i + 1) l with
    | r :: rest =>
      if f ≠ 0 ∧ r.flags = f ∧ r.start.toNat = i + 1 ∧ r.len ≠ BitVec.allOnes 24 then { start := BitVec.ofNat 32 i, len := r.len + 1, flags := f } :: rest
      else if f = 0 then r :: rest else { start := BitVec.ofNat 32 i, len := 1, flags := f } :: r :: rest
    | [] => if f = 0 then [] else [{ start := BitVec.ofNat 32 i, len := 1, flags := f }]

/-! ## Accumulation (R236 to R238) -/

/-- R236: an interpolated point within −2,048 to +2,047 sample LSB, in units of 1/16. -/
def clampPoint (p : Int) : Int := max (-32768) (min 32752 p)

/-- R236: point i of a record of an accumulation: the input interpolated f / 64 after sample j. -/
def Forming.point (w : Forming) (j f : Nat) : Int :=
  clampPoint (Config.interpolate f ((List.range 16).map fun i => w.sample (j + i - 7)))

end Sys2Proof.Machine
end

