-- ==== Sys2Proof/Machine/Capture.lean ====
section
/-! DEFINITION. Capture (R204 to R245): records, segments in the Ear, overflow, the five modes, what an accepted trigger
does to a channel, and the rows by which the outputs of records arrive. -/

namespace Sys2Proof.Machine

/-! ## Records -/

/-- R245, R652: take the next record_id; none once the number is used up. -/
def State.takeRecordId (s : State) : Option (U48 × State) :=
  if s.granary.nextRecordId < 2 ^ 48 then
    some (BitVec.ofNat 48 s.granary.nextRecordId,
      s.modGranary fun g => { g with nextRecordId := g.nextRecordId + 1
                                     recordIdMark := if g.nextRecordId < g.recordIdMark then g.recordIdMark else g.recordIdMark + 65536 })
  else none

/-- The kind of record a capture mode makes (R243). -/
def kindOfMode (m : Nat) : Nat := if m = 5 then 4 else m

/-- R115, R230: half bytes of an output of a format. -/
def formatHalfBytes (format : Nat) : Nat := if format = 2 then 3 else if format = 4 then 6 else 4

/-- R218: the capacity of a circular ring in outputs. -/
def Channel.circOutputs (x : Channel) (format : Nat) : Nat := x.capture.circPages * 2097152 * 2 / formatHalfBytes format

/-- R243: a record that begins on a channel by its settings `x`, its outputs to come. -/
def State.newRecord (s : State) (c : Nat) (x : Channel) (d : Descriptor) (id : U48) : Record :=
  { kind := kindOfMode x.capture.mode, channel := c, tenant := ten (s.chanOwner c)
    dataFormat := if x.capture.mode = 5 then 5 else x.dataFormat, tsb := s.time.tsb, recordId := id
    firstVt := 0, endCause := 0, flags := 0, count := 0, genFirst := s.jr.generation, genLast := s.jr.generation
    decim := x.reduction.k, fir := x.reduction.fir, range := x.fe.range, filter := x.fe.filter
    coupling := x.fe.coupling, firstIndex := 0, acquisitionId := x.acquisitionId, trigger := d, pre := 0
    segmentIndex := 0, missed := x.missedSince, accumCount := 0, rejected := 0, lastVt := 0, payload := [], runs := []
    mark := none, startTick := s.clock, base := s.vtBase, settleEnd := x.settleEnd, nibble := x.fe.flagNibble == 1
    suppress := x.reduction.suppress == 1 && x.reduction.fir == 1 && x.reduction.k != 0
    post := x.capture.postCount, cap := x.circOutputs x.dataFormat, block := x.capture.blockSamples, ramp := s.loopDepth 0 c == 4 }

/-- Begin a record, counted on its channel. -/
def State.beginRecord (s : State) (c : Nat) (x : Channel) (d : Descriptor) : Option (Record × State) :=
  s.takeRecordId.map fun (id, s) =>
    (s.newRecord c x d id, s.modChan c fun x => { x with lastRecordId := id })

/-- R243: the flags of a record from its runs. -/
def recordFlags (suppress coarse : Bool) (runs : List FlagRun) : Byte :=
  (runs.foldl (fun f r => f ||| r.flags) (0 : BitVec 4)).setWidth 8
    ||| BitVec.ofNat 8 (16 * boolNat suppress + 32 * boolNat coarse)

/-- R225: the overflow mark of a record whose outputs are in; its generation is that of the last good one. -/
def Mark.place (m : Mark) (r : Record) : Mark :=
  { m with lastGoodIndex := r.count - 1, lastGoodVt := r.lastVt, generation := r.genLast }

/-- What the samples of a record are formed with. -/
def State.forming (s : State) (c : Nat) (r : Record) (d : SampleData) : Forming :=
  { index := c, chan := s.chan c, ramp := r.ramp, base := r.base, settleEnd := r.settleEnd, data := d }

/-- The front end a record was taken with. -/
def Record.fe (r : Record) : FeCfg := { range := r.range, filter := r.filter, coupling := r.coupling }

/-- The time of an output of a record. -/
def State.outputVt (s : State) (r : Record) (m : Nat) : Vt96 :=
  vtOfFs (s.sampleFs r.channel r.fe r.base r.sync + r.outputFs m)

/-- R39, R75, R243: times, generations and TSB of outputs `first` up to `stop` of a record: each is of the samples they are made of. -/
def State.spanRecord (s : State) (r : Record) (first stop : Nat) : Record :=
  let n0 := r.sampleBefore first
  let n1 := max (r.sampleBefore stop) (n0 + 1) - 1
  let at_ (n : Nat) : Nat := s.sampleTick r.channel r.fe n
  { r with firstVt := vt80 (s.outputVt r first), lastVt := vt80 (s.outputVt r (max stop (first + 1) - 1))
           genFirst := s.generationOf (at_ n0), genLast := s.generationOf (at_ n1), tsb := s.tsbOver (at_ n0) (at_ n1 + 1) }

/-- R209, R219, R221, R227: where a record's outputs stop: where it was meant to, and not beyond its cut. -/
def Record.stopOutput (r : Record) (planned : Option Nat) : Nat :=
  max r.firstOut (match planned, r.endSample.map r.outputsBefore with
    | some p, some m => min p m
    | some p, none => p
    | none, some m => m
    | none, none => r.firstOut)

/-- R243, R244: a record with its outputs up to `stop`, formed from conversions. -/
def State.fillRecord (s : State) (r : Record) (stop : Nat) (d : SampleData) : Record :=
  let w := s.forming r.channel r d
  let outs := (List.range (stop - r.firstOut)).map fun i => w.output r (r.firstOut + i)
  let (runs, coarse) := coarsenRuns outs.length (flagRuns 0 (outs.map (·.flags)))
  let r := { s.spanRecord r r.firstOut stop with
               count := BitVec.ofNat 32 outs.length, payload := outputBytes r.dataFormat r.nibble outs
               firstIndex := if r.kind = 1 then 0 else BitVec.ofNat 32 r.firstOut
               runs, flags := recordFlags r.suppress coarse runs }
  { r with mark := r.mark.map fun m => m.place r }

/-! ## The Ear and the rings -/

/-- R211, R251: the free slots of the Ear; only segments of mode 1 hold slots. -/
def Channel.earFree (x : Channel) : Nat :=
  262144 - ((x.ear.filter fun g => g.record.kind == 1).map fun g =>
    if g.filled then g.record.count.toNat else g.len).sum

/-- R212: descriptors in use: segments in the Ear, and those in the ring not reclaimed. -/
def Channel.descriptorsUsed (x : Channel) : Nat :=
  (x.ear.filter fun g => g.record.kind == 1).length + (x.ring.held.filter fun i => match i.body with
    | .record r => r.kind == 1
    | _ => false).length

/-- The ring a record of a kind goes to (R215). -/
def ringOfKind (c kind : Nat) : RingId :=
  if kind = 2 ∨ kind = 3 then .circular (Fin.ofNat 128 c) else .record (Fin.ofNat 128 c)

/-- Whether a stook's controller serves (R345). -/
def State.stookUp (s : State) (stook : Nat) : Bool :=
  match (s.ctrl stook).state with
  | .inService | .exposed => true
  | _ => false

/-- R345 to R347: whether the Ears of a stook drain: its controller serves, and no restore is on its way to the commit step that resumes them. -/
def State.drains (s : State) (stook : Nat) : Bool :=
  s.stookUp stook && (s.ctrl stook).restoring.isNone && !(s.ctrl stook).resumeDrain

/-- A ring item of a record. -/
def State.recordItem (s : State) (r : Record) : Item :=
  { id := r.recordId.toNat, generation := r.genLast, born := s.clock, body := .record r }

/-- R218, R219: a circular capture has gone round its ring: its first outputs are overwritten. -/
def Record.wrapped (r : Record) : Bool := r.kind == 2 && decide ((if r.suppress then 95 else 0) < r.firstOut)

/-- R217, R222: whether a record and so many bytes more can be written with nothing unreleased in their way: a circular capture that has gone
round has been at every place; with nothing unreleased the oldest is overwritten. -/
def Ring.takesWith (q : Ring) (r : Record) (more : Nat) : Bool :=
  q.held.isEmpty || (!r.wrapped && q.hasRoom ((ItemBody.record r).size + more))

def Ring.takes (q : Ring) (r : Record) : Bool := q.takesWith r 0

/-- R214, R216, R217: write the oldest record whose outputs are in to its ring, or make the writer wait. -/
def State.drainOne (s : State) (c : Nat) : State :=
  match (s.chan c).ear with
  | g :: rest =>
    if g.filled && s.drains (stookOf c) then
      let ring := ringOfKind c g.record.kind
      if (s.ring ring).takes g.record then
        (s.modChan c fun x => { x with ear := rest }).modRing ring fun q =>
          { q.push (s.recordItem g.record) with waiting := false }
      else s.modRing ring fun q => { q with waiting := true }
    else s
  | [] => s

/-- Write as many records as can be written. -/
def State.drainAll (s : State) (c : Nat) : Nat → State
  | 0 => s
  | n + 1 =>
    let before := (s.chan c).ear.length
    let s := s.drainOne c
    if (s.chan c).ear.length < before then s.drainAll c n else s

/-- A record of modes 2, 3 or 5 whose outputs are in goes towards its ring behind those that wait. -/
def State.writeRecord (s : State) (c : Nat) (r : Record) : State :=
  let s := s.modChan c fun x => { x with ear := x.ear ++ [{ record := r, first := 0, filled := true }] }
  s.drainAll c (s.chan c).ear.length

/-! ## Overflow (R223 to R226) -/

/-- R224, R225: put a mark on a record wherever it stands: in the Ear or in the ring. -/
def State.markRecordWith (s : State) (c : Nat) (id : U48) (m : Mark) : State :=
  let mark (r : Record) : Record := if r.recordId = id then { r with endCause := 1, mark := some (m.place r) } else r
  let item (i : Item) : Item :=
    match i.body with
    | .record r => { i with body := .record (mark r) }
    | _ => i
  s.modChan c fun x =>
    { x with ear := x.ear.map fun g => { g with record := mark g.record }
             ring := { x.ring with items := x.ring.items.map item }
             circ := { x.circ with items := x.circ.items.map item }
             markRecord := some id }

/-- R223: a mark of a channel. -/
def State.newMark (s : State) (c reason port : Nat) : Mark :=
  { reason, channel := c, mode := (s.chan c).capture.mode, lastGoodIndex := 0, lastGoodVt := 0
    port := BitVec.ofNat 8 port, generation := s.jr.generation }

/-- R224, R514: the capture stops on an overflow; the event has the time of the last good output. -/
def State.stopOverflow (s : State) (c reason port : Nat) (lastGood : Vt96) : State :=
  let s := s.modChan c fun x =>
    { x with capState := 3, lastReason := reason, overflows := x.overflows + 1, missedSince := 0, postPhase := false }
  s.raiseAt lastGood (chanEvent c 0) (w8 reason ++ w8 (s.chan c).capture.mode ++ w8 port)

/-- R211, R212, R652: overflow of segmented capture: the mark goes to the last segment's record. -/
def State.overflowSegments (s : State) (c reason : Nat) : State :=
  let x := s.chan c
  let s := if x.segments = 0 then s else s.markRecordWith c x.lastRecordId (s.newMark c reason 0xFF)
  let good := (x.lastSample.map (s.vtOfSample c)).getD s.now
  let s := s.stopOverflow c reason 0xFF good
  if reason = 4 then s.raise (chanEvent c 7) (w32 x.acquisitionId.toNat) else s

/-! ## Streams of modes 2 and 3 -/

/-- R233, R234: begin the record of a circular or continuous capture at its sync sample, or go on after a block; without a record_id the
capture stops (R652). -/
def State.openStream (s : State) (c sync firstOut : Nat) : State :=
  match s.beginRecord c (s.chan c) {} with
  | some (r, s) =>
    s.modChan c fun x => { x with openRec := some { r with sync, firstOut := if r.suppress then max 95 firstOut else firstOut }, postPhase := false }
  | none =>
    let s := s.stopOverflow c 4 0xFF s.now
    s.raise (chanEvent c 7) (w32 (s.chan c).acquisitionId.toNat)

/-- End the open record of a stream with a cause before a sample; its outputs come with the next row that brings this channel's. -/
def State.endStream (s : State) (c cause stop : Nat) : State :=
  match (s.chan c).openRec with
  | some r =>
    if r.kind = 2 ∨ r.kind = 3 then
      s.modChan c fun x =>
        { x with openRec := none, postPhase := false, ended := x.ended ++ [{ r with endCause := cause, endSample := some stop }] }
    else s
  | none => s

/-- R219: the interval that holds the trigger sample of a circular record. -/
def State.triggerOutput (s : State) (r : Record) : Nat :=
  r.outputsBefore (s.triggerWith r.channel r.fe r.base r.trigger.tag (r.trigger.flags.getLsbD 0)).1

/-- R219: a circular record whose stream stops at output `stop`: its first output is the oldest one still in its ring of `cap` outputs of which
`post` follow the trigger. -/
def State.placeCircular (s : State) (r : Record) (stop : Nat) : Record :=
  if r.trigger = {} then
    let first := max r.firstOut (stop - r.cap)
    { r with firstOut := first, pre := BitVec.ofNat 32 (stop - first) }
  else
    let mt := s.triggerOutput r
    let first := max r.firstOut (mt - (r.cap - r.post))
    { r with firstOut := first, pre := BitVec.ofNat 32 (min mt stop - first) }

/-- R218, R221: the output before which the record of a stream is to end. -/
def State.plannedStop (s : State) (r : Record) : Option Nat :=
  if r.kind = 2 then (if r.trigger = {} then none else some (s.triggerOutput r + r.post)) else some (r.firstOut + r.block)

/-- R218, R221, R227: where the outputs of a stream's record stop. -/
def State.streamStop (s : State) (r : Record) : Nat := r.stopOutput (s.plannedStop r)

/-- A row brings every conversion of a stream's record. -/
def State.brings (s : State) (r : Record) (d : SampleData) : Bool := decide (r.sampleBefore (s.streamStop r) ≤ d.stop)

/-- R218, R219, R221: a stream's record with its outputs. -/
def State.finishStream (s : State) (r : Record) (d : SampleData) : Record :=
  let stop := s.streamStop r
  let r := if r.kind = 2 then s.placeCircular r stop else r
  s.fillRecord r (max stop r.firstOut) d

/-! ## Accumulation (R236 to R241) -/

/-- A record of an accumulation whose samples have not come. -/
def Segment.waits (g : Segment) : Bool := g.record.kind == 4 && !g.filled

/-- R238, R240, R482: close the open accumulation at a sample: records that have not ended before it are rejected, those that have and whose
samples have not come are added to what closes; then its sums are copied. The close is journalled. -/
def State.closeAccum (s : State) (c cause stop : Nat) : State :=
  match (s.chan c).openRec with
  | some r =>
    if r.kind = 4 then
      let late (g : Segment) : Bool := g.waits && decide (stop < g.first + g.len)
      (s.withEntry (s.chan c).capJournal fun s j => s.addUnits j 1).modChan c fun x =>
        { x with openRec := none, copy := x.sums, sums := []
                 copyRec := some { r with endCause := cause, missed := x.missedSince
                                          rejected := x.ear.foldl (fun n g => if late g then satInc n else n) r.rejected }
                 missedSince := 0
                 ear := (x.ear.filter fun g => !late g).map fun g =>
                   if g.waits then { g with record := { g.record with endSample := some stop } } else g }
    else s
  | none => s

/-! ## Arming, ending, beginning -/

/-- R227, R228, R210: every record in progress on a channel ends with a cause at the last sample before an instant. -/
def State.endRecordsAt (s : State) (c cause : Nat) (v : Vt96) : State :=
  let stop := s.firstSampleAt c v
  let s := s.modChan c fun x =>
    { x with ear := x.ear.map fun g =>
        if g.record.kind = 1 && !g.filled && decide (stop < g.first + g.len) && cause != 4 then
          { g with record := { g.record with endCause := cause, endSample := some stop } }
        else g
             lastSample := if cause = 4 then x.lastSample else x.lastSample.map fun l => min l (stop - 1) }
  (s.endStream c cause stop).closeAccum c cause stop

def State.endRecords (s : State) (c cause : Nat) : State := s.endRecordsAt c cause s.now

/-- Begin what a channel that stays armed begins at an instant (R38, R204, R233). -/
def State.beginRecords (s : State) (c : Nat) (sync : Vt96) : State :=
  let x := s.chan c
  if x.fe.enable ∧ x.capState = 1 ∧ (x.capture.mode = 2 ∨ x.capture.mode = 3) ∧ x.openRec = none then
    s.openStream c (s.firstSampleAt c sync) 0
  else s

/-- R225: at the next arming the mark takes the triggers lost while stopped. -/
def State.closeMark (s : State) (c : Nat) : State :=
  let x := s.chan c
  match x.markRecord with
  | some id =>
    let fix (r : Record) : Record :=
      if r.recordId = id then { r with mark := r.mark.map fun m => { m with triggersLost := x.missedSince } } else r
    let item (i : Item) : Item :=
      match i.body with
      | .record r => { i with body := .record (fix r) }
      | _ => i
    s.modChan c fun x =>
      { x with ring := { x.ring with items := x.ring.items.map item }
               circ := { x.circ with items := x.circ.items.map item }
               ear := x.ear.map fun g => { g with record := fix g.record }
               markRecord := none }
  | none => s

/-- R213, R250, R346: a new acquisition starts on a channel now. -/
def State.armChannel (s : State) (c : Nat) : State :=
  if (s.chan c).earSweep || (s.chan c).accSweep then s.modChan c fun x => { x with armHeld := true }
  else
    let s := s.endRecords c 4
    let s := s.closeMark c
    let earOnly := (s.chan c).capture.mode == 1 && !s.drains (stookOf c)
    let s := s.modChan c fun x =>
      { x with capState := if earOnly then 4 else 1, armHeld := false, acquisitionId := x.acquisitionId + 1
               segments := 0, missed := 0, missedSince := 0, acted := none }
    s.beginRecords c s.now

/-- R228: disarm now. -/
def State.disarmChannel (s : State) (c : Nat) : State :=
  let s := s.endRecords c 4
  s.modChan c fun x => { x with capState := if x.capState = 1 ∨ x.capState = 4 then 0 else x.capState, armHeld := false }

/-! ## Triggers at a channel -/

/-- Count a trigger a channel misses (R171, R210, R240). -/
def State.missTrigger (s : State) (c : Nat) : State :=
  s.modChan c fun x => { x with missed := x.missed + 1, missedSince := satInc x.missedSince }

/-- R210, R236: whether a trigger sample is late enough after the last sample of the record before. -/
def rearmed (last : Option Nat) (ts first : Nat) : Bool :=
  match last with
  | none => true
  | some l => decide (l + 200 ≤ ts ∧ l + 1 ≤ first)

/-- R35, R38: the settings a trigger is judged by: those before the last record-defining commit for one tagged before it. -/
def Channel.asOf (x : Channel) (v : Vt96) : Channel :=
  match x.before with
  | some b =>
    if vtLt v b.vt then
      { x with fe := b.fe, comp := b.comp, capture := b.capture, reduction := b.reduction, accum := b.accum, capState := b.capState, since := b.since
               settleEnd := b.settleEnd }
    else x
  | none => x

/-- The sample at which the settings that judge a trigger end. -/
def Channel.cutOf (x : Channel) (v : Vt96) : Option Nat :=
  x.before.bind fun b => if vtLt v b.vt then some b.at_ else none

/-- R209 to R213: start a segment by the settings `x`. It reaches back to no sample taken under other settings (R38). -/
def State.startSegment (s : State) (c : Nat) (x : Channel) (d : Descriptor) (ts frac : Nat) : State :=
  let first := max (ts - x.capture.pre) x.since
  let stop := ts - x.capture.pre + x.capture.segLength
  if !rearmed x.lastSample ts (ts - x.capture.pre) || decide (ts < x.since) then s.missTrigger c
  else if x.earFree < x.capture.segLength then s.overflowSegments c 1
  else if 65536 ≤ x.descriptorsUsed then s.overflowSegments c 4
  else
    match s.beginRecord c x d with
    | none => s.overflowSegments c 4
    | some (r, s) =>
      let cut := x.cutOf d.tag
      let r := { r with segmentIndex := x.segments, pre := BitVec.ofNat 32 (ts - first), sync := first
                        endSample := cut, endCause := if cut.isSome then 2 else 0 }
      s.modChan c fun x =>
        { x with ear := x.ear ++ [{ record := r, first, len := stop - first, trig := ts, frac }], lastSample := some (min (stop - 1) (cut.getD stop - 1))
                 segments := x.segments + 1, missedSince := 0 }

/-- R236, R240: take a record into the accumulation by the settings `x`; one that reaches back to a sample of other settings would mix them
(R38) and is missed, one that an earlier commit has closed on does not end before the close (R238). -/
def State.startAccum (s : State) (c : Nat) (x : Channel) (d : Descriptor) (ts frac : Nat) : State :=
  let first := ts - x.accum.pre - 8
  let last := first + x.accum.recordLen + 15
  let wait (y : Channel) (r : Record) (stop : Option Nat) : Channel :=
    { y with lastSample := some last
             ear := y.ear ++ [{ record := { r with trigger := d, settleEnd := x.settleEnd, base := s.vtBase, endSample := stop }
                                first, len := last + 1 - first, trig := ts, frac }] }
  if !rearmed x.lastSample ts first || decide (first < x.since) then s.missTrigger c
  else if let some cut := x.cutOf d.tag then
    s.modChan c fun y => match y.copyRec with
      | some r => if last < cut then wait y r (some cut) else { y with copyRec := some { r with rejected := satInc r.rejected } }
      | none => y
  else if x.copyRec.isSome then s.missTrigger c
  else
    let opened : Option State :=
      match x.openRec with
      | some _ => some s
      | none =>
        (s.beginRecord c x d).map fun (r, s) =>
          s.modChan c fun y =>
            { y with openRec := some { r with pre := BitVec.ofNat 32 y.accum.pre
                                              count := BitVec.ofNat 32 y.accum.recordLen
                                              genFirst := s.generationOf (s.sampleTick c x.fe first), startTick := s.sampleTick c x.fe first
                                              firstVt := vt80 (vtAdd d.tag (-(unitsOfPs (y.accum.pre * 200)))) }
                     sums := List.replicate y.accum.recordLen 0 }
    match opened with
    | none =>
      let s := s.stopOverflow c 4 0xFF s.now
      s.raise (chanEvent c 7) (w32 x.acquisitionId.toNat)
    | some s => s.modChan c fun y => wait y (y.openRec.getD (s.newRecord c x d 0)) none

/-- R218: the first trigger ends the pre-trigger phase of a circular capture, also of one that a commit has cut since. -/
def State.startPost (s : State) (c : Nat) (x : Channel) (d : Descriptor) : State :=
  match x.cutOf d.tag with
  | some cut =>
    let mine (r : Record) : Bool := r.kind == 2 && r.endSample == some cut && r.trigger == {}
    if x.ended.any mine then
      s.modChan c fun y =>
        { y with ended := y.ended.map fun r => if mine r then { r with trigger := d, missed := y.missedSince } else r
                 missedSince := 0 }
    else s.missTrigger c
  | none =>
    if x.postPhase then s.missTrigger c
    else s.modChan c fun y =>
      { y with postPhase := true, openRec := y.openRec.map fun r => { r with trigger := d, missed := y.missedSince }
               missedSince := 0 }

/-- R159, R172: the owner of a route when a trigger of a tag was decided by the settings that judge it. -/
def State.routeOwnerAt (s : State) (r : Nat) (v : Vt96) : Nat :=
  match (s.routeN r).oldUntil with
  | some u => if vtLt v u then (s.routeN r).oldOwner else s.routeOwner r
  | none => s.routeOwner r

/-- R160: a channel takes a route of its own tenant, or any route where the Steward stages it. -/
def State.takesRoute (s : State) (c r : Nat) (v : Vt96) : Bool := s.chanOwner c == 0 || s.routeOwnerAt r v == s.chanOwner c

/-- R161: a route lost to route `by_` at one consumer: in its own counter and in the coincident mask of the last descriptor of the other. -/
def State.countCoincident (s : State) (r by_ : Nat) : State :=
  (s.modRoute r fun x => { x with coincidentLost := x.coincidentLost + 1 }).modRoute by_ fun x =>
    { x with last := { x.last with coincident := setBit x.last.coincident r true } }

/-- R161: change the descriptor of the trigger a channel acted on last: of its last segment, or of the last record of an accumulation and of
the accumulation that this record began, or of a circular capture. -/
def State.modActed (s : State) (c : Nat) (f : Descriptor → Descriptor) : State :=
  s.modChan c fun x =>
    let last := x.ear.getLast?.bind fun g => if g.record.kind == 1 || g.waits then some g.record.trigger else none
    let of_ (r : Record) : Bool := (r.kind == 2 && r.trigger != {}) || (r.kind == 4 && some r.trigger == last)
    { x with ear := if last.isNone then x.ear
               else lmod x.ear (x.ear.length - 1) fun g => { g with record := { g.record with trigger := f g.record.trigger } }
             openRec := x.openRec.map fun r => if of_ r then { r with trigger := f r.trigger } else r }

/-- R161, R204, R209, R218, R236: a channel takes an accepted trigger of route `r` that it may take (R160). -/
def State.captureTrigger (s : State) (c r : Nat) (d : Descriptor) : State :=
  let x := (s.chan c).asOf d.tag
  if !(x.fe.enable && x.capture.routeMask.getLsbD r && s.takesRoute c r d.tag) then s
  else if x.capState = 3 then s.modChan c fun x => { x with missedSince := satInc x.missedSince }
  else if !(x.capState = 1 ∨ x.capState = 4) then s
  else
    let tick := tickOfTag d.tag
    match x.acted.filter fun a => decide (a.1 = tick ∧ a.2.1 ≠ r) with
    | some (_, r', started) =>
      if r' < r then
        let s := s.countCoincident r r'
        if started then s.modActed c fun e => { e with coincident := setBit e.coincident r true } else s
      else
        let s := s.countCoincident r' r
        let s := if started then s.modActed c fun e => { d with coincident := setBit e.coincident r' true } else s
        s.modChan c fun x => { x with acted := some (tick, r, started) }
    | none =>
      let (ts, frac) := s.triggerWith c x.fe s.vtBase d.tag (d.flags.getLsbD 0)
      let before := ((s.chan c).ear.length, (s.chan c).postPhase)
      let s :=
        if x.capture.mode = 1 then
          (if x.capture.segmentCount ≠ 0 ∧ x.capture.segmentCount ≤ x.segments.toNat then s else s.startSegment c x d ts frac)
        else if x.capture.mode = 2 then s.startPost c x d
        else if x.capture.mode = 5 then s.startAccum c x d ts frac
        else s
      s.modChan c fun y => { y with acted := some (tick, r, decide ((y.ear.length, y.postPhase) ≠ before)) }

/-- R233: a trigger acted on from the sync route resets the averaging. -/
def State.syncTrigger (s : State) (c r : Nat) (d : Descriptor) : State :=
  let x := s.chan c
  if x.capState = 1 ∧ (x.capture.mode = 2 ∨ x.capture.mode = 3) ∧ x.reduction.syncRoute = r ∧ x.fe.enable ∧ s.takesRoute c r d.tag
    ∧ (x.cutOf d.tag).isNone then
    let n := s.firstSampleAt c d.tag
    ((s.endStream c 6 n).openStream c n 0).modChan c fun y => { y with openRec := y.openRec.map fun q => { q with syncBy := some d } }
  else s

/-! ## Rows -/

/-- The sample before which a segment ends: its last one, or its cut. -/
def Segment.stop (g : Segment) : Nat :=
  match g.record.endSample with
  | some e => min e (g.first + g.len)
  | none => g.first + g.len

/-- Fill the oldest segment whose outputs have not come, if the row brings all of them. -/
def fillOldest (f : Segment → Record) (d : SampleData) : List Segment → List Segment
  | [] => []
  | g :: l =>
    if g.filled then g :: fillOldest f d l
    else if g.stop ≤ d.stop then { g with record := f g, filled := true } :: l else g :: l

/-- R213: an acquisition of so many segments is done when its last one has ended. -/
def Channel.endAcquisition (x : Channel) : Channel :=
  if (x.capState = 1 ∨ x.capState = 4) ∧ x.capture.mode = 1 ∧ x.capture.segmentCount ≠ 0
    ∧ x.capture.segmentCount ≤ x.segments.toNat ∧ (x.ear.all fun g => g.filled) then { x with capState := 2 }
  else x

/-- Outputs for the oldest record that ended early, if there is one (log entry 21) and the row brings all of them. -/
def State.finishEnded (s : State) (c : Nat) (d : SampleData) : Option State :=
  match (s.chan c).ended with
  | r :: rest =>
    if s.brings r d then some ((s.modChan c fun x => { x with ended := rest }).writeRecord c (s.finishStream r d)) else some s
  | [] => none

/-- R209, R213, R227: a segment's last sample is in the Ear. -/
def effectSegmentEnd (c : Fin 128) (d : SampleData) (s : State) : State :=
  match s.finishEnded c.val d with
  | some s => s
  | none =>
    s.modChan c.val fun x => ({ x with ear := fillOldest (fun g => s.fillRecord g.record (g.record.stopOutput (some g.len)) d) d x.ear }).endAcquisition

def execSegmentEnd (t : Nat) (c : Fin 128) (data : SampleData) (s : State) : Host.Outcome State Fault Refusal :=
  .next (State.settle s (effectSegmentEnd c data (s.advance t)))

/-- R214, R217, R346: the oldest segment has been drained; in Ear-only nothing drains. -/
def effectSegmentDrained (c : Fin 128) (s : State) : State := s.drainOne c.val

def execSegmentDrained (t : Nat) (c : Fin 128) (s : State) : Host.Outcome State Fault Refusal :=
  .next (State.settle s (effectSegmentDrained c (s.advance t)))

/-- R218, R219: the outputs of a circular record are complete. -/
def effectCircularDone (c : Fin 128) (d : SampleData) (s : State) : State :=
  match s.finishEnded c.val d with
  | some s => s
  | none =>
    let x := s.chan c.val
    match x.openRec with
    | some r =>
      if r.kind = 2 ∧ x.postPhase ∧ s.brings r d then
        let s := s.modChan c.val fun x => { x with openRec := none, postPhase := false, capState := 2 }
        s.writeRecord c.val (s.finishStream r d)
      else s
    | none => s

def execCircularDone (t : Nat) (c : Fin 128) (data : SampleData) (s : State) : Host.Outcome State Fault Refusal :=
  .next (State.settle s (effectCircularDone c data (s.advance t)))

/-- R221: a block record is complete; the next begins with the next output and no reset. -/
def effectBlockRecordEnd (c : Fin 128) (d : SampleData) (s : State) : State :=
  match s.finishEnded c.val d with
  | some s => s
  | none =>
    let x := s.chan c.val
    match x.openRec with
    | some r =>
      if r.kind = 3 ∧ s.brings r d then
        let s := s.modChan c.val fun x => { x with openRec := none }
        let out := s.finishStream r d
        (s.writeRecord c.val out).openStream c.val r.sync (r.firstOut + out.count.toNat)
      else s
    | none => s

def execBlockRecordEnd (t : Nat) (c : Fin 128) (data : SampleData) (s : State) : Host.Outcome State Fault Refusal :=
  .next (State.settle s (effectBlockRecordEnd c data (s.advance t)))

/-- R217, R220, R224: the Ear FIFO of a stream is full: reason 3 where its ring waits on unreleased data, or the next access of the record in
progress would overwrite it (an access is 128 bytes: DESIGN CHOICE, log entry 243), else 2 with the DRAM port of the channel's sheaf. The
row's conversions are those whose outputs reached DRAM. -/
def effectEarFifoFull (c : Fin 128) (d : SampleData) (s : State) : State :=
  let x := s.chan c.val
  match x.openRec with
  | some r =>
    if r.kind = 2 ∨ r.kind = 3 then
      let out := s.finishStream { r with endCause := 1, endSample := some d.stop } d
      let reason := if x.circ.waiting || !x.circ.takesWith out 128 then 3 else 2
      let port := if reason = 2 then sheafOf c.val else 0xFF
      let out := { out with mark := some ((s.newMark c.val reason port).place out) }
      let s := (s.modChan c.val fun x => { x with openRec := none }).writeRecord c.val out
      let s := s.modChan c.val fun x => { x with markRecord := some r.recordId }
      s.stopOverflow c.val reason port (s.outputVt r (max (r.firstOut + 1) (r.firstOut + out.count.toNat) - 1))
    else s
  | none => s

def execEarFifoFull (t : Nat) (c : Fin 128) (data : SampleData) (s : State) : Host.Outcome State Fault Refusal :=
  .next (State.settle s (effectEarFifoFull c data (s.advance t)))

/-- R236, R238: the header and sums of an accumulation with a record added, or with one more rejected: a flagged sample, or samples the row
does not bring. -/
def State.addAccum (s : State) (c : Nat) (g : Segment) (d : SampleData) (r : Record) (sums : List Int) : Record × List Int :=
  let w := s.forming c g.record d
  let stop := g.first + g.len
  if ((List.range g.len).any fun i => w.flags (g.first + i) &&& 7 ≠ 0) || decide (d.stop < stop) then
    ({ r with rejected := satInc r.rejected }, sums)
  else
    ({ r with accumCount := r.accumCount + 1, lastVt := vt80 g.record.trigger.tag
              genLast := s.generationOf (s.sampleTick c g.record.fe (stop - 1)), endSample := some stop }
    , sums.zipWith (· + ·) ((List.range sums.length).map fun i => w.point (g.first + 8 + i) g.frac))

/-- R236, R238, R240: the span of the oldest waiting record is complete: it enters its accumulation, which may be closed since. -/
def effectAccumRecordAdd (c : Fin 128) (start : Nat) (raw : List RawSample) (s : State) : State :=
  let x := s.chan c.val
  match x.ear.find? Segment.waits with
  | some g =>
    let s := s.modChan c.val fun x => { x with ear := x.ear.erase g }
    if g.record.endSample.isSome then
      s.modChan c.val fun x => match x.copyRec with
        | some r => let (r, sums) := s.addAccum c.val g { start, raw } r x.copy
                    { x with copyRec := some r, copy := sums }
        | none => x
    else
      match x.openRec with
      | some r =>
        let (r, sums) := s.addAccum c.val g { start, raw } r x.sums
        let s := s.modChan c.val fun x => { x with openRec := some r, sums }
        if x.accum.target ≤ r.accumCount.toNat then
          (s.closeAccum c.val 0 (g.first + g.len)).modChan c.val fun x => { x with capState := 2 }
        else s
      | none => s
  | none => s

def execAccumRecordAdd (t : Nat) (c : Fin 128) (start : Nat) (raw : List RawSample) (s : State) : Host.Outcome State Fault Refusal :=
  .next (State.settle s (effectAccumRecordAdd c start raw (s.advance t)))

/-- R239: the bytes of accumulators. -/
def sumBytes (l : List Int) : Bytes := (l.map (leInt 8)).flatten

/-- R75, R240: the copy is complete: the result record is written and the accumulators are free. Records that ended before the close are
added first. -/
def effectAccumCopyDone (c : Fin 128) (s : State) : State :=
  let x := s.chan c.val
  match x.copyRec.filter fun _ => !x.ear.any fun g => g.waits && g.record.endSample.isSome with
  | some r =>
    let last := s.sampleTick c.val r.fe (r.endSample.getD 1 - 1)
    let r := { r with payload := sumBytes x.copy, count := BitVec.ofNat 32 x.copy.length, tsb := s.tsbOver r.startTick (last + 1) }
    (s.modChan c.val fun x => { x with copyRec := none, copy := [] }).writeRecord c.val r
  | none => s

def execAccumCopyDone (t : Nat) (c : Fin 128) (s : State) : Host.Outcome State Fault Refusal :=
  .next (State.settle s (effectAccumCopyDone c (s.advance t)))

/-- R216: a consumer releases its oldest item. -/
def execRingItemRelease (t : Nat) (ring : RingId) (consumer : Consumer) (s : State) : Host.Outcome State Fault Refusal :=
  .next (State.settle s ((s.advance t).modRing ring (·.release consumer)))

/-! ## Commands (R246 to R251) -/

/-- R250, R345: a channel of a mode from 2 on whose controller does not serve. -/
def State.noRingDram (s : State) (c : Nat) : Bool := decide (2 ≤ (s.chan c).capture.mode) && !s.stookUp (stookOf c)

/-- R250: what ARM_CAPTURE asks of the channels it names. -/
def State.armRefusal (s : State) (mask : BitVec 128) : Except Reply Unit :=
  let l := bitsOf mask
  if l.any fun c => !(s.chan c).fe.enable || (s.chan c).capture.mode == 0 then .error (badParam 0)
  else if s.power.opState ≠ .service then .error (refuse .notOwnerState)
  else if l.any fun c => s.noRingDram c || s.chanIsolated c then .error (refuse .degraded)
  else if 2 ^ 48 ≤ s.granary.nextRecordId then .error (refuse .exhausted)
  else .ok ()

/-- R251: CAPTURE_STATUS_GET's response. -/
def State.captureStatus (s : State) (c : Nat) : Bytes :=
  let x := s.chan c
  let ring := if x.capture.mode = 2 ∨ x.capture.mode = 3 then x.circ else if x.capture.mode = 4 then (s.source c).ring else x.ring
  let (n, rej) := match x.openRec with
    | some r => if r.kind = 4 then (r.accumCount.toNat, r.rejected.toNat) else (0, 0)
    | none => (0, 0)
  w8 c ++ w8 x.capState ++ w8 x.capture.mode ++ w8 x.lastReason ++ w32 x.earFree ++ w32 x.descriptorsUsed
    ++ w32 x.acquisitionId.toNat ++ w64 x.lastRecordId.toNat ++ w32 x.segments.toNat ++ w32 x.missed.toNat
    ++ w32 x.overflows.toNat ++ w32 n ++ w32 rej ++ w32 ring.freePages

end Sys2Proof.Machine
end

