-- ==== Sys2Proof/Machine/Links.lean ====
section
/-! DEFINITION. Rachis messages (R185 to R188): their bytes and check, the transmit queues, and what a tag that is fixed
after the decision changes (R164). -/

namespace Sys2Proof.Machine

/-- R185: one bit of the CRC-8, polynomial 0x07. -/
def crc8Bit (c : Byte) : Byte := if c.getLsbD 7 then (c <<< 1) ^^^ 0x07 else c <<< 1

def crc8Byte (c b : Byte) : Byte := crc8Bit (crc8Bit (crc8Bit (crc8Bit (crc8Bit (crc8Bit (crc8Bit (crc8Bit (c ^^^ b))))))))

/-- R185: bytes 0 to 10 of burst A. -/
def burstBytes (a : BurstA) : Bytes :=
  w8 (a.type.toNat + 16 * boolNat a.pair + 32 * a.hops.toNat) ++ w8 a.origin.toNat ++ w16 a.id.toNat
    ++ w48 a.sec.toNat ++ w8 a.route.toNat

/-- R185: the CRC-8 of a message. -/
def msgCheck (m : RachisMsg) : Byte :=
  (burstBytes m.a ++ w48 m.frac.toNat ++ w8 (boolNat m.pairB) ++ [m.flags, m.tsb]).foldl crc8Byte 0

/-- A message with its pair bits and check set. -/
def sealMsg (m : RachisMsg) (pair : Bool) : RachisMsg :=
  let m := { m with a := { m.a with pair }, pairB := pair }
  { m with crc := msgCheck m }

/-- A message of this module. -/
def State.newMsg (s : State) (type : BitVec 4) (id : U16) (v : Vt96) (route : BitVec 5) (flags tsb : Byte) : RachisMsg :=
  { a := { type, pair := false, hops := 0, origin := s.rachis.modId, id, sec := v.sec, route }
    frac := v.frac, pairB := false, flags, tsb, crc := 0 }

/-- SLICE ticks a message occupies the line: 216 ns (R185, log entry 22). -/
def messageTicks : Nat := 135

/-- The messages of a port's queue that have not left. -/
def RachisPort.queued (p : RachisPort) (clock : Nat) : Nat := (p.txFreeAt - clock + messageTicks - 1) / messageTicks

/-- R187: of messages that arrive in one SLICE tick the one of the lower-numbered port stands first. -/
def insertTx (e : TxEntry) : List TxEntry → List TxEntry
  | [] => [e]
  | x :: l =>
    match e.from_, x.from_ with
    | some p, some q => if x.tick = e.tick ∧ p < q then e :: x :: l else x :: insertTx e l
    | _, _ => x :: insertTx e l

/-- R185: the pair bits of a queue alternate; `last` is the bit of its last message. -/
def alternate (last : Bool) (l : List TxEntry) : List TxEntry :=
  (l.foldr (fun e acc => ({ e with msg := sealMsg e.msg acc.2 } :: acc.1, !acc.2)) ([], last)).1

/-- R187: the queue without its last message that came in this SLICE tick from a higher-numbered port. -/
def evictTx (e : TxEntry) (l : List TxEntry) : Option (List TxEntry) :=
  let later (x : TxEntry) : Bool := x.tick == e.tick && (match e.from_, x.from_ with
    | some p, some q => decide (p < q)
    | _, _ => false)
  if l.any later then some ((l.reverse.eraseP later).reverse) else none

/-- R181: time messages of this SLICE tick state the instant at which each leaves: the last of a queue is on the line up to `free`. -/
def State.restamp (s : State) (free : Nat) (l : List TxEntry) : List TxEntry :=
  (l.foldr (fun e acc =>
    let v := s.vtOfTick (acc.2 - messageTicks)
    let m := if e.msg.a.type = 9 ∧ e.tick = s.clock then { e.msg with a := { e.msg.a with sec := v.sec }, frac := v.frac } else e.msg
    ({ e with msg := m } :: acc.1, acc.2 - messageTicks)) ([], free)).1

/-- R187: queue a message on a port, or count it as not sent. A full queue gives up what came in this tick from a higher-numbered port. -/
def State.sendMsg (s : State) (p : Nat) (m : RachisMsg) (from_ : Option Nat := none) : State :=
  let x := s.rport p
  let n := x.queued s.clock
  let e : TxEntry := { msg := m, tick := s.clock, from_ }
  if 64 ≤ n then
    (s.modRport p fun x =>
      { x with txDropped := x.txDropped + 1
               tx := match evictTx e (lastN n x.tx) with
                 | some l => alternate (!x.txPair) (s.restamp x.txFreeAt (insertTx e l))
                 | none => x.tx }).raise 0x524 (w8 p)
  else
    let free := max x.txFreeAt s.clock + messageTicks
    s.modRport p fun x => { x with tx := alternate x.txPair (s.restamp free (insertTx e (lastN n x.tx))), txPair := !x.txPair, txFreeAt := free }

/-- R181, R183: the instant at which the comma of a message queued now leaves a port. -/
def State.launchAt (s : State) (p : Nat) : Vt96 := s.vtOfTick (max (s.rport p).txFreeAt s.clock)

/-- The ports that carry messages (R183, R201). -/
def State.upPorts (s : State) : List Nat := (List.range 4).filter fun p => (s.rport p).state == .up

/-- R187: send a message on every up port but one. -/
def State.sendAll (s : State) (m : RachisMsg) (not : Option Nat := none) : State :=
  s.each (s.upPorts.filter fun p => some p != not) fun s p => s.sendMsg p m

/-- R187, R179: forward a message with its hops increased; hop counts above 7 are not forwarded. -/
def State.forward (s : State) (p : Nat) (m : RachisMsg) : State :=
  if m.a.hops = 7 then s
  else s.each (s.upPorts.filter (· != p)) fun s q => s.sendMsg q { m with a := { m.a with hops := m.a.hops + 1 } } (some p)

/-- Send upstream, where a link towards the master is up (R190). -/
def State.sendUpstream (s : State) (m : RachisMsg) : State :=
  match s.rachis.upstream with
  | some p => if (s.rport p.val).state = .up then s.sendMsg p.val m else s
  | none => s

/-! ## Tags fixed after the decision (R164, R255) -/

/-- R168, R189: the instant at which an output places its edge for a trigger; none: at once. -/
def State.outInstant (s : State) (x : TrigOut) (d : Descriptor) : Option Vt96 :=
  if d.sourceKind = 5 then
    if s.rachis.cfg.remoteAlign then
      some (vtAdd d.tag (unitsOfPs (s.rachis.cfg.alignDelayNs * 1000 + x.offsetPs)))
    else none
  else some (vtAdd d.tag (unitsOfPs x.offsetPs))

/-- R168: an edge to place, among those that wait, earliest first. -/
def insertEdge (e : Vt96 × Descriptor) : List (Vt96 × Descriptor) → List (Vt96 × Descriptor)
  | [] => [e]
  | x :: l => if vtLt e.1 x.1 then e :: x :: l else x :: insertEdge e l

/-- R207: a segment, or a record of an accumulation, whose trigger's tag has changed; it reaches back to no sample before `since`. -/
def Segment.move (g : Segment) (trigger : Descriptor) (at_ : Nat × Nat) (since : Nat) : Segment :=
  let first := max (g.first + at_.1 - g.trig) since
  let stop := g.first + g.len + at_.1 - g.trig
  let r := { g.record with trigger }
  { g with first, len := stop - first, trig := at_.1, frac := at_.2
           record := if r.kind = 1 then { r with sync := first, pre := BitVec.ofNat 32 (at_.1 - first) } else r }

/-- R164, R207, R233: what a channel makes of a tag that is fixed after the decision: its segments move, an averaging begins at the sample
the tag gives, and the first time of an accumulation follows. -/
def State.retagChannel (s : State) (c : Nat) (g : Descriptor → Descriptor) : State :=
  let x := s.chan c
  let place (d : Descriptor) : Nat × Nat := s.triggerWith c (x.asOf d.tag).fe s.vtBase d.tag (d.flags.getLsbD 0)
  let seg (e : Segment) : Segment :=
    let d := g e.record.trigger
    if d = e.record.trigger then e
    else if e.filled then { e with record := { e.record with trigger := d } }
    else e.move d (place d) (x.asOf d.tag).since
  let record (r : Record) : Record :=
    let d := g r.trigger
    if d = r.trigger then r
    else { r with trigger := d, firstVt := if r.kind = 4 then vt80 (vtAdd d.tag (-(unitsOfPs (r.pre.toNat * 200)))) else r.firstVt }
  let sync (r : Record) : Record :=
    match r.syncBy with
    | some d => if g d = d then r else { r with syncBy := some (g d), sync := s.firstSampleAt c (g d).tag }
    | none => r
  let newStop : Option Nat := (x.openRec.bind fun r => if (sync r).sync = r.sync then none else some (sync r).sync)
  let moved := x.ear.map seg
  s.modChan c fun x =>
    { x with ear := moved, openRec := x.openRec.map fun r => sync (record r), copyRec := x.copyRec.map record
             ended := match newStop with
               | some n => lmod x.ended (x.ended.length - 1) fun r => if r.endCause = 6 then { r with endSample := some n } else r
               | none => x.ended
             lastSample := match x.ear.getLast?, moved.getLast? with
               | some a, some b => if a = b then x.lastSample else some ((match b.record.endSample with
                   | some e => min e (b.first + b.len)
                   | none => b.first + b.len) - 1)
               | _, _ => x.lastSample }

/-- Change the descriptors of comparator triggers that stand on an edge, wherever they still can be changed. -/
def State.retag (s : State) (kind index : Nat) (edge : Vt96) (f : Descriptor → Descriptor) : State :=
  let g (d : Descriptor) : Descriptor :=
    if d.sourceKind = kind ∧ d.sourceIndex = index ∧ d.tag = edge then f d else d
  let own (r : Nat) : Bool := ((s.routeN r).cfg.sourceKind == kind && (s.routeN r).cfg.sourceIndex == index)
    || ((s.routeN r).oldCfg.sourceKind == kind && (s.routeN r).oldCfg.sourceIndex == index)
  let msg (m : RachisMsg) : RachisMsg :=
    if m.a.type = 1 ∧ m.a.origin = s.rachis.modId ∧ own m.a.route.toNat ∧ m.a.sec = edge.sec ∧ m.frac = edge.frac then
      let d := g { sourceKind := kind, sourceIndex := index, tag := edge, flags := m.flags }
      sealMsg { m with a := { m.a with sec := d.tag.sec }, frac := d.tag.frac, flags := d.flags } m.a.pair
    else m
  let tag (t : Vt96) : Vt96 := (g { sourceKind := kind, sourceIndex := index, tag := t }).tag
  let s := s.each (List.range 32) fun s r => s.modRoute r fun x =>
    { x with last := g x.last, lastTag := if x.cfg.sourceKind = kind ∧ x.cfg.sourceIndex = index then x.lastTag.map tag else x.lastTag
             oldTag := if x.oldCfg.sourceKind = kind ∧ x.oldCfg.sourceIndex = index then x.oldTag.map tag else x.oldTag }
  let s := s.each (List.range 128) fun s c => s.retagChannel c g
  let edges (x : TrigOut) : List (Vt96 × Descriptor) :=
    (x.edgeAt.map fun e => let d := g e.2; (if d = e.2 then e.1 else (s.outInstant x d).getD e.1, d)).foldr insertEdge []
  let s := { s with trigOuts := vmodAll s.trigOuts fun _ x => { x with edgeAt := edges x } }
  s.each (List.range 4) fun s p => s.modRport p fun x => { x with tx := x.tx.map fun e => { e with msg := msg e.msg } }

/-- R164: the trigger of an edge that has no stamp carries the COARSE tag of its SLICE tick. -/
def State.coarsen (s : State) (kind index : Nat) (edge tick : Vt96) : State :=
  s.retag kind index edge fun d => { d with tag := tick, flags := d.flags ||| 1 }

end Sys2Proof.Machine
end

