-- ==== Sys2Proof/Machine/Stamps.lean ====
section
/-! DEFINITION. Awn (R253 to R270, R280 to R284, R148 to R150): lanes, dead time, the stamp queue, the stamp stream, the
code-density checks and the rows of chapter 07. -/

namespace Sys2Proof.Machine

/-! ## Lanes (R256, R260) -/

/-- Lanes in the round-robin; one under a periodic check stays in it (R149). -/
def Lane.inRobin (l : Lane) : Bool := l.state == .inService || l.state == .densityCheck

/-- R284: the in-service lane mask. -/
def StampSource.laneMask (x : StampSource) : Nat :=
  ((List.range 4).map fun i => if (vget x.lanes i).inRobin then 2 ^ i else 0).sum

def StampSource.laneCount (x : StampSource) : Nat := ((List.range 4).filter fun i => (vget x.lanes i).inRobin).length

/-- R260: the dead time in ps; 0 with no lane in service. -/
def StampSource.deadPs (x : StampSource) : Nat := if x.laneCount = 0 then 0 else 24000 / x.laneCount

/-- R256: a lane is free 24.0 ns after the edge it took. -/
def Lane.free (l : Lane) (edge : Vt96) : Bool :=
  match l.busyFrom with
  | none => true
  | some e => atLeastNs (vtSub edge e) 24

/-- R149, R260: the lane an edge takes: the next free one in cyclic order, one under check only when every other is
busy. -/
def StampSource.pickLane (x : StampSource) (edge : Vt96) : Option Nat :=
  let order := (List.range 4).map fun i => (x.nextLane + i) % 4
  let ok (st : LaneState) (i : Nat) : Bool := (vget x.lanes i).state == st && (vget x.lanes i).free edge
  match order.find? (ok .inService) with
  | some i => some i
  | none => order.find? (ok .densityCheck)

/-- R284: the code of a lane's state. -/
def LaneState.code : LaneState → Nat
  | .inService => 0 | .densityCheck => 1 | .relocking => 2 | .faulty => 3 | .unlocked => 4

/-! ## Entries (R264) -/

/-- R264: a marker or a stop word, which has bit 15 set and its cause in bits [14:12]. -/
def frameWord (sec : Nat) (tsb : Byte) (lanes bits : Nat) : U64 :=
  BitVec.ofNat 64 (sec % 2 ^ 20 * 2 ^ 44 + sec / 2 ^ 20 % 2 ^ 28 * 2 ^ 16 + bits * 2 ^ 12 + lanes * 2 ^ 8 + tsb.toNat)

/-- The seconds field of an entry. -/
def entrySec (w : U64) : BitVec 20 := w.extractLsb' 44 20

def EntryKind.isMarker : EntryKind → Bool
  | .marker .. => true
  | _ => false

/-- R262, R284: the entries that take a place in the queue: stamps and markers; a stop word and its mark take none (DESIGN CHOICE, log
entry 244). -/
def StampSource.depth (x : StampSource) : Nat := (x.queue.filter fun e => e.1 == .stamp || e.1.isMarker).length

/-- R265: a stamp stands before the markers of later seconds and the stop words that follow it. -/
def insertStamp (q : List (EntryKind × U64)) (w : U64) : List (EntryKind × U64) :=
  let later (e : EntryKind × U64) : Bool :=
    match e.1 with
    | .stamp => false
    | .marker .. => decide (0 < modDiff (entrySec e.2) (entrySec w))
    | _ => true
  let tail := (q.reverse.takeWhile later).reverse
  q.take (q.length - tail.length) ++ [(.stamp, w)] ++ tail

/-- The 8-byte words of an overflow mark (R267). -/
def markWords (m : Mark) : List U64 := (List.range 4).map fun i => BitVec.ofNat 64 (leNat (part m.bytes (8 * i) 8))

/-- R67: the VT of a stamp entry, its second resolved against the present. -/
def State.stampVt (s : State) (w : U64) : Vt96 :=
  ⟨BitVec.ofNat 48 (rebuild s.time.vtSec.toNat (entrySec w).toNat 20), BitVec.ofNat 48 (w.toNat % 2 ^ 44 * 16)⟩

/-! ## Stopping (R263, R267) -/

/-- The state code of a stopped stream (R284). -/
def stopState (cause : Nat) : Nat := if cause = 1 then 2 else 3

/-- R226, R267, R275: a running stream stops with a cause: the stop word, and for cause 1 the mark, which speaks of the last stamp of the queue,
behind which it is written; what is lost behind an overflow is not written any more. -/
def State.haltStamps (s : State) (i cause : Nat) : State :=
  let x := s.source i
  if !x.running then s
  else
    let stop := frameWord (x.frameSec.toNat + 1) s.time.tsb x.laneMask (8 + cause)
    let queued := (x.queue.filter fun e => e.1 == .stamp).map fun e => vt80 (s.stampVt e.2)
    let last := queued.getLast?.getD x.lastStamp
    let mark : Mark := { reason := 3, channel := if i < 128 then i else 0, mode := 4
                         lastGoodIndex := x.sinceArming + BitVec.ofNat 32 queued.length - 1, lastGoodVt := last
                         generation := s.generationAt (vtOfNat (s.vt80Units last)) }
    let words := (EntryKind.stop, stop) :: if cause = 1 then (markWords mark).map fun w => (EntryKind.mark, w) else []
    s.modSource i fun x =>
      { x with queue := x.queue ++ words, running := false, state := stopState cause, haltedAt := s.now
               stops := x.stops ++ [(s.time.labelChanges, s.vt80Units last + 1, vtNat s.now)]
               armed := x.armed && cause != 3, startAtBoundary := false
               held := if cause = 1 then [] else x.held }

/-- R263: the stamp queue is full; a stream that has stopped already only loses the stamp. -/
def State.stampOverflow (s : State) (i : Nat) : State :=
  if !(s.source i).running then s
  else
    let s := s.haltStamps i 1
    let s := if i < 128 then s.raise (chanEvent i 6) [] else s.raise (sheafEvent (sourceSheaf i) 5) (w16 i) [s.sourceOwner i]
    if i < 128 ∧ (s.chan i).capture.mode = 4 ∧ (s.chan i).capState = 1 then
      s.stopOverflow i 3 0xFF (vtOfNat (s.vt80Units (s.source i).lastStamp))
    else s

/-- A stamp enters the queue; one that finds it full is not written. -/
def State.enterStamp (s : State) (i : Nat) (w : U64) : State :=
  if 4096 ≤ (s.source i).depth then s.stampOverflow i
  else s.modSource i fun x =>
    { x with queue := insertStamp x.queue w, queueHigh := max x.queueHigh (x.depth + 1) }

/-- The slope setting of a source. -/
def State.sourceSlope (s : State) (i : Nat) : Nat := if i < 128 then (s.chan i).comp.slope else (s.source i).ti.slope

/-- R264: the marker of a second. -/
def State.enterMarker (s : State) (i : Nat) (sec : U48) : State :=
  let x := s.source i
  if 4096 ≤ x.depth then s.stampOverflow i
  else
    let level := if i < 128 then (s.chan i).compState else x.level
    let bits := boolNat level + 2 * boolNat x.configChanged + 4 * boolNat x.lostThis
    let kind : EntryKind := .marker (s.sourceSlope i) s.time.labelChanges s.jr.generation
    s.modSource i fun x =>
      { x with queue := x.queue ++ [(kind, frameWord sec.toNat s.time.tsb x.laneMask bits)], frameSec := sec
               lostThis := false, queueHigh := max x.queueHigh (x.depth + 1) }

/-- The edges whose stamps are not yet in the queue. -/
def StampSource.openEdges (x : StampSource) : List Vt96 :=
  x.held.map (·.1) ++ (List.range 4).filterMap fun l => (vget x.lanes l).converting.map (·.2)

/-- R261, R262, R265: stamps held for the dead time enter the queue once it has passed and no older edge still converts. -/
def State.releaseHeld (s : State) (i : Nat) : Nat → State
  | 0 => s
  | n + 1 =>
    let x := s.source i
    let converting := (List.range 4).filterMap fun l => (vget x.lanes l).converting.map (·.2)
    match x.held with
    | (edge, tag, _) :: rest =>
      if atLeastPs (vtSub s.now edge) x.deadPs && converting.all (vtLt edge) then
        let s := s.modSource i fun x => { x with held := rest }
        let s := if (if x.running then vtLe x.streamFrom tag else vtLt edge x.haltedAt) then s.enterStamp i (cs64 tag) else s
        s.releaseHeld i n
      else s
    | [] => s

/-- The stamps of a source whose dead time has passed are in its queue. -/
def State.stampsIn (s : State) (i : Nat) : State := s.releaseHeld i (s.source i).held.length

/-- R267: a stream stops, behind the stamps whose dead time has passed. -/
def State.stopStamps (s : State) (i cause : Nat) : State := (s.stampsIn i).haltStamps i cause

/-- R61, R267: where the label changes every stamp held enters the queue and the stream ends. An edge that still converts gets its stamp
under the new label, before S, and it is not written (DESIGN CHOICE, log entry 63). -/
def State.relabelStream (s : State) (i : Nat) : State :=
  let l := (s.source i).held
  let s := s.modSource i fun x => { x with held := [] }
  let s := s.each l fun s h => if (s.source i).running then s.enterStamp i (cs64 h.2.1) else s
  s.haltStamps i 4

/-! ## Edges (R260, R261) -/

/-- An edge is not stamped. -/
def State.loseEdge (s : State) (i : Nat) (edge : Vt96) : State :=
  s.modSource i fun x => { x with lostDeadtime := x.lostDeadtime + 1, lostThis := true, lostEdges := (s.time.labelChanges, edge) :: x.lostEdges }

/-- Take the stamp of an edge back: abandon its conversion, or drop it while it is held. If there was one: the tag its trigger has had of
it, and the clock at which the edge was seen. -/
def State.withdraw (s : State) (i : Nat) (edge : Vt96) : Option (Vt96 × Nat) × State :=
  let x := s.source i
  let there := match x.held.find? (·.1 == edge) with
    | some h => some h.2
    | none => (List.range 4).findSome? fun l => ((vget x.lanes l).converting.filter (·.2 == edge)).map fun e => (edge, e.1)
  (there, s.modSource i fun x =>
    { x with held := x.held.filter fun h => !(h.1 == edge), nextLane := if there.isSome then x.laneBefore else x.nextLane
             lanes := vmodAll x.lanes fun _ l =>
               if l.converting.any (·.2 == edge) then { l with converting := none, busyFrom := none } else l })

/-- R260, R261: an edge of a source at an instant: whether a lane takes it, and the tag and clock of the edge whose stamp is withdrawn. -/
def State.stampEdge (s : State) (i : Nat) (edge : Vt96) (bothSlopes : Bool) : Bool × Option (Vt96 × Nat) × State :=
  let s := s.stampsIn i
  let x := s.source i
  let close : Bool := match x.lastEdge with
    | some e => !atLeastPs (vtSub edge e) x.deadPs
    | none => false
  let s := s.modSource i fun x => { x with lastEdge := some edge }
  if x.laneCount = 0 then (false, none, s.loseEdge i edge)
  else if close then
    let s := s.loseEdge i edge
    match x.lastEdge, bothSlopes with
    | some e, true =>
      let (there, s) := s.withdraw i e
      if there.isSome then (false, there, s.loseEdge i e) else (false, none, s)
    | _, _ => (false, none, s)
  else
    match x.pickLane edge with
    | some l =>
      (true, none, s.modSource i fun x =>
        { x with nextLane := (l + 1) % 4, laneBefore := x.nextLane
                 lanes := vmod x.lanes l fun y => { y with busyFrom := some edge, converting := some (s.clock, edge) } })
    | none => (false, none, s.loseEdge i edge)

/-- The VT second and tick of a clock reading. -/
def State.secTick (s : State) (tick : Nat) : Nat × Nat :=
  let total := (s.time.vtSec.toNat * ticksPerSec + tick) - s.time.secStart
  (total / ticksPerSec, total % ticksPerSec)

/-- The sources' kind and index in a trigger descriptor; timing inputs feed no route. -/
def State.coarsenSource (s : State) (i : Nat) (edge : Vt96) (tick : Nat) : State :=
  if i < 128 then s.coarsen 0 i edge (s.vtOfTick tick) else s

/-- Held stamps stand in the order of their edges. -/
def insertHeld (h : Vt96 × Vt96 × Nat) : List (Vt96 × Vt96 × Nat) → List (Vt96 × Vt96 × Nat)
  | [] => [h]
  | a :: l => if vtLt h.1 a.1 then h :: a :: l else a :: insertHeld h l

/-- R224, R255: a conversion completes: the stamp is formed, held for the dead time unless the stream has overflowed, and fixes the tag of its
trigger. -/
def effectAwnConversionDone (source : Fin 132) (lane : Fin 4) (tap : Fin 64) (count : Fin 100) (s : State) : State :=
  let i := source.val
  let l := vget (s.source i).lanes lane.val
  match l.converting with
  | some (tick, edge) =>
    let (sec, j) := s.secTick tick
    let n := if count.val = 0 then 100 else count.val
    let tag := conversionTag sec j (laneTapEnd l i lane.val tap.val) (laneVern l i lane.val n) (s.removedDelay i)
    let s := s.modLane i lane.val fun y => { y with converting := none }
    let s := s.modSource i fun x => if x.state = 2 then x else { x with held := insertHeld (edge, tag, tick) x.held }
    let s := if i < 128 then s.retag 0 i edge fun d => { d with tag } else s
    s.stampsIn i
  | none => s

def execAwnConversionDone (t : Nat) (source : Fin 132) (lane : Fin 4) (tap : Fin 64) (count : Fin 100) (s : State) :
    Host.Outcome State Fault Refusal :=
  .next (State.settle s (effectAwnConversionDone source lane tap count (s.advance t)))

/-- R254: whether a receiver or comparator with a slope setting reports an edge. -/
def slopeTakes (slope : Nat) (rising : Bool) : Bool := slope == 2 || (slope == 0) == rising

/-- R111, R254: a timing input's edge; one to the level the receiver already holds is none. -/
def effectTiEdge (input : Fin 4) (rising : Bool) (tag : Vt96) (s : State) : State :=
  let i := 128 + input.val
  let x := s.source i
  let s := s.modSource i fun x => { x with level := rising, levelKnown := true }
  if !(x.levelKnown && x.level == rising) && x.ti.enable && !s.tiIsolated input.val && !s.looped 2 i && slopeTakes x.ti.slope rising then (s.stampEdge i tag (x.ti.slope == 2)).2.2 else s

def execTiEdge (t : Nat) (input : Fin 4) (rising : Bool) (tag : Vt96) (s : State) : Host.Outcome State Fault Refusal :=
  .next (State.settle s (effectTiEdge input rising tag (s.advance t)))

/-! ## The queue drains (R262, R264 to R267) -/

/-- Append an entry to the frame being written. -/
def appendEntry (w : U64) (complete : Bool) (l : List Item) : List Item :=
  lmod l (l.length - 1) fun it =>
    match it.body with
    | .stamps f es => { it with body := .stamps f (es ++ [w]), complete }
    | _ => it

/-- R264: the VT second of a marker. -/
def markerSec (w : U64) : Nat := (w.toNat / 2 ^ 16 % 2 ^ 28) * 2 ^ 20 + w.toNat / 2 ^ 44

/-- R264, R269: the frame a marker begins. -/
def StampSource.newFrame (x : StampSource) (s : State) (slope epoch : Nat) (gen : U32) (w : U64) : Item :=
  let info : FrameInfo := { sec := markerSec w, index := x.writeIndex.toNat, slope, epoch, level := if slope = 2 then boolNat (w.getLsbD 12) else slope }
  { id := x.ringBase + x.writeIndex.toNat, generation := gen, genFirst := gen, born := s.clock, body := .stamps info [w], complete := false }

/-- Write an entry to the ring: a marker begins the next frame and completes the one before; a stop word, with its mark,
completes its frame, and behind it a stopped stream is complete to its stop (R270). -/
def State.ringEntry (s : State) (i : Nat) (k : EntryKind) (w : U64) (last : Bool) : State :=
  s.modSource i fun x =>
    let old := overwriteStamps (x.ring.capacity - 8) x.ring.items
    let items := match k with
      | .marker slope epoch gen => (old.map fun it => { it with complete := true }) ++ [x.newFrame s slope epoch gen w]
      | .stamp => appendEntry w false old
      | .stop => appendEntry w last old
      | .mark => appendEntry w last old
    { x with ring := { x.ring with items, waiting := false }, writeIndex := x.writeIndex + 1
             stamps := if k = .stamp then x.stamps + 1 else x.stamps
             sinceArming := if k = .stamp then x.sinceArming + 1 else x.sinceArming
             lastStamp := if k = .stamp then vt80 (s.stampVt w) else x.lastStamp
             completeTo := if k = .stop && !x.running then x.haltedAt else x.completeTo }

/-- Whether the entry at the head of a queue waits for an edge that stands before it and is still open. -/
def StampSource.headWaits (x : StampSource) : EntryKind × U64 → Bool
  | (.stamp, _) => false
  | (.marker .., w) => x.openEdges.any fun e => decide (0 < modDiff (entrySec w) (entrySec (cs64 e)))
  | (_, _) => x.openEdges.any fun e => vtLt e x.haltedAt

/-- R217, R262: the next entry of the queue goes to the ring; without room the writer waits. -/
def State.drainEntry (s : State) (i : Nat) : State :=
  let x := s.source i
  match x.queue with
  | (k, w) :: rest =>
    if x.ring.hasRoom 8 then
      let last := match rest with
        | (.mark, _) :: _ => false
        | _ => true
      (s.modSource i fun x => { x with queue := rest }).ringEntry i k w last
    else s.modSource i fun x => { x with ring := { x.ring with waiting := true } }
  | [] => s

/-- The stook of a source's stream. -/
def sourceStook (i : Nat) : Nat := if i < 128 then stookOf i else if i < 130 then 0 else 7

/-- R217, R262: the queue drains by one entry, behind older edges still converting or held. -/
def effectStampQueueDrain (source : Fin 132) (s : State) : State :=
  let i := source.val
  let s := s.stampsIn i
  if ((s.source i).queue.head?.map (s.source i).headWaits).getD true || !s.stookUp (sourceStook i) then s else s.drainEntry i

def execStampQueueDrain (t : Nat) (source : Fin 132) (s : State) : Host.Outcome State Fault Refusal :=
  .next (State.settle s (effectStampQueueDrain source (s.advance t)))

/-- R270: complete_to moves on to an instant, not past the present or the stop, an edge still open or a stamp not yet in the ring; not while the
end of a stream that has since gone on is still in the queue. -/
def effectCompleteToUpdate (source : Fin 132) (upTo : Vt96) (s : State) : State :=
  let i := source.val
  let s := s.stampsIn i
  let x := s.source i
  let open_ := x.openEdges ++ x.queue.filterMap fun e => if e.1 = .stamp then some (s.stampVt e.2) else none
  let edge := if x.running then s.now else x.haltedAt
  let limit := open_.foldl (fun a b => if vtLt b a then b else a) (if vtLt edge upTo then edge else upTo)
  if !(x.running && x.queue.any fun e => e.1 == .stop) && vtLt x.completeTo limit then s.modSource i fun x => { x with completeTo := limit } else s

def execCompleteToUpdate (t : Nat) (source : Fin 132) (upTo : Vt96) (s : State) : Host.Outcome State Fault Refusal :=
  .next (State.settle s (effectCompleteToUpdate source upTo (s.advance t)))

/-! ## Arming (R283) -/

/-- The enable of a source's stream. -/
def State.streamEnabled (s : State) (i : Nat) : Bool :=
  if i < 128 then (s.source i).stampEnable || (s.chan i).capture.mode == 4 else (s.source i).ti.enable

/-- R283: the enable that ARM_STAMPS asks for. -/
def State.stampEnabled (s : State) (i : Nat) : Bool := if i < 128 then (s.source i).stampEnable else (s.source i).ti.enable

/-- R281: a stream runs only while its channel and comparator are enabled. -/
def State.sourceOn (s : State) (i : Nat) : Bool :=
  if i < 128 then (s.chan i).fe.enable && (s.chan i).comp.enable else (s.source i).ti.enable

/-- R283, R509: arm a source; a running one is unchanged, and a channel in sweep waits. -/
def State.armSource (s : State) (i : Nat) : State :=
  if (s.source i).running then s
  else if i < 128 && ((s.chan i).earSweep || (s.chan i).accSweep) then s.modSource i fun x => { x with armHeld := true }
  else s.modSource i fun x => { x with armed := true, armHeld := false, startAtBoundary := true }

/-- R283: disarm a source. -/
def State.disarmSource (s : State) (i : Nat) : State :=
  (s.stopStamps i 3).modSource i fun x =>
    { x with armed := false, armHeld := false, startAtBoundary := false, state := if x.armed && x.state != 2 then 3 else x.state }

/-- R280: in edge mode a channel's capture arms and disarms its stamp stream as well. -/
def State.armCapture (s : State) (c : Nat) : State :=
  let s := s.armChannel c
  if (s.chan c).capture.mode = 4 then s.armSource c else s

def State.disarmCapture (s : State) (c : Nat) : State :=
  let s := s.disarmChannel c
  if (s.chan c).capture.mode = 4 then s.disarmSource c else s

/-- R264, R283: a stream starts afresh: what its queue still holds goes to the ring as far as there is room; of the ring only what some consumer
has not released is left. -/
def State.freshStream (s : State) (i : Nat) : State :=
  let s := s.stampsIn i
  let s := s.each (List.range (s.source i).queue.length) fun s _ => s.drainEntry i
  s.modSource i fun x =>
    { x with running := true, startAtBoundary := false, state := 1, lostThis := false, streamFrom := vtSecond s.time.vtSec, held := []
             queue := [], ringBase := x.ringBase + x.writeIndex.toNat, writeIndex := 0, sinceArming := 0, lastStamp := 0
             ring := { x.ring with items := if x.ring.consumers.isEmpty then [] else x.ring.held.map fun it => { it with complete := true } } }

/-- R264, R266, R268, R283: at a VT second boundary an armed source starts afresh, and a running one writes its marker; a change of this second
stands in no later one. -/
def State.boundaryMarker (s : State) (i : Nat) : State :=
  let x := s.source i
  let s :=
    if x.startAtBoundary && s.sourceOn i && s.stookUp (sourceStook i) then (s.freshStream i).enterMarker i s.time.vtSec
    else if x.running then (s.stampsIn i).enterMarker i s.time.vtSec
    else s
  s.modSource i fun x => { x with configChanged := false }

/-- R283: what ARM_STAMPS asks of the sources it names. -/
def State.armStampsRefusal (s : State) (mask : BitVec 132) (arm : Bool) : Except Reply Unit :=
  let l := bitsOf mask
  if l.any fun i => !s.stampEnabled i then .error (badParam 0)
  else if arm && s.power.opState != .service then .error (refuse .notOwnerState)
  else if arm && l.any fun i => !s.stookUp (sourceStook i) || s.sourceIsolated i then .error (refuse .degraded)
  else .ok ()

/-- R284: the state of a source. -/
def State.streamState (s : State) (i : Nat) : Nat :=
  let x := s.source i
  if x.running then 1 else if s.streamEnabled i then x.state else 0

/-- R266: the index of the oldest marker still held. -/
def StampSource.oldestMarker (x : StampSource) : Nat :=
  (x.ring.items.findSome? fun it =>
    match it.body with
    | .stamps f _ => if x.ringBase ≤ it.id && !f.headless then some f.index else none
    | _ => none).getD x.writeIndex.toNat

/-- R284: AWN_STATUS_GET's response. -/
def State.awnStatus (s : State) (i : Nat) : Bytes :=
  let s := s.stampsIn i
  let x := s.source i
  w16 i ++ w8 (s.streamState i) ++ w8 x.laneMask ++ ((List.range 4).map fun l => w8 (vget x.lanes l).state.code).flatten
    ++ w16 x.depth ++ w16 x.queueHigh ++ w32 x.deadPs ++ w64 x.stamps.toNat ++ w64 x.lostDeadtime.toNat
    ++ w64 x.writeIndex.toNat ++ w64 x.oldestMarker ++ vt80Bytes (vt80 x.completeTo) ++ w16 x.relocks.toNat
    ++ w8 (s.sourceOwner i) ++ zeros 3

/-! ## Code-density checks (R148 to R150, R257) -/

/-- R148: a lane's check begins, one lane of a source at a time. -/
def effectAwnDensityCheck (source : Fin 132) (lane : Fin 4) (s : State) : State :=
  let x := s.source source.val
  if (List.range 4).any fun l => (vget x.lanes l).state == .densityCheck then s
  else s.modLane source.val lane.val fun y => if y.state = .inService then { y with state := .densityCheck } else y

def execAwnDensityCheck (t : Nat) (source : Fin 132) (lane : Fin 4) (s : State) : Host.Outcome State Fault Refusal :=
  .next (State.settle s (effectAwnDensityCheck source lane (s.advance t)))

/-- R148: ends of the taps from the hits, units of 2⁻⁴⁸ s. -/
def measuredTaps (hits : List Nat) : List Nat :=
  (List.range hits.length).map fun m => (hits.take (m + 1)).sum * 2 ^ 48 / (max hits.sum 1 * ticksPerSec)

/-- R148: centres of the vernier bins from the hits over 25 ps, index n − 1, units of 2⁻⁴⁸ s; entry 0 stands for no
bin. -/
def measuredVerns (hits : List Nat) : List Nat :=
  0 :: (List.range hits.length).map fun n =>
    (2 * (hits.take n).sum + (hits[n]?).getD 0) * 2 ^ 48 / (2 * max hits.sum 1 * 40000000000)

/-- R150: taps outside 25 ± 5 ps or bins outside 0.25 ± 0.05 ps. -/
def tablesBad (taps verns : List Nat) : Bool :=
  taps.any (fun h => decide (1600 * h < 20 * taps.sum ∨ 30 * taps.sum < 1600 * h))
    || verns.any fun h => decide (250 * h < 2 * verns.sum ∨ 3 * verns.sum < 250 * h)

/-- The largest tap-width error in fs (R156). -/
def worstTap (taps : List Nat) : Nat :=
  (taps.map fun h => ((1600000 * (h : Int) / max taps.sum 1) - 25000).natAbs).foldl max 0

/-- R150: more than 20 fs between two times in units of 2⁻⁴⁸ s. -/
def movedCode (a b : Nat) : Bool := decide (20 * 2 ^ 48 < ((a : Int) - b).natAbs * 1000000000000000)

/-- R148: twice the middle of tap m, from the ends of the taps. -/
def tapMiddle (ends : Nat → Nat) (m : Nat) : Nat := ends m + (if m = 0 then 0 else ends (m - 1))

/-- R148, R150: whether the middle of a tap moved by more than 20 fs. -/
def movedTap (a b : Nat → Nat) (m : Nat) : Bool :=
  decide (40 * 2 ^ 48 < ((tapMiddle a m : Int) - tapMiddle b m).natAbs * 1000000000000000)

/-- R150, R257: a check completes. -/
def effectAwnCheckDone (source : Fin 132) (lane : Fin 4) (tapHits vernHits : List Nat) (s : State) : State :=
  let i := source.val
  let l := vget (s.source i).lanes lane.val
  if !(l.state == .densityCheck || l.holdCheck) then s
  else
    let s := s.modLane i lane.val fun y => { y with worstFs := BitVec.ofNat 32 (worstTap tapHits) }
    let worst := ((s.source i).lanes.toList.map fun y => y.worstFs.toNat).foldl max 0
    let s := if i < 128 then s.modChan i fun c => { c with awnChecks := c.awnChecks + 1, awnWorstFs := BitVec.ofNat 32 worst } else s
    if tablesBad tapHits vernHits then
      (s.modLane i lane.val fun y => { y with state := .faulty, holdCheck := false }).raise
        (sheafEvent (sourceSheaf i) 3) (w16 i ++ w8 lane.val) [s.sourceOwner i]
    else
      let taps := measuredTaps tapHits
      let verns := measuredVerns vernHits
      let mask := if i < 128 then setBit (0 : BitVec 128) i true else 0
      if l.holdCheck then
        (s.modLane i lane.val fun y =>
          { y with state := .inService, holdCheck := false, relocking := false, tables := some (taps, verns) }).modCal
          fun k => { k with logExtra := k.logExtra ||| 0x20, logExtraMask := k.logExtraMask ||| mask }
      else
        let moved := (List.range 64).any (movedTap (fun m => (taps[m]?).getD 0) (laneTapEnd l i lane.val))
          || (List.range 100).any fun n => movedCode ((verns[n + 1]?).getD 0) (laneVern l i lane.val (n + 1))
        let s := s.modLane i lane.val fun y => { y with state := .inService }
        if moved then s.stageMgmt (.awnTables source lane taps verns) else s

def execAwnCheckDone (t : Nat) (source : Fin 132) (lane : Fin 4) (tapWidths vernWidths : List Nat) (s : State) :
    Host.Outcome State Fault Refusal :=
  .next (State.settle s (effectAwnCheckDone source lane tapWidths vernWidths (s.advance t)))

/-- R257: a lane's loop is declared unlocked. -/
def effectAwnLoopUnlock (source : Fin 132) (lane : Fin 4) (loop : Fin 3) (s : State) : State :=
  let i := source.val
  let l := vget (s.source i).lanes lane.val
  let s := match l.converting with
    | some (tick, edge) => (s.loseEdge i edge).coarsenSource i edge tick
    | none => s
  let s := s.modLane i lane.val fun y =>
    { y with state := if y.state = .faulty then .faulty else .unlocked, converting := none, holdCheck := false }
  if i < 128 then s.raise (chanEvent i 5) (w8 lane.val ++ w8 loop.val)
  else s.raise (sheafEvent (sourceSheaf i) 4) (w16 i ++ w8 lane.val ++ w8 loop.val) [s.sourceOwner i]

def execAwnLoopUnlock (t : Nat) (source : Fin 132) (lane : Fin 4) (loop : Fin 3) (s : State) :
    Host.Outcome State Fault Refusal :=
  .next (State.settle s (effectAwnLoopUnlock source lane loop (s.advance t)))

/-- R257: a relocked lane is checked at once and returns once it has passed. -/
def effectAwnRelockAttempt (source : Fin 132) (lane : Fin 4) (relocked : Bool) (s : State) : State :=
  let l := vget (s.source source.val).lanes lane.val
  if l.state == .unlocked && relocked then
    (s.modLane source.val lane.val fun y => { y with state := .relocking, holdCheck := true }).modSource source.val
      fun x => { x with relocks := x.relocks + 1 }
  else s

def execAwnRelockAttempt (t : Nat) (source : Fin 132) (lane : Fin 4) (relocked : Bool) (s : State) :
    Host.Outcome State Fault Refusal :=
  .next (State.settle s (effectAwnRelockAttempt source lane relocked (s.advance t)))

end Sys2Proof.Machine
end

