-- ==== Sys2Proof/Machine/Trigger.lean ====
section
/-! DEFINITION. Triggers (R159 to R178, R195): the acceptance of a trigger by a route, its consumers, TRIG OUT, the
Tiller, and the rows of the sources. -/

namespace Sys2Proof.Machine

/-! ## TRIG OUT (R167, R168, R189) -/

/-- R196: whether the Tiller drives an output: it runs, and its program pulses it. -/
def State.tillerDrives (s : State) (o : Nat) : Bool :=
  s.tiller.running && s.tiller.steps.any fun x => x.actions.getLsbD 0 && x.outMask.getLsbD o

/-- An output pulse begins at a clock reading; within a pulse it begins anew only off the fast path (log entry 23). -/
def State.startPulseAt (s : State) (tick o : Nat) : State :=
  s.modTrigOut o fun x =>
    if x.pulse && x.onFastPath then x
    else { x with pulse := true, pulseUntil := tick + ticksOfNs x.widthNs }

def State.startPulse (s : State) (o : Nat) : State := s.startPulseAt s.clock o

/-- R545: whether a Drill run pulses an output, which then ignores its route. -/
def State.drillHolds (s : State) (o : Nat) : Bool :=
  (s.drill.state == .waiting || s.drill.state == .playing) && s.drill.cfg.markOutput == o

/-- The outputs a route feeds. -/
def State.outsOf (s : State) (r : Nat) : List Nat :=
  (List.range 4).filter fun o =>
    let x := vget s.trigOuts o
    x.enable && x.route == r && !s.tillerDrives o && !s.drillHolds o

/-- R167, R168: an output takes an accepted trigger. -/
def State.outTrigger (s : State) (o r : Nat) (d : Descriptor) : State :=
  let x := vget s.trigOuts o
  if x.onFastPath then s.startPulse o
  else
    match s.outInstant x d with
    | none => s.startPulse o
    | some v =>
      if vtLt v s.now then (s.modRoute r fun y => { y with outLate := y.outLate + 1 }).startPulse o
      else s.modTrigOut o fun x => { x with edgeAt := insertEdge (v, d) x.edgeAt }

/-- R189: whether a remote trigger is too late for some output. -/
def State.lateAlign (s : State) (r : Nat) (d : Descriptor) : Bool :=
  d.sourceKind == 5 && (s.outsOf r).any fun o =>
    match s.outInstant (vget s.trigOuts o) d with
    | some v => vtLt v s.now
    | none => false

/-! ## Consumers (R160) -/

/-- R188: the message of an accepted trigger. -/
def State.triggerMsg (s : State) (r : Nat) (d : Descriptor) : RachisMsg :=
  { s.newMsg 1 d.triggerId d.tag (BitVec.ofNat 5 (if d.sourceKind = 5 then d.sourceIndex else r)) d.flags d.tsb with
    a := { (s.newMsg 1 d.triggerId d.tag (BitVec.ofNat 5 (if d.sourceKind = 5 then d.sourceIndex else r)) d.flags d.tsb).a with
           origin := d.origin } }

/-- R542: a Drill run waiting on the route takes its start from the tag. -/
def State.drillTrigger (s : State) (r : Nat) (d : Descriptor) : State :=
  if s.drill.state = .waiting ∧ s.drill.waitRoute = some r then
    let v := vtAdd d.tag (unitsOfNs s.drill.waitOffsetNs)
    let tick := s.tickOfVt v
    if tick ≤ s.clock then
      s.modDrill fun x => { x with waitRoute := none, lateStarts := x.lateStarts + 1, startTick := s.clock + 1
                                   tStart := s.vtOfTick (s.clock + 1) }
    else s.modDrill fun x => { x with waitRoute := none, startTick := tick, tStart := s.vtOfTick tick }
  else s

/-- R161, R188: the transmit set takes an accepted trigger. A lower-numbered route of the same tick takes the place of the one whose message
still waits (DESIGN CHOICE, log entry 57). -/
def State.sendTrigger (s : State) (r : Nat) (d : Descriptor) : State :=
  let tick := tickOfTag d.tag
  let m := s.triggerMsg r d
  if !s.rachis.cfg.txRouteMask.getLsbD r then s
  else
    match s.rachis.acted.filter fun a => decide (a.1 = tick ∧ a.2.1 ≠ r) with
    | some (_, r', m') =>
      if r' < r then s.countCoincident r r'
      else
        let same (a : RachisMsg) : Bool := a.a.type == 1 && a.a.origin == m'.a.origin && a.a.route == m'.a.route && a.a.id == m'.a.id
        let waits (p : Nat) (x : RachisPort) : Bool := (lastN (x.queued s.clock) x.tx).any fun e => same e.msg && decide (p < 4)
        if (List.range 4).any fun p => waits p (s.rport p) then
          let s := s.countCoincident r' r
          let s := s.each (List.range 4) fun s p => s.modRport p fun x =>
            { x with tx := x.tx.map fun e => if same e.msg then { e with msg := sealMsg m e.msg.a.pair } else e }
          s.modRachis fun x => { x with acted := some (tick, r, m) }
        else s.countCoincident r r'
    | none => (s.sendAll m).modRachis fun x => { x with acted := some (tick, r, m) }

/-- R177: the routes the Tiller's program names. -/
def Tiller.names (p : Tiller) (r : Nat) : Bool := p.steps.any fun x => x.condKind == 1 && x.condIndex == r

/-- R161, R177: the Tiller sees an accepted trigger in its CORE tick; of routes it names that accept in one SLICE tick only the lowest. -/
def State.tillerAccept (s : State) (r : Nat) (d : Descriptor) : State :=
  let tick := tickOfTag d.tag
  let core := s.coreOf s.clock
  let see (bits : U32) (s : State) : State := s.modTiller fun x =>
    { x with acceptedAt := core, accepted := setBit bits r true, acted := some (tick, r) }
  let bits := if s.tiller.acceptedAt = core then s.tiller.accepted else 0
  if !(s.tiller.running && s.tiller.names r) then s
  else
    match s.tiller.acted.filter fun a => decide (a.1 = tick ∧ a.2 ≠ r) with
    | some (_, r') => if r' < r then s.countCoincident r r' else see (setBit bits r' false) (s.countCoincident r' r)
    | none => see bits s

/-- Every consumer of an accepted trigger, in a fixed order: channels, outputs, the Rachis transmit set, the Tiller, the
Drill. No capture runs outside service (R176). -/
def State.consume (s : State) (r : Nat) (d : Descriptor) : State :=
  let s := if s.power.opState = .service ∨ s.power.opState = .powerFail then
      s.each (List.range 128) fun s c => (s.syncTrigger c r d).captureTrigger c r d
    else s
  let s := s.each (s.outsOf r) fun s o => s.outTrigger o r d
  ((s.sendTrigger r d).tillerAccept r d).drillTrigger r d

/-! ## Acceptance (R169, R170, R174) -/

/-- R169: whether a route discards a trigger of a tag under its hold-off. -/
def Route.discards (x : Route) (tag : Vt96) : Bool :=
  if x.cfg.holdoffMode = 1 then
    match x.lastTag with
    | some a => decide (vtSub tag a * ticksPerSec < (2 * x.cfg.holdoff * 2 ^ 48 : Nat))
    | none => false
  else x.cfg.holdoffMode == 2 && decide (0 < x.discardLeft)

/-- R174: the descriptor of a trigger a route accepts. -/
def State.acceptedDescriptor (s : State) (r : Nat) (d : Descriptor) : Descriptor :=
  let x := s.routeN r
  let d := { d with route := r, coincident := 0, discarded := x.sinceAccepted, generation := s.generationAt d.tag }
  if d.sourceKind = 5 then (if s.lateAlign r d then { d with flags := d.flags ||| 8 } else d)
  else { d with triggerId := x.accepted.setWidth 16, origin := s.rachis.modId }

/-- R169 to R171: a qualifying trigger at a route. -/
def State.offerTrigger (s : State) (r : Nat) (d : Descriptor) : State :=
  let x := s.routeN r
  if !(x.state == .armed || x.state == .holdoff) then s
  else if x.discards d.tag then
    s.modRoute r fun x => { x with discarded := x.discarded + 1, sinceAccepted := satInc x.sinceAccepted
                                   discardLeft := x.discardLeft - 1 }
  else
    let d := s.acceptedDescriptor r d
    let s := s.modRoute r fun x =>
      { x with accepted := x.accepted + 1, sinceAccepted := 0, last := d, lastTag := some d.tag
               discardLeft := if x.cfg.holdoffMode = 2 then x.cfg.holdoff else 0
               state := if x.cfg.singleShot then .spent else if x.cfg.holdoffMode = 0 then .armed else .holdoff }
    let s := if d.flags.getLsbD 3 then s.raise 0x525 (w8 1 ++ w8 d.origin.toNat ++ w16 d.triggerId.toNat) else s
    s.consume r d

/-- R198: the state a route reports; an enabled route that is disarmed reads 0 (DESIGN CHOICE, log entry 237). -/
def State.routeState (s : State) (x : Route) : Nat :=
  match x.state with
  | .disabled => 0
  | .disarmed => 0
  | .armed => 1
  | .spent => 3
  | .holdoff => if x.discards s.now then 2 else 1

/-- A trigger of a source kind at its tag. -/
def State.seed (s : State) (kind index : Nat) (flags : Byte) (tag : Vt96) : Descriptor :=
  { sourceKind := kind, sourceIndex := index, flags, tag, tsb := s.tsbAt (s.tickHolding tag) }

/-- R172: the settings that judge a trigger of a tag: those before the last commit that changed the route, for one tagged before it. -/
def Route.cfgAt (x : Route) (tag : Vt96) : RouteCfg :=
  match x.oldUntil with
  | some v => if vtLt tag v then x.oldCfg else x.cfg
  | none => x.cfg

/-- The routes that take a source's trigger of a tag, ascending. -/
def State.routesOf (s : State) (kind index : Nat) (tag : Vt96) : List Nat :=
  (List.range 32).filter fun r =>
    let c := (s.routeN r).cfgAt tag
    c.sourceKind == kind && c.sourceIndex == index

/-- R172: run a judgement under the settings before the commit when the tag lies before it. -/
def State.underOld (s : State) (r : Nat) (tag : Vt96) (f : State → State) : State :=
  let x := s.routeN r
  match x.oldUntil with
  | some v =>
    if vtLt tag v then
      let s := f (s.modRoute r fun y =>
        { y with cfg := y.oldCfg, state := y.oldState, lastTag := y.oldTag, discardLeft := y.oldLeft })
      s.modRoute r fun y =>
        { y with oldState := y.state, oldTag := y.lastTag, oldLeft := y.discardLeft
                 cfg := x.cfg, state := x.state, lastTag := x.lastTag, discardLeft := x.discardLeft }
    else f s
  | none => f s

/-- R169, R172: a trigger at a route, judged by the settings its tag falls under. -/
def State.offer (s : State) (r : Nat) (d : Descriptor) : State := s.underOld r d.tag fun s => s.offerTrigger r d

/-- A trigger of a source at the routes that take it with a slope. -/
def State.offerSlope (s : State) (d : Descriptor) (rising : Bool) : State :=
  s.each ((s.routesOf d.sourceKind d.sourceIndex d.tag).filter fun r => slopeTakes ((s.routeN r).cfgAt d.tag).slope rising) fun s r => s.offer r d

/-! ## The Tiller (R175 to R178) -/

/-- R175: the states in which the Tiller may run. -/
def OpState.tillerMay (o : OpState) : Bool := o == .startUp || o == .recovery || o == .maintenance

/-- R177: a running timer has counted its value down. -/
def State.timerDone (s : State) (i : Nat) : Bool :=
  s.tiller.timerRuns.getLsbD i && decide ((s.tiller.timerFrom[i]?).getD 0 + ((s.tiller.timers[i]?).getD 0).toNat ≤ s.coreOf s.clock)

/-- R177: timers that have counted down are expired. -/
def State.expireTimers (s : State) : State :=
  s.each (List.range 4) fun s i =>
    if s.timerDone i then
      s.modTiller fun p => { p with timerRuns := setBit p.timerRuns i false, expired := setBit p.expired i true, timers := lset p.timers i 0 }
    else s

/-- R177: a condition on the sampled tick. -/
def State.tillerCond (s : State) (x : TillerStep) : Bool :=
  let p := s.tiller
  match x.condKind with
  | 0 => true
  | 1 => p.acceptedAt == s.coreOf s.clock && p.accepted.getLsbD x.condIndex
  | 2 => decide ((p.terminals[x.condIndex]?).getD 0 ≤ ((p.counters[x.condIndex]?).getD 0).toNat)
  | 3 => p.expired.getLsbD x.condIndex
  | 4 => (vget s.trigIns x.condIndex).level
  | _ => p.pokeAt == s.coreOf s.clock && p.poke.getLsbD x.condIndex

/-- R177: the eligible transition of lowest priority value, the lowest-numbered among equals, with its number. -/
def State.tillerPick (s : State) : Option (Nat × TillerStep) :=
  let all := (List.range s.tiller.steps.length).zip s.tiller.steps
  let ok := all.filter fun e => (e.2.from_ == 255 || e.2.from_ == s.tiller.state) && s.tillerCond e.2
  (List.range 4).findSome? fun p => ok.find? fun e => e.2.priority == p

/-- R177: timer `i` stands still at what is left of its value at a CORE tick. -/
def Tiller.stopTimer (p : Tiller) (core i : Nat) : Tiller :=
  if p.timerRuns.getLsbD i then
    { p with timerRuns := setBit p.timerRuns i false
             timers := lmod p.timers i fun v => v - BitVec.ofNat 40 (core - (p.timerFrom[i]?).getD 0) }
  else p

/-- R177: the actions of a transition at a CORE tick, in ascending bit order; the tag of a Tiller output is the tick of the action. -/
def State.tillerAct (s : State) (core n : Nat) (x : TillerStep) : State :=
  let on (b : Nat) : Bool := x.actions.getLsbD b
  let s := if on 0 then s.each ((List.range 4).filter fun o => x.outMask.getLsbD o && (vget s.trigOuts o).enable) fun s o => s.startPulseAt (s.coreClock core) o else s
  let tag := s.vtOfTick (s.coreClock core)
  let s := if on 1 then
      s.each ((List.range 4).filter fun k => x.outMask.getLsbD (4 + k)) fun s k =>
        s.each (s.routesOf 8 k tag) fun s r => s.offer r (s.seed 8 k 0x20 tag)
    else s
  let s := if on 2 then s.modTiller fun p => { p with counters := lset p.counters x.counter 0 } else s
  let s := if on 3 then s.modTiller fun p => { p with counters := lmod p.counters x.counter satInc } else s
  let s := if on 4 then
      s.modTiller fun p =>
        { p with timers := lset p.timers x.timer (BitVec.ofNat 40 ((p.presets[x.timer]?).getD 1)), timerFrom := lset p.timerFrom x.timer core
                 timerRuns := setBit p.timerRuns x.timer true, expired := setBit p.expired x.timer false }
    else s
  let s := if on 5 then s.modTiller fun p => p.stopTimer core x.timer else s
  let s := if on 6 then s.raiseAt tag 0x520 (w8 n) else s
  let s := s.modTiller fun p => { p with state := x.next }
  if on 7 then s.modTiller fun p => { p with running := false } else s

/-- R177: transitions whose 2 CORE ticks have passed take effect, in the order they were taken, each at its tick. They are brought in with the
next row or command that meets the Tiller, a route or TRIG OUT, and at second boundaries (DESIGN CHOICE, log entry 59). -/
def State.tillerDue (s : State) : State :=
  let now := s.tiller.due.filter fun e => decide (e.1 ≤ s.coreOf s.clock)
  let s := s.modTiller fun p => { p with due := p.due.filter fun e => !decide (e.1 ≤ s.coreOf s.clock) }
  s.each now fun s e => s.tillerAct e.1 e.2.1 e.2.2

/-- R177: the Tiller brought up to the present tick. -/
def State.tillerNow (s : State) : State := s.tillerDue.expireTimers

/-! ## Sources (R162 to R166) -/

/-- R111, R162, R164: an edge of a channel's comparator: its lanes, then the routes that take it. Only a change of the comparator's state is
an edge; one before a commit is judged by the settings before it (R35), a channel that has failed keeps its comparator (R109). -/
def effectComparatorEdge (c : Fin 128) (rising : Bool) (tag : Vt96) (s : State) : State :=
  let x := (s.chan c.val).asOf tag
  let masked := x.masked && ((x.before.map fun b => !vtLt tag b.vt).getD true)
  if !(x.fe.enable && x.comp.enable) || masked || x.compFault || s.chanIsolated c.val || (x.compKnown && x.compState == rising)
      || s.looped 0 c.val || s.looped 2 c.val then s
  else
    let s := s.modChan c.val fun x => { x with compState := rising, compKnown := true }
    if !slopeTakes x.comp.slope rising then s
    else
      let (stamped, withdrawn, s) := s.stampEdge c.val tag (x.comp.slope == 2)
      let s := match withdrawn with
        | some (e, tick) => s.coarsen 0 c.val e (s.vtOfTick tick)
        | none => s
      s.offerSlope (if stamped then s.seed 0 c.val 0 tag else s.seed 0 c.val 1 s.now) rising

def execComparatorEdge (t : Nat) (c : Fin 128) (rising : Bool) (tag : Vt96) (s : State) :
    Host.Outcome State Fault Refusal :=
  .next (State.settle s (effectComparatorEdge c rising tag (s.advance t).tillerNow))

/-- R165: a TRIG IN edge, a change of its level; a trigger edge, one that a route's slope takes, is stamped, and within 24.0 ns of the last stamped
one it carries a COARSE tag. -/
def effectTrigInEdge (input : Fin 4) (rising : Bool) (tag : Vt96) (s : State) : State :=
  let x := vget s.trigIns input.val
  let takes := (s.routesOf 4 input.val tag).any fun r => slopeTakes ((s.routeN r).cfgAt tag).slope rising
  let free : Bool := match x.lastStamp with
    | some e => atLeastNs (vtSub tag e) 24
    | none => true
  if x.known && x.level == rising then s
  else
    let s := { s with trigIns := vset s.trigIns input.val { level := rising, known := true, lastStamp := if takes && free then some tag else x.lastStamp } }
    s.offerSlope (if free then s.seed 4 input.val 0 tag else s.seed 4 input.val 1 s.now) rising

def execTrigInEdge (t : Nat) (input : Fin 4) (rising : Bool) (tag : Vt96) (s : State) : Host.Outcome State Fault Refusal :=
  .next (State.settle s (effectTrigInEdge input rising tag (s.advance t).tillerNow))

/-- R163: where a crossing of `level` between two samples lies, to 1/64 sample, after the second, fs. -/
def crossingFs (prev cur level : Int) : Int :=
  let num := (level - prev).natAbs
  let den := (cur - prev).natAbs
  let q := if den = 0 then 64 else min 64 ((128 * num + den) / (2 * den))
  (q : Int) * 3125 - 200000

/-- R163: the slopes a clean sample fires of a condition, and where it fires after the sample, fs. -/
def Digital.fires (e : Digital) (cfg : RouteCfg) (x : Int) : Bool × Bool × Int :=
  let p := e.prev.headD x
  if cfg.sourceKind = 1 then
    (e.up && cfg.slope != 1 && decide (cfg.levelA ≤ x), e.down && cfg.slope != 0 && decide (x ≤ cfg.levelA), crossingFs p x cfg.levelA)
  else if cfg.sourceKind = 2 then
    let inside (y : Int) : Bool := decide (cfg.levelA ≤ y ∧ y ≤ cfg.levelB)
    let low := decide (p < cfg.levelA ∨ x < cfg.levelA)
    (!inside p && inside x && cfg.slope != 1, inside p && !inside x && cfg.slope != 0, crossingFs p x (if low then cfg.levelA else cfg.levelB))
  else
    let met (d : Int) : Bool := (cfg.slope != 1 && decide (cfg.levelA ≤ d)) || (cfg.slope != 0 && decide (cfg.levelA ≤ -d))
    match e.prev[cfg.levelB.toNat - 1]? with
    | some y => (met (x - y) && !e.run, false, 0)
    | none => (false, false, 0)

/-- R162, R163: one sample of the evaluation of a digital condition; where it fires, the time after the sample, fs. A flagged sample ends the
evaluation. A sample that fires a slope does not arm it again (DEDUCED, log entry 58). -/
def Digital.step (e : Digital) (cfg : RouteCfg) (x : Int) (flagged : Bool) : Digital × Option Int :=
  if flagged then ({ next := e.next + 1 }, none)
  else
    let (up, down, at_) := e.fires cfg x
    let met (d : Int) : Bool := (cfg.slope != 1 && decide (cfg.levelA ≤ d)) || (cfg.slope != 0 && decide (cfg.levelA ≤ -d))
    ({ next := e.next + 1, prev := (x :: e.prev).take 64
       up := !up && (e.up || decide (x ≤ cfg.levelA - cfg.hysteresis)), down := !down && (e.down || decide (cfg.levelA + cfg.hysteresis ≤ x))
       run := (e.prev[cfg.levelB.toNat - 1]?).any fun y => met (x - y) }
    , if up || down then some at_ else none)

/-- The evaluation stands before a sample; after samples it has not seen it begins afresh. -/
def Digital.reach (e : Digital) (n : Nat) : Digital := if e.next = n then e else { next := n }

def isDigital (k : Nat) : Bool := k == 1 || k == 2 || k == 3

/-- R172: one sample under the settings of a route before its last commit: they judge the samples before it and a crossing that lies before it. -/
def State.digitalOld (s : State) (r c n : Nat) (x : Int) (flagged : Bool) (fs : Int) : State :=
  let y := s.routeN r
  match y.oldUntil with
  | some v =>
    if y.oldOver || !isDigital y.oldCfg.sourceKind || y.oldCfg.sourceIndex != c || n < y.oldEval.next then s
    else
      let (e, fired) := (y.oldEval.reach n).step y.oldCfg x flagged
      let s := s.modRoute r fun y => { y with oldEval := e, oldOver := !vtLt (vtOfFs fs) v }
      match fired with
      | some d =>
        if vtLt (vtOfFs (fs + d)) v then
          s.offer r (s.seed y.oldCfg.sourceKind c (if y.oldCfg.sourceKind = 3 then 0 else 0x10) (vtOfFs (fs + d)))
        else s
      | none => s
  | none => s

/-- R162, R163: one sample under the present settings of a route. -/
def State.digitalNew (s : State) (r c n : Nat) (x : Int) (flagged : Bool) (fs : Int) : State :=
  let y := s.routeN r
  let early : Bool := (y.oldUntil.map (vtLt (vtOfFs fs))).getD false
  if early || !isDigital y.cfg.sourceKind || y.cfg.sourceIndex != c || n < y.eval.next then s
  else
    let (e, fired) := (y.eval.reach n).step y.cfg x flagged
    let s := s.modRoute r fun y => { y with eval := e }
    match fired with
    | some d => s.offer r (s.seed y.cfg.sourceKind c (if y.cfg.sourceKind = 3 then 0 else 0x10) (vtOfFs (fs + d)))
    | none => s

/-- R162, R163: a digital condition takes a sample of its channel. -/
def State.digitalSample (s : State) (r c : Nat) (d : SampleData) (n : Nat) : State :=
  let x := s.chan c
  let fs := s.sampleFs c x.fe s.vtBase n
  let x := x.asOf (vtOfFs fs)
  let w : Forming := { index := c, chan := x, ramp := false, base := s.vtBase, settleEnd := x.settleEnd, data := d }
  if !x.fe.enable || s.chanIsolated c || s.looped 0 c then s
  else
    let v := w.sample n
    let flagged := w.flags n &&& 3 != 0
    (s.digitalOld r c n v flagged fs).digitalNew r c n v flagged fs

/-- R163: the samples at which a digital condition of a route is judged; each that meets it fires the route. -/
def effectDigitalTriggerFire (route : Fin 32) (hit : DigitalWatch) (s : State) : State :=
  s.each (List.range hit.data.raw.length) fun s j => s.digitalSample route.val hit.channel.val hit.data (hit.data.start + j)

def execDigitalTriggerFire (t : Nat) (route : Fin 32) (hit : DigitalWatch) (s : State) : Host.Outcome State Fault Refusal :=
  .next (State.settle s (effectDigitalTriggerFire route hit (s.advance t).tillerNow))

/-! ## Scheduled sources (R166) -/

/-- R166: the n-th instant of a scheduled source, rounded down to 2⁻⁴⁸ s (DESIGN CHOICE, log entry 238). -/
def RouteCfg.instant (c : RouteCfg) (n : Nat) : Vt96 :=
  vtOfNat (vtNat c.schedTime + n * c.schedPeriod * 2 ^ 48 / ticksPerSec)

/-- The instants a scheduled source has in all; none: without end. -/
def RouteCfg.instants (c : RouteCfg) : Option Nat :=
  if c.schedPeriod = 0 then some 1 else if c.schedCount = 0 then none else some c.schedCount

/-- How many instants lie at or before a VT instant. -/
def RouteCfg.instantsUpTo (c : RouteCfg) (v : Vt96) : Nat :=
  let d := vtSub v c.schedTime
  if d < 0 then 0
  else
    let n := if c.schedPeriod = 0 then 1
      else ((d.toNat + 1) * ticksPerSec + c.schedPeriod * 2 ^ 48 - 1) / (c.schedPeriod * 2 ^ 48)
    match c.instants with
    | some m => min n m
    | none => n

/-- Set a scheduled route to its n-th instant. -/
def Route.atInstant (x : Route) (n : Nat) : Route :=
  let more : Bool := match x.cfg.instants with
    | some m => decide (n < m)
    | none => true
  { x with fired := n, nextInstant := if more then some (x.cfg.instant n) else none }

/-- R61, R166: instants at or before a VT instant are skipped and counted. -/
def State.skipInstants (s : State) (r : Nat) (v : Vt96) : State :=
  s.modRoute r fun x =>
    if x.cfg.sourceKind = 6 then
      let n := max x.fired (x.cfg.instantsUpTo v)
      Route.atInstant { x with discarded := x.discarded + BitVec.ofNat 64 (n - x.fired) } n
    else x

/-- R166: a scheduled source reaches its next instant; one that lies in an outage of the root is skipped and counted. The outage ends at the
lock, not at the boundary at which acquisition resumes (DESIGN CHOICE, log entry 239). -/
def effectScheduledTrigger (route : Fin 32) (s : State) : State :=
  let x := s.routeN route.val
  match x.nextInstant with
  | some v =>
    if x.cfg.sourceKind = 6 ∧ vtLe v s.now then
      let s := s.modRoute route.val fun y => y.atInstant (y.fired + 1)
      if s.time.outage then s.modRoute route.val fun y => { y with discarded := y.discarded + 1 }
      else s.offer route.val (s.seed 6 0 0 v)
    else s
  | none => s

def execScheduledTrigger (t : Nat) (route : Fin 32) (s : State) : Host.Outcome State Fault Refusal :=
  .next (State.settle s (effectScheduledTrigger route (s.advance t).tillerNow))

/-! ## Outputs -/

/-- R168: the edge whose instant has come leaves the output. -/
def effectTrigOutEdge (out : Fin 4) (s : State) : State :=
  match (vget s.trigOuts out.val).edgeAt with
  | (v, _) :: rest =>
    if vtLe v s.now then (s.modTrigOut out.val fun x => { x with edgeAt := rest }).startPulse out.val else s
  | [] => s

def execTrigOutEdge (t : Nat) (out : Fin 4) (s : State) : Host.Outcome State Fault Refusal :=
  .next (State.settle s (effectTrigOutEdge out (s.advance t).tillerNow))

/-- R167: the pulse ends once its width has passed. -/
def effectTrigOutPulseEnd (out : Fin 4) (s : State) : State :=
  s.modTrigOut out.val fun x => if x.pulseUntil ≤ s.clock then { x with pulse := false } else x

def execTrigOutPulseEnd (t : Nat) (out : Fin 4) (s : State) : Host.Outcome State Fault Refusal :=
  .next (State.settle s (effectTrigOutPulseEnd out (s.advance t).tillerNow))

/-! ## Rows and commands of the Tiller (R177, R200) -/

/-- R177: the Tiller samples its conditions, once in a CORE tick, and takes at most one transition. -/
def effectTillerTransition (s : State) : State :=
  let s := s.tillerNow
  let core := s.coreOf s.clock
  if s.tiller.running && s.power.opState.tillerMay && s.tiller.sampledAt != some core then
    let pick := s.tillerPick
    s.modTiller fun p => { p with sampledAt := some core, due := p.due ++ (pick.map fun e => (core + 2, e)).toList }
  else s

def execTillerTransition (t : Nat) (s : State) : Host.Outcome State Fault Refusal :=
  .next (State.settle s (effectTillerTransition (s.advance t)))

/-- R177: a running timer expires once its value has counted down. -/
def effectTillerTimerExpire (_timer : Fin 4) (s : State) : State := s.tillerNow

def execTillerTimerExpire (t : Nat) (timer : Fin 4) (s : State) : Host.Outcome State Fault Refusal :=
  .next (State.settle s (effectTillerTimerExpire timer (s.advance t)))

/-- R175: the Tiller stands halted in its start state; what was due has taken effect. -/
def State.haltTiller (s : State) : State :=
  s.tillerNow.modTiller fun p => { p with running := false, state := p.startState, due := [] }

/-- R200: TILLER_CONTROL's actions. -/
def State.tillerControl (s : State) (action poke : Nat) : State :=
  s.tillerNow.modTiller fun p =>
    match action with
    | 0 => { p with running := false }
    | 1 => { p with running := p.loaded }
    | 2 => { p with poke := setBit (if p.pokeAt = s.coreOf s.clock then p.poke else 0) poke true, pokeAt := s.coreOf s.clock }
    | _ => { p with state := p.startState, counters := [0, 0, 0, 0], timers := [0, 0, 0, 0], timerRuns := 0, expired := 0, due := [] }

/-! ## Arming and firing (R172, R173, R195, R198) -/

/-- R195: arm or disarm a route. -/
def State.armRoute (s : State) (r : Nat) (arm : Bool) : State :=
  s.modRoute r fun x =>
    match x.state with
    | .disabled => x
    | .armed => if arm then x else { x with state := .disarmed, lastTag := none, discardLeft := 0 }
    | .holdoff => if arm then x else { x with state := .disarmed, lastTag := none, discardLeft := 0 }
    | .disarmed => if arm then { x with state := .armed, lastTag := none, discardLeft := 0, wasSpent := false } else x
    | .spent =>
      if arm then { x with state := .armed, lastTag := none, discardLeft := 0, wasSpent := false }
      else { x with state := .disarmed, lastTag := none, discardLeft := 0 }

/-- R173: every route is disarmed; those that were spent are marked. -/
def State.disarmRoutes (s : State) : State :=
  s.each (List.range 32) fun s r => s.modRoute r fun x =>
    match x.state with
    | .disabled => x
    | st => { x with state := .disarmed, lastTag := none, discardLeft := 0, wasSpent := x.wasSpent || st == .spent }

/-- R173, R595: routes with enable 1 are armed, but those marked as spent. -/
def State.rearmRoutes (s : State) (spentToo : Bool) : State :=
  s.each (List.range 32) fun s r => s.modRoute r fun x =>
    if x.cfg.enable && x.state == .disarmed && (spentToo || !x.wasSpent) then
      { x with state := .armed, wasSpent := false }
    else x

/-- R166, R172: a commit changes a route at second S. Instants of a scheduled source up to S are skipped; in a step that labels S anew they are
compared with its old label (DESIGN CHOICE, log entry 240). -/
def State.setRoute (s : State) (r : Nat) (cfg : RouteCfg) : State :=
  let at_ := vtSecond s.time.vtSec
  let live : RouteState := if s.power.opState = OpState.service then .armed else .disarmed
  if (s.routeN r).cfg = cfg then s
  else
    let owner := s.routeOwner r
    let keep (x : Route) : Route :=
      if x.oldUntil = some at_ then x
      else { x with oldUntil := some at_, oldCfg := x.cfg, oldState := x.state, oldTag := x.lastTag, oldLeft := x.discardLeft, oldEval := x.eval
                    oldOwner := owner, oldOver := false }
    (s.modRoute r fun x =>
      { keep x with cfg, eval := {}, wasSpent := false, lastTag := none, discardLeft := 0, fired := 0, nextInstant := none,
                    state := if cfg.enable then live else .disabled }).skipInstants r at_

/-- R195: SOFT_TRIGGER fires each named route once, in ascending order within one tick. -/
def State.softTrigger (s : State) (mask : U32) : State :=
  s.tillerNow.each (bitsOf mask) fun s r => s.offer r (s.seed 7 0 2 s.now)

/-- R198: TRIGGER_STATUS_GET's response, with what was due of the Tiller. -/
def State.triggerStatus (s : State) (r : Nat) : Bytes :=
  let s := s.tillerDue
  let x := s.routeN r
  let fast := match (List.range 4).find? fun o => (vget s.trigOuts o).onFastPath && (vget s.trigOuts o).route == r with
    | some o => (Config.fastPathPs r o).toNat
    | none => 0
  w8 r ++ w8 (s.routeState x) ++ w8 (s.routeOwner r) ++ w8 0 ++ w32 fast ++ w64 x.accepted.toNat ++ w64 x.discarded.toNat
    ++ w64 x.coincidentLost.toNat ++ w32 x.outLate.toNat ++ w32 0 ++ x.last.bytes

end Sys2Proof.Machine
end

