-- ==== Sys2Proof/Machine/Drill.lean ====
section
/-! DEFINITION. The Drill (R536 to R545, R558 to R561): segments, runs, compares and marks, and its commands. -/

namespace Sys2Proof.Machine

/-! ## Vectors and their places in a run (R536 to R541) -/

/-- R539: a vector with code 5 on every line. -/
def highZ : BitVec 96 := BitVec.ofNat 96 (5 * ((2 ^ 96 - 1) / 7))

/-- R537: the code of a line. -/
def lineCode (w : BitVec 96) (l : Nat) : Nat := w.toNat / 8 ^ l % 8

def Drill.segLen (x : Drill) (n : Nat) : Nat := ((aget x.segments n).map (·.1)).getD 0

/-- A vector of a segment. -/
def Drill.vectorAt (x : Drill) (seg i : Nat) : BitVec 96 := ((aget x.segments seg).bind fun e => aget e.2 i).getD highZ

/-- The vectors an entry of the sequence plays. -/
def Drill.entryLen (x : Drill) (e : DrillEntry) : Nat := x.segLen e.segment * e.rep

/-- The vectors of the whole sequence. -/
def Drill.loopLen (x : Drill) : Nat := (x.cfg.sequence.map x.entryLen).sum

/-- R541: the vectors of the run; none: without end. -/
def Drill.total (x : Drill) : Option Nat := if x.cfg.loopCount = 0 then none else some (x.loopLen * x.cfg.loopCount)

/-- The segment, and the vector within it, of vector `k` of a sequence. -/
def Drill.place (x : Drill) : List DrillEntry → Nat → Nat × Nat
  | [], _ => (0, 0)
  | e :: l, k => if k < x.entryLen e then (e.segment, k % x.segLen e.segment) else x.place l (k - x.entryLen e)

/-- The segment and the vector of run vector `v`. -/
def Drill.runVector (x : Drill) (v : Nat) : Nat × BitVec 96 :=
  let p := x.place x.cfg.sequence (v % max x.loopLen 1)
  (p.1, x.vectorAt p.1 p.2)

/-- R536, R537: the driver of a line at run vector `v`: its level, or off. Code 4 keeps the state of the vector before. -/
def Drill.driver (x : Drill) (l : Nat) : Nat → Option Bool
  | 0 => match lineCode (x.runVector 0).2 l with
    | 0 => some false
    | 1 => some true
    | _ => none
  | v + 1 => match lineCode (x.runVector (v + 1)).2 l with
    | 0 => some false
    | 1 => some true
    | 4 => x.driver l v
    | _ => none

/-- R537, R544, R639: a Drill line now: driven low or high, or off. -/
def State.drillLine (s : State) (l : Nat) : Option Bool :=
  let x := s.drill
  let v := (s.clock - x.startTick) / max x.cfg.rateDiv 1
  if x.state == .playing && x.vdrillOk && !s.looped 11 0 && x.cfg.lineEnable.getLsbD l && decide (x.startTick ≤ s.clock)
    && (x.total.map fun n => decide (v < n)).getD true then x.driver l v
  else none

/-! ## Compares (R543) -/

/-- The line compares of a vector. -/
def Drill.comparesIn (x : Drill) (w : BitVec 96) : Nat :=
  ((List.range 32).filter fun l => x.cfg.lineEnable.getLsbD l && (lineCode w l == 2 || lineCode w l == 3)).length

/-- Compares in the first `k` vectors of a segment. -/
def Drill.segCompares (x : Drill) (seg k : Nat) : Nat :=
  (((aget x.segments seg).map (·.2)).getD [] |>.map fun e => if e.1 < k then x.comparesIn e.2 else 0).sum

/-- Compares in the first `k` vectors an entry plays. -/
def Drill.entryCompares (x : Drill) (e : DrillEntry) (k : Nat) : Nat :=
  let n := max (x.segLen e.segment) 1
  k / n * x.segCompares e.segment n + x.segCompares e.segment (k % n)

/-- Compares in the first `k` vectors of a sequence. -/
def Drill.seqCompares (x : Drill) : List DrillEntry → Nat → Nat
  | [], _ => 0
  | e :: l, k =>
    if k ≤ x.entryLen e then x.entryCompares e k else x.entryCompares e (x.entryLen e) + x.seqCompares l (k - x.entryLen e)

/-- Compares in the first `k` vectors of a run. -/
def Drill.runCompares (x : Drill) (k : Nat) : Nat :=
  let n := max x.loopLen 1
  k / n * x.seqCompares x.cfg.sequence n + x.seqCompares x.cfg.sequence (k % n)

/-- R536, R543: the lines whose compare fails at a strobe. -/
def Drill.failMask (x : Drill) (p : PinSample) : U32 :=
  let w := (x.runVector p.v).2
  maskOf 32 ((List.range 32).filter fun l =>
    x.cfg.lineEnable.getLsbD l
      && ((lineCode w l == 2 && !p.low.getLsbD l) || (lineCode w l == 3 && !p.high.getLsbD l)))

/-! ## Marks (R545) -/

/-- The first vectors, within the sequence, of the entries that are marked; `k` vectors precede the list. -/
def Drill.markPlaces (x : Drill) (k : Nat) : List DrillEntry → List Nat
  | [] => []
  | e :: l => (if (e.mark && x.entryLen e != 0) then [k] else []) ++ x.markPlaces (k + x.entryLen e) l

/-- The marked run vectors from `a` up to, without, `b`. -/
def Drill.marks (x : Drill) (a b : Nat) : List Nat :=
  let n := max x.loopLen 1
  ((List.range (b / n + 1 - a / n)).flatMap fun i => (x.markPlaces 0 x.cfg.sequence).map fun o => (a / n + i) * n + o).filter
    fun m => decide (a ≤ m ∧ m < b)

/-- The clock of run vector `v` (R538). -/
def Drill.tickOf (x : Drill) (v : Nat) : Nat := x.startTick + v * x.cfg.rateDiv

/-- R545: the mark of run vector `v`. -/
def State.drillMark (s : State) (v : Nat) : State :=
  let o := s.drill.cfg.markOutput
  let y := vget s.trigOuts o
  let at_ := s.drill.tickOf v
  if 3 < o || !y.enable then s
  else if s.tillerDrives o || decide (at_ < y.pulseUntil) then s.modDrill fun x => { x with marksMerged := x.marksMerged + 1 }
  else
    let stop := at_ + ticksOfNs y.widthNs
    s.modTrigOut o fun y => { y with pulse := decide (s.clock < stop), pulseUntil := stop }

/-! ## A run -/

/-- The vectors a run has played by now. -/
def State.drillDue (s : State) : Nat :=
  let x := s.drill
  let n := if x.startTick ≤ s.clock then (s.clock - x.startTick) / max x.cfg.rateDiv 1 + 1 else 0
  match x.total with
  | some k => min k n
  | none => n

/-- R538: the vectors of a run whose strobe has sampled the pins by now. -/
def State.drillStrobed (s : State) : Nat :=
  let x := s.drill
  let psSince := (s.clock - x.startTick) * 1600
  min s.drillDue (if x.startTick ≤ s.clock ∧ x.cfg.strobePs ≤ psSince then (psSince - x.cfg.strobePs) / (max x.cfg.rateDiv 1 * 1600) + 1 else 0)

/-- R541, R543, R545: bring a playing run up to now: its failing compares, counted and logged at their strobes, its marks, and the stop of
fail_action 1. -/
def State.drillUpTo (s : State) : State :=
  let x := s.drill
  if x.state ≠ .playing then s
  else
    let found := (x.pins.filter fun p => decide (x.strobed.toNat ≤ p.v ∧ p.v < s.drillStrobed) && x.failMask p != 0)
    let stops := x.cfg.failAction == 1 && !found.isEmpty
    let found := if stops then found.take 1 else found
    let last := ((found.head?.map (·.v)).getD 0) + 1
    let b := if stops then last else s.drillDue
    let c := if stops then last else s.drillStrobed
    let s := s.each (x.marks x.played.toNat b) State.drillMark
    let s := s.modDrill fun y =>
      { y with played := BitVec.ofNat 64 b, strobed := BitVec.ofNat 64 c, compares := BitVec.ofNat 64 (x.runCompares c), fails := y.fails + BitVec.ofNat 64 found.length
               lineFails := (List.range 32).map fun l =>
                 (found.filter fun p => (x.failMask p).getLsbD l).foldl (fun n _ => satInc n) ((y.lineFails[l]?).getD 0)
               failLog := (y.failLog ++ found.map fun p => (p.v, (x.runVector p.v).1, x.failMask p)).take 64
               state := if stops then .stoppedByFail else y.state }
    match found with
    | p :: _ =>
      if x.fails = 0 then
        s.raiseAt (vtAdd (s.vtOfTick (x.tickOf p.v)) (unitsOfPs x.cfg.strobePs)) 0x5F1 (w32 x.runId.toNat ++ w32 (x.failMask p).toNat)
      else s
    | [] => s

/-- A run is waiting or playing. -/
def Drill.busy (x : Drill) : Bool := x.state == .waiting || x.state == .playing

/-- R544: a run ends by a stop (cause 0) or an abort. -/
def State.abortDrill (s : State) (cause : Nat) : State :=
  let s := s.drillUpTo
  if s.drill.busy then
    (s.modDrill fun x => { x with state := if cause = 0 then .stoppedByCommand else .aborted, waitRoute := none }).raise 0x5F2
      (w32 s.drill.runId.toNat ++ w8 cause)
  else s

/-- R542: a waiting run begins to play at T_start; `pins` are the levels at the strobes of its vectors, ascending. A
strobe that is not listed passes. -/
def effectDrillRunStart (pins : List PinSample) (s : State) : State :=
  if s.drill.state = .waiting ∧ s.drill.waitRoute = none ∧ s.drill.startTick ≤ s.clock then
    (s.modDrill fun x => { x with state := .playing, pins }).drillUpTo
  else s

def execDrillRunStart (t : Nat) (pins : List PinSample) (s : State) : Host.Outcome State Fault Refusal :=
  .next (State.settle s (effectDrillRunStart pins (s.advance t)))

/-- R541: a run ends after its last vector. -/
def effectDrillRunEnd (s : State) : State :=
  let s := s.drillUpTo
  let x := s.drill
  if x.state = .playing ∧ x.total = some x.played.toNat ∧ x.tickOf x.played.toNat ≤ s.clock then
    (s.modDrill fun x => { x with state := .done }).raiseAt (s.vtOfTick (x.tickOf (x.played.toNat - 1))) 0x5F0
      (w32 x.runId.toNat ++ w32 (min x.fails.toNat (2 ^ 32 - 1)))
  else s

def execDrillRunEnd (t : Nat) (s : State) : Host.Outcome State Fault Refusal :=
  .next (State.settle s (effectDrillRunEnd (s.advance t)))

/-- R639: VDRILL leaves its range: every line is off, a run is aborted with cause 3. -/
def effectVdrillOutOfRange (s : State) : State := (s.abortDrill 3).modDrill fun x => { x with vdrillOk := false }

def execVdrillOutOfRange (t : Nat) (s : State) : Host.Outcome State Fault Refusal :=
  .next (State.settle s (effectVdrillOutOfRange (s.advance t)))

/-- R639: VDRILL is back in its range. -/
def execVdrillInRange (t : Nat) (s : State) : Host.Outcome State Fault Refusal :=
  .next (State.settle s ((s.advance t).modDrill fun x => { x with vdrillOk := true }))

/-! ## Commands -/

/-- R540: a segment that a waiting or playing run names. -/
def Drill.uses (x : Drill) (seg : Nat) : Bool := x.busy && x.cfg.sequence.any fun e => e.segment == seg

/-- R539: vectors defined. -/
def Drill.defined (x : Drill) : Nat := (x.segments.map (·.2.1)).sum

/-- R537: vector `i` of a load. -/
def drillVector (p : Bytes) (i : Nat) : BitVec 96 := BitVec.ofNat 96 (leNat (part p (16 + 12 * i) 12))

/-- R558. -/
def drillSegmentLoadCmd : Cmd :=
  { kind := .immediate, steward := true
    check := fun f s => do
      let p := f.payload
      let x := s.drill
      let action := p8 p 1
      let seg := p8 p 0
      layout p (if action = 1 then 16 + 12 * p16 p 12 else 16) ([(1, decide (action ≤ 2)), (2, zeroAt p 2 2)
        , (4, action != 0 || (inRange 256 (p32 p 4) 4194304 && p32 p 4 % 64 == 0))
        , (8, action != 1 || decide (p32 p 8 < x.segLen seg))
        , (12, action != 1 || (inRange 1 (p16 p 12) 680 && decide (p32 p 8 + p16 p 12 ≤ x.segLen seg))), (14, zeroAt p 14 2)]
        ++ if action = 1 then (List.range (p16 p 12)).map fun i =>
            (16 + 12 * i, (List.range 32).all fun l => decide (lineCode (drillVector p i) l ≤ 5)) else [])
      require (!x.uses seg) (refuse .busy)
      require (action != 0 || decide (x.defined - x.segLen seg + p32 p 4 ≤ 4194304)) (refuse .exhausted)
    run := fun f s =>
      let p := f.payload
      let seg := p8 p 0
      .ok ({}, s.modDrill fun x =>
        { x with segments :=
            if p8 p 1 = 0 then aset x.segments seg (p32 p 4, [])
            else if p8 p 1 = 2 then adel x.segments seg
            else amod x.segments seg fun e =>
              (e.1, (List.range (p16 p 12)).foldl (fun m i => aset m (p32 p 8 + i) (drillVector p i)) e.2) }) }

/-- R559: the settings in a payload. -/
def drillCfgOf (p : Bytes) : DrillCfg :=
  { rateDiv := p32 p 0, strobePs := p32 p 4, failAction := p8 p 8, markOutput := p8 p 9
    sequence := (List.range (p16 p 10)).map fun i => ⟨p8 p (24 + 8 * i), p8 p (25 + 8 * i) == 1, p32 p (28 + 8 * i)⟩
    lineEnable := BitVec.ofNat 32 (p32 p 12), loopCount := p32 p 16 }

/-- R559. -/
def drillConfigCmd : Cmd :=
  { kind := .staged, steward := true
    check := fun f _ =>
      let p := f.payload
      let n := p16 p 10
      layout p 536 ([(0, inRange 1 (p32 p 0) 65536), (4, decide (p32 p 4 + 25 ≤ p32 p 0 * 1600) && p32 p 4 % 25 == 0)
        , (8, decide (p8 p 8 ≤ 1)), (9, decide (p8 p 9 ≤ 3) || p8 p 9 == 255), (10, inRange 1 n 64), (20, zeroAt p 20 4)]
        ++ (List.range 64).flatMap fun i =>
          let o := 24 + 8 * i
          if i < n then [(o + 1, decide (p8 p (o + 1) ≤ 1)), (o + 2, zeroAt p (o + 2) 2), (o + 4, p32 p (o + 4) != 0)]
          else [(o, zeroAt p o 8)])
    apply := fun f s => if s.drill.busy then .error .busy else .ok (s.modDrill fun x => { x with cfg := drillCfgOf f.payload })
    keys := fun _ => [0] }

/-- R52: the first grand tick at or after a clock reading. -/
def State.grandTick (s : State) (tick : Nat) : Nat :=
  let off := tick - s.time.secStart
  s.time.secStart + (off + 99) / 100 * 100

/-- R542: start a run. -/
def State.startDrill (s : State) (p : Bytes) : State :=
  let mode := p8 p 1
  let tick := if mode = 0 then s.grandTick (s.clock + 625) else s.tickOfVt (vtAt p 8)
  s.modDrill fun x =>
    { x with state := .waiting, runId := x.nextRunId, nextRunId := x.nextRunId + 1, pins := [], played := 0, strobed := 0, compares := 0, fails := 0
             lineFails := List.replicate 32 0, failLog := []
             waitRoute := if mode = 2 then some (p8 p 2) else none, waitOffsetNs := p32 p 4
             startTick := if mode = 2 then x.startTick else tick, tStart := if mode = 2 then x.tStart else s.vtOfTick tick }

/-- R542, R544, R560. -/
def drillControlCmd : Cmd :=
  { kind := .immediate, steward := true
    check := fun f s => do
      let p := f.payload
      let start := p8 p 0 == 1
      let named := s.drill.cfg.sequence.all fun e => (aget s.drill.segments e.segment).isSome && e.rep != 0
      layout p 24 [(0, decide (p8 p 0 ≤ 1) && (!start || named)), (1, decide (p8 p 1 ≤ 2)), (2, decide (p8 p 2 ≤ 31)), (3, zeroAt p 3 1)
        , (4, decide (p32 p 4 ≤ 1000000)), (20, zeroAt p 20 4)]
      require (!start || (s.time.locked && s.drill.vdrillOk)) (refuse .degraded)
      require (!start || !s.drill.busy) (refuse .busy)
      require (!start || p8 p 1 != 1 || atLeastNs (vtSub (vtAt p 8) s.now) 10000) (refuse .late)
    run := fun f s => .ok ({}, if p8 f.payload 0 = 1 then s.startDrill f.payload else s.abortDrill 0) }

def DrillState.code : DrillState → Nat
  | .idle => 0 | .waiting => 1 | .playing => 2 | .done => 3 | .stoppedByFail => 4 | .stoppedByCommand => 5 | .aborted => 6

/-- R561. -/
def Drill.status (x : Drill) : Bytes :=
  w8 x.state.code ++ w8 0 ++ w16 x.segments.length ++ w32 x.runId.toNat ++ vt96Bytes x.tStart ++ w32 (4194304 - x.defined)
    ++ w64 x.played.toNat ++ w64 x.compares.toNat ++ w64 x.fails.toNat ++ w32 x.marksMerged.toNat ++ w32 x.lateStarts.toNat ++ zeros 8
    ++ (x.lineFails.flatMap fun n => w32 n.toNat)
    ++ ((x.failLog.flatMap fun e => w64 e.1 ++ w8 e.2.1 ++ zeros 3 ++ w32 e.2.2.toNat) ++ zeros (16 * (64 - x.failLog.length)))

def drillStatusGetCmd : Cmd :=
  { kind := .readback, check := noPayload
    run := fun _ s => let s := s.drillUpTo; answer s.drill.status s }

end Sys2Proof.Machine
end

