-- ==== Sys2Proof/Machine/TimeBase.lean ====
section
/-! DEFINITION. The time base (R43 to R63, R68 to R87): REF IN, PPS IN, IRIG IN, the root, holdover, alignment, and the
commands of chapter 02. -/

namespace Sys2Proof.Machine

/-! ## Probe gates (R555) -/

/-- A gate cause of a probe is set: an open output closes. -/
def State.gateProbe (s : State) (k bit : Nat) : State :=
  let x := s.probe k
  let s := s.modProbe k fun y => { y with gate := setBit y.gate bit true, opened := false }
  if x.opened then s.raise 0x5F9 (w8 k ++ w8 0 ++ w8 (s.probe k).gate.toNat) else s

/-- R552, R555: the phase of a probe is no longer stated: it is a free value (log entry 3). -/
def State.losePhase (s : State) (k : Nat) : State :=
  let (v, s) := s.free
  s.modProbe k fun y =>
    { y with phaseValid := false, phasePending := false, phase := mkRat v.toNat (2 ^ 64), phaseTick := s.clock }

def State.ungateProbe (s : State) (k bit : Nat) : State := s.modProbe k fun y => { y with gate := setBit y.gate bit false }

def State.gateAll (s : State) (bit : Nat) : State := s.each (List.range 8) fun s k => s.gateProbe k bit
def State.ungateAll (s : State) (bit : Nat) : State := s.each (List.range 8) fun s k => s.ungateProbe k bit

/-! ## Holdover (R56, R58, R59, R86) -/

/-- R56: while the root follows REF IN the OCXO is steered to it. -/
def TimeBase.steer (t : TimeBase) (now : Nat) : TimeBase :=
  if t.steering then t else { t with steering := true, steerFrom := now }

/-- R56: the steering is frozen at its mean over its last 1,000 s, or over all of it if that was shorter. The span is
kept; the mean is a measured value (a free value, log entry 3). -/
def State.freezeSteering (s : State) : State :=
  if !s.time.steering then s
  else
    let (v, s) := s.free
    s.modTime fun t => { t with steering := false, frozenSpan := min (1000 * ticksPerSec) (s.clock - t.steerFrom), frozenSteer := v }

/-- R56, R59, R86: enter holdover. With the root unlocked (R55) the OCXO becomes its source at the next lock. -/
def State.enterHoldover (s : State) (forced : Bool) : State :=
  let s := s.freezeSteering.modTime fun t =>
    { t with freqSource := if t.locked then 1 else 3, holdover := true, holdoverSeconds := 0, slewing := false
             slewFsPerS := 0, slewAfter := none, masterTsb := none }
  (s.gateAll 0).raise 0x513 (w8 (boolNat forced))

/-- R56, R55: the root follows REF IN, or followed it when it lost lock. -/
def TimeBase.onRef (t : TimeBase) : Bool :=
  t.refValid && !t.holdover && !t.holdoverForced && (t.freqSource == 0 || (t.outage && t.refEverValid))

/-- R48, R56: REF IN becomes invalid with a cause. -/
def State.loseRef (s : State) (cause : Nat) : State :=
  let follows := s.time.onRef
  let s := s.modTime fun t => { t with refValid := false, refGood := 0, refBad := 0, refQualifiedAt := none }
  if follows then (s.raise 0x512 (w8 cause)).enterHoldover false else s.freezeSteering

/-- R48, R51: the root moves to REF IN. -/
def State.followRef (s : State) : State :=
  s.modTime fun t => { t.steer s.clock with freqSource := 0, refEverValid := true }

/-- R48, R56, R58: REF IN is qualified: the first time the root takes it, later the return qualification begins. With the root unlocked the
OCXO is steered to it from now on, and the root takes it when it locks. -/
def State.qualifyRef (s : State) : State :=
  let s := s.modTime fun t => { t with refValid := true, refBad := 0 }
  if s.time.holdoverForced then s
  else if s.time.holdover then s.modTime fun t => { t with refQualifiedAt := some s.clock }
  else if !s.time.locked then s.modTime fun t => { t.steer s.clock with refEverValid := t.refEverValid || t.outage }
  else s.followRef

/-- R58: the end of the return qualification. -/
def effectHoldoverReturn (s : State) : State :=
  match s.time.refQualifiedAt with
  | some t1 =>
    if s.time.holdover && !s.time.holdoverForced && s.time.locked && decide (t1 + 10 * ticksPerSec ≤ s.clock) then
      let secs := s.time.holdoverSeconds
      let s := s.followRef.modTime fun t => { t with holdover := false, refQualifiedAt := none, slewAfter := some 0 }
      (s.ungateAll 0).raise 0x514 (w32 secs.toNat)
    else s
  | none => s

def execHoldoverReturn (t : Nat) (s : State) : Host.Outcome State Fault Refusal :=
  .next (State.settle s (effectHoldoverReturn (s.advance t)))

/-! ## REF IN (R44, R48) -/

/-- The nominal frequencies in µHz. -/
def nominalOf (code : Nat) : Nat := if code = 1 then 10000000000000 else 100000000000000

/-- A frequency lies within so many ppm of a nominal. -/
def withinPpm (f nom ppm : Nat) : Bool := decide (((f : Int) - nom).natAbs * 1000000 ≤ ppm * nom)

/-- R44: the nominal a gate runs against: the one set, the one a valid REF IN has, or in automatic mode the one near. -/
def TimeBase.gateNominal (t : TimeBase) (f : Nat) : Nat :=
  if t.cfg.refNominal ≠ 0 then t.cfg.refNominal
  else if t.refValid then t.refDetected.toNat
  else if withinPpm f (nominalOf 1) 10 then 1
  else if withinPpm f (nominalOf 2) 10 then 2
  else 0

/-- R76: REF_FREQ_ERR in units of 10⁻¹², toward minus infinity, held at the ends of its range. -/
def freqError (f code : Nat) : U32 :=
  let e := ((f : Int) - nominalOf code) / (if code = 1 then 10 else 100)
  BitVec.ofInt 32 (max (-2147483647) (min 2147483647 e))

/-- R180: a follower's root takes the clock recovered from its upstream port in place of REF IN: the rows of REF IN then stand for that clock
(DEDUCED, log entry 61), and there is none while that port is not up. -/
def State.hasReference (s : State) : Bool :=
  s.rachis.cfg.role != 2 || (match s.rachis.upstream with
    | some p => (s.rport p.val).state == .up
    | none => false)

/-- R44, R48, R58: a frequency gate closes. -/
def effectRefGateClose (f : Nat) (s : State) : State :=
  let t := s.time
  if !t.refPresent || !s.hasReference then s
  else
    let n := t.gateNominal f
    if n = 0 then s.modTime fun t => { t with refDetected := 0, refFreqErr := 0x80000000, refGood := 0 }
    else
      let s := s.modTime fun t => { t with refDetected := BitVec.ofNat 2 n, refFreqErr := freqError f n }
      let near := withinPpm f (nominalOf n) 5
      if !t.refValid then
        let s := s.modTime fun t => { t with refGood := if near then t.refGood + 1 else 0 }
        if s.time.refGood = 10 then s.qualifyRef else s
      else if t.refQualifiedAt.isSome then
        (if near then s else s.modTime fun t => { t with refValid := false, refGood := 0, refQualifiedAt := none })
      else if withinPpm f (nominalOf n) 10 then s.modTime fun t => { t with refBad := 0 }
      else
        let s := s.modTime fun t => { t with refBad := t.refBad + 1 }
        if s.time.refBad = 2 then s.loseRef 0 else s

def execRefGateClose (t : Nat) (freqMicroHz : Nat) (s : State) : Host.Outcome State Fault Refusal :=
  .next (State.settle s (effectRefGateClose freqMicroHz (s.advance t)))

/-- R48: the signal detector. -/
def effectRefSignalDetect (present : Bool) (s : State) : State :=
  if present then
    s.modTime fun t => { t with refPresent := true, refDetected := if t.refPresent then t.refDetected else BitVec.ofNat 2 t.cfg.refNominal }
  else
    let s := if s.time.refValid then s.loseRef 1 else s
    s.modTime fun t => { t with refPresent := false, refDetected := 0, refFreqErr := 0x80000000, refGood := 0 }

def execRefSignalDetect (t : Nat) (present : Bool) (s : State) : Host.Outcome State Fault Refusal :=
  .next (State.settle s (effectRefSignalDetect present (s.advance t)))

/-- R48: no cycle for 1 µs. -/
def effectRefLossOfSignal (s : State) : State := if s.time.refValid then s.loseRef 1 else s

def execRefLossOfSignal (t : Nat) (s : State) : Host.Outcome State Fault Refusal :=
  .next (State.settle s (effectRefLossOfSignal (s.advance t)))

/-- R48: a phase hit. -/
def effectRefPhaseHit (s : State) : State := if s.time.refValid then s.loseRef 2 else s

def execRefPhaseHit (t : Nat) (s : State) : Host.Outcome State Fault Refusal :=
  .next (State.settle s (effectRefPhaseHit (s.advance t)))

/-- R48: the OCXO estimate. -/
def effectOcxoEstimateUpdate (offset : Int) (s : State) : State :=
  if s.time.refValid then s.modTime fun t => { t with ocxoEstimate := offset } else s

def execOcxoEstimateUpdate (t : Nat) (offset : Int) (s : State) : Host.Outcome State Fault Refusal :=
  .next (State.settle s (effectOcxoEstimateUpdate offset (s.advance t)))

/-! ## PPS IN (R45, R49) -/

/-- R76: an instant minus the nearest VT second boundary, units of 2⁻⁴⁸ s. -/
def boundaryOffset (v : Vt96) : Int :=
  if v.frac.toNat < 2 ^ 47 then (v.frac.toNat : Int) else (v.frac.toNat : Int) - ((2 : Int) ^ 48)

/-- The VT second whose boundary lies nearest. -/
def nearestSecond (v : Vt96) : U48 := if v.frac.toNat < 2 ^ 47 then v.sec else v.sec + 1

/-- An offset in units of 2⁻⁴⁸ s lies within so many ps. -/
def withinPs (off : Int) (ps : Nat) : Bool := decide (off.natAbs * 1000000000000 ≤ ps * 2 ^ 48)

/-- R49: the alignment check on an offset. -/
def State.judgeAlignment (s : State) (off : Int) : State :=
  let t := s.time
  if withinPs off t.cfg.ppsTolerancePs then
    s.modTime fun t =>
      let good := if t.slewing then 0 else t.ppsAlignGood + 1
      { t with ppsAlignGood := good, ppsAlignBad := 0, ppsAligned := t.ppsAligned || decide (4 ≤ good) }
  else
    let s := s.modTime fun t => { t with ppsAlignGood := 0, ppsAlignBad := t.ppsAlignBad + 1 }
    if s.time.ppsAlignBad = 4 then
      (s.modTime fun t => { t with ppsAligned := false }).raise 0x515 (w64 (BitVec.ofInt 64 off).toNat)
    else s

/-- R49: what is reckoned of PPS IN begins anew. -/
def TimeBase.dropPps (t : TimeBase) : TimeBase :=
  { t with ppsValid := false, ppsAligned := false, ppsGood := 0, ppsBad := 0, ppsRef := none, ppsAlignGood := 0, ppsAlignBad := 0 }

/-- R49, R58, R76: an accepted PPS edge. -/
def State.acceptPps (s : State) (e : Vt96) : State :=
  let off := boundaryOffset e
  let s := s.modTime fun t =>
    { t with ppsEdge := e, ppsOffset := BitVec.ofInt 64 off, slewAfter := t.slewAfter.map (· + 1) }
  s.judgeAlignment off

/-- R49: the interval between two edges is 1 s ± 1 µs. -/
def plausibleInterval (a b : Vt96) : Bool :=
  let d := vtSub b a - (2 : Int) ^ 48
  decide (d.natAbs * 1000000 ≤ 2 ^ 48)

/-- R45, R49: a PPS edge at the connector, its cable delay subtracted here. A Rachis follower and pps_mode 0 ignore it
(R180). -/
def effectPpsEdge (tag : Vt96) (s : State) : State :=
  let t := s.time
  if t.cfg.ppsMode = 0 ∨ s.rachis.cfg.role = 2 then s
  else
    let e := vtAdd tag (-(unitsOfFs t.cfg.ppsDelayFs))
    let near : Bool := match t.ppsRef with
      | some r => plausibleInterval r e
      | none => false
    if t.ppsValid then
      if near then (s.modTime fun t => { t with ppsRef := some e, ppsBad := 0 }).acceptPps e
      else
        let s := s.modTime fun t => { t with ppsBad := t.ppsBad + 1, ppsDiscarded := t.ppsDiscarded + 1 }
        if s.time.ppsBad = 3 then
          s.modTime fun t => { t.dropPps with ppsRef := some e }
        else s
    else
      let s := s.modTime fun t => { t with ppsRef := some e, ppsGood := if near then t.ppsGood + 1 else 0 }
      if s.time.ppsGood = 4 then (s.modTime fun t => { t with ppsValid := true, ppsBad := 0 }).acceptPps e else s

/-- The reckonings of the time base that run on move with VT: the last edges and the on-time point of the last frame. -/
def TimeBase.moveEdges (t : TimeBase) (d : Int) : TimeBase :=
  { t with ppsRef := t.ppsRef.map fun e => vtAdd e d, ppsEdge := vtAdd t.ppsEdge d, irigOn := vtAdd t.irigOn d }

/-- R60, R63: release the dividers so that a VT second starts where an offset in units of 2⁻⁴⁸ s says, to the SLICE tick
(the trim of the root's phase takes what is left). -/
def State.stepPhase (s : State) (off : Int) : State :=
  let ticks := (off * ticksPerSec + 2 ^ 47) / 2 ^ 48
  s.modTime fun t => { t.moveEdges (-off) with secStart := ((t.secStart : Int) + ticks).toNat, ppsOffset := 0 }

/-- The present second takes another label; what runs on is counted under it. -/
def State.setLabel (s : State) (label : Int) : State :=
  s.modTime fun t =>
    { t.moveEdges ((label - t.vtSec.toNat) * 2 ^ 48) with vtSec := BitVec.ofInt 48 label, irigDelta := 0 }

/-- R60 step 7: the grand tick (160 ns) on which the wait ends starts a VT second. -/
def State.startAtGrandTick (s : State) : State :=
  let n := (s.clock - s.time.secStart) / 100 * 100
  let d := (n * 2 ^ 48 : Nat) / ticksPerSec
  s.modTime fun t => { t.moveEdges (-(d : Int)) with secStart := t.secStart + n, phaseSource := 0 }

/-- R60: the label the present second has by the last frame: the frame's label counts from its on-time point. -/
def TimeBase.irigNow (t : TimeBase) : Int :=
  let d := vtSub (vtSecond t.vtSec) t.irigOn
  (t.irigLabel.toNat : Int) + (d + 2 ^ 47) / 2 ^ 48

/-- R60 step 3, R63: align the phase to a valid PPS. Every such step sets pps_aligned and phase_source at once (DESIGN CHOICE, log entry
231). -/
def State.alignToPps (s : State) : State :=
  (s.stepPhase s.time.ppsOffset.toInt).modTime fun t => { t with ppsAligned := true, phaseSource := 1, ppsAlignBad := 0 }

/-- R60: end the start-up wait: phase and label from what is valid. -/
def State.alignNow (s : State) : State :=
  let s := s.modTime fun t => { t with aligning := false }
  let s :=
    if s.time.ppsValid then s.alignToPps
    else if s.time.irigValid && s.time.cfg.irigMode == 1 then
      (s.stepPhase (boundaryOffset s.time.irigOn)).modTime fun t => { t with phaseSource := 2 }
    else s.startAtGrandTick
  if s.time.irigValid then
    (s.setLabel s.time.irigNow).modTime fun t => { t with labelValid := true, labelSource := 1 }
  else (s.setLabel ((s.time.savedVtSec.toNat : Int) + 1)).modTime fun t => { t with labelSource := 3 }

/-- R60, R598: the start-up wait ends; after a start-up that ended without lock the steps that were left are then complete. -/
def State.alignVt (s : State) : State :=
  let s := s.alignNow
  if s.power.lateLock then (s.modPower fun p => { p with lateLock := false }).raise 0x5C2 (w8 1 ++ w8 1) else s

/-- R60 step 2: the wait ends as soon as both inputs are valid. -/
def State.alignWhenReady (s : State) : State :=
  if s.time.aligning && s.time.ppsValid && s.time.irigValid then s.alignVt else s

def execPpsEdge (t : Nat) (tag : Vt96) (s : State) : Host.Outcome State Fault Refusal :=
  .next (State.settle s (effectPpsEdge tag (s.advance t)).alignWhenReady)

/-- R49: no PPS edge in 1.5 s; a Rachis follower ignores PPS IN (R180). -/
def effectPpsActivityTimeout (s : State) : State :=
  if s.rachis.cfg.role = 2 then s else s.modTime TimeBase.dropPps

def execPpsActivityTimeout (t : Nat) (s : State) : Host.Outcome State Fault Refusal :=
  .next (State.settle s (effectPpsActivityTimeout (s.advance t)))

/-- R60: ten seconds of waiting are over. -/
def effectAlignWaitTimeout (s : State) : State := if s.time.aligning then s.alignVt else s

def execAlignWaitTimeout (t : Nat) (s : State) : Host.Outcome State Fault Refusal :=
  .next (State.settle s (effectAlignWaitTimeout (s.advance t)))

/-! ## IRIG IN (R46, R47, R49, R69) -/

/-- R46: the formats that carry the year. -/
def yearCarried : IrigFormat → Bool
  | .b004 | .b005 | .b006 | .b007 | .b124 | .b125 | .b126 | .b127 => true
  | .b000 | .b001 | .b002 | .b003 | .b120 | .b121 | .b122 | .b123 => false

/-- R46: the formats that carry control functions, in which the IEEE 1344 extension is read while ieee1344 is 1. -/
def controlCarried : IrigFormat → Bool
  | .b004 | .b005 | .b124 | .b125 => true
  | .b000 | .b001 | .b002 | .b003 | .b006 | .b007 | .b120 | .b121 | .b122 | .b123 | .b126 | .b127 => false

/-- R46: the extension bits of a frame are read. -/
def TimeBase.readsExtension (t : TimeBase) (f : IrigFrame) : Bool := t.cfg.ieee1344 == 1 && controlCarried f.format

/-- R47: the UTC a frame codes: the coded time plus the offset of the extension where that is read. The offset is a whole
number of half hours, so the second of the minute stays (R72 judges a second 60 by its UTC minute). -/
def TimeBase.irigUtc (t : TimeBase) (f : IrigFrame) : Option Civil :=
  if !t.readsExtension f then some f.coded
  else
    let c := { f.coded with second := 0 }
    if !civilValid t.leaps false c then none
    else
      let naive : Int := (civilNaive c : Int) + f.offsetHalfHours * 1800
      if naive < 0 then none else (civilOf naive.toNat).map fun u => { u with second := f.coded.second }

/-- R47: the VT second of a frame's on-time point; none where its calendar time is not valid. -/
def irigSecond (t : TimeBase) (f : IrigFrame) : Option Nat :=
  (t.irigUtc f).bind fun c => if civilValid t.leaps true c then some (civilToVt t.leaps true c) else none

/-- R49: the time quality of a frame passes; it is read only with the extension. -/
def qualityOk (t : TimeBase) (f : IrigFrame) : Bool :=
  !t.readsExtension f || decide (f.quality.toNat ≤ t.cfg.irigQualityMax ∧ f.quality ≠ 15)

/-- R69: a leap notice of a frame whose UTC lies in the last minute of a day that ends a month. -/
def State.leapNotice (s : State) (f : IrigFrame) (sec : Nat) : State :=
  match civilOfVt s.time.leaps true sec with
  | none => s
  | some c =>
    if !(f.leapPending && s.time.readsExtension f && c.hour == 23 && c.minute == 59 && c.day == daysInMonth c.year c.month) then s
    else
      let day := dayNumber c.year c.month c.day
      let naive := (day + 1) * 86400
      let conflict := s.time.leaps.any fun e =>
        e.source == 1 && (if e.naive = naive then e.negative != f.leapNegative
          else decide (((e.naive : Int) - naive).natAbs ≤ 86400))
      if conflict then s.raise 0x518 (w16 c.year ++ w8 c.month ++ w8 (boolNat f.leapNegative))
      else if s.time.leaps.any fun e => e.naive == naive && e.source == 1 then s
      else if 64 ≤ s.time.leaps.length then s
      else s.modTime fun t => { t with leaps := reoffset 32 (insertLeap t.leaps ⟨naive, 0, 2, f.leapNegative⟩), utcValid := true }

/-- R49: agreement of a frame with VT, judged on every frame that gives a label. -/
def State.irigAgreement (s : State) (f : IrigFrame) (sec : Nat) : State :=
  if !s.time.labelValid then s
  else if sec = (nearestSecond f.onTime).toNat then s.modTime fun t => { t with irigMismatch := 0 }
  else
    let s := s.modTime fun t => { t with irigMismatch := t.irigMismatch + 1 }
    if s.time.irigMismatch = 3 then
      (s.modTime fun t => { t with irigValid := false, irigGood := 0, irigMismatch := 0 }).raise 0x516 (w48 sec)
    else s

/-- R46, R47, R49, R61, R69: a decoded frame; a format without the year is not accepted. The first frame after none has
none before it to be 1 s after, and is not failed for that (DEDUCED, log entry 40). -/
def effectIrigFrame (f : IrigFrame) (s : State) : State :=
  let t := s.time
  if t.cfg.irigMode = 0 ∨ s.rachis.cfg.role = 2 ∨ yearCarried f.format = false then s
  else
    match irigSecond t f with
    | none =>
      s.modTime fun t =>
        let bad := t.irigBad + 1
        { t with irigGood := 0, irigBad := bad, irigValid := t.irigValid && decide (bad < 3), irigLast := none }
    | some sec =>
      let follows : Bool := match t.irigLast with
        | some l => sec == l + 1
        | none => true
      let pass := follows && qualityOk t f
      let s := s.modTime fun t =>
        { t with irigLast := some sec, irigLabel := BitVec.ofNat 48 sec, irigOn := f.onTime
                 irigDelta := (sec : Int) - (nearestSecond f.onTime).toNat
                 irigGood := if pass then t.irigGood + 1 else 0, irigBad := if pass then 0 else t.irigBad + 1 }
      if !pass then (s.modTime fun t => { t with irigValid := t.irigValid && decide (t.irigBad < 3) }).irigAgreement f sec
      else
        let first := !s.time.irigValid && decide (3 ≤ s.time.irigGood)
        let s := if first then
            s.modTime fun t => { t with irigValid := true, irigRequest := !t.labelValid && !t.aligning }
          else s
        (s.leapNotice f sec).irigAgreement f sec

def execIrigFrame (t : Nat) (frame : IrigFrame) (s : State) : Host.Outcome State Fault Refusal :=
  .next (State.settle s (effectIrigFrame frame (s.advance t)).alignWhenReady)

/-- R49: three seconds without a frame. -/
def effectIrigActivityTimeout (s : State) : State :=
  s.modTime fun t => { t with irigValid := false, irigGood := 0, irigBad := 0, irigLast := none, irigRequest := t.irigRequest && s.rachis.cfg.role == 2 }

def execIrigActivityTimeout (t : Nat) (s : State) : Host.Outcome State Fault Refusal :=
  .next (State.settle s (effectIrigActivityTimeout (s.advance t)))

/-! ## The root (R51, R52, R55, R598) -/

/-- R51, R55, R56, R60: the root has locked. At start-up the wait of R60 begins; after an outage the phase is aligned to a
valid PPS and acquisition resumes at the next boundary. -/
def effectRootLockAcquired (band : BitVec 6) (s : State) : State :=
  if s.time.locked then s
  else
    let src : BitVec 2 :=
      if s.time.refValid && !s.time.holdover && !s.time.holdoverForced then 0 else if s.time.refEverValid then 1 else 2
    let s := s.modTime fun t =>
      { (if src = 0 then t.steer s.clock else t) with
               locked := true, searching := false, band, lockCount := satInc t.lockCount, freqSource := src
               refEverValid := t.refEverValid || src == 0, aligning := t.aligning || (!t.outage && t.lockCount == 0) }
    let s := s.each (List.range 8) fun s k => if (s.probe k).locked then s.ungateProbe k 1 else s
    if s.time.outage then
      let s := if s.time.ppsValid then s.alignToPps else s
      s.modTime fun t => { t with outage := false, resumeAtBoundary := true }
    else s.alignWhenReady

def execRootLockAcquired (t : Nat) (band : BitVec 6) (s : State) : Host.Outcome State Fault Refusal :=
  .next (State.settle s (effectRootLockAcquired band (s.advance t)))

/-- R129, R132: a fresh ensemble window from a clock reading on. -/
def Channel.newWindow (x : Channel) (now : Nat) : Channel := { x with ensFrom := now, ensTotal := 0, ensValid := 0, ensOvr := 0, ensMoments := [] }

/-- R145: a calibration run in progress is aborted. -/
def State.abortRun (s : State) : State :=
  match s.cal.run with
  | some r =>
    if r.active then
      let s := s.each (bitsOf r.mask) fun s c => s.modChan c fun x => { x.newWindow s.clock with rotationPaused := false }
      (s.partialEntry r.journal 1).modCal fun k =>
        { k with run := none, lastDone := s.time.vtSec, staged := k.staged.filter fun m =>
            match m with
            | .runResult _ => false
            | _ => true }
    else s
  | none => s

/-- R581, R585: the self-test run in progress is aborted. -/
def State.abortTest (s : State) : State :=
  match s.test.runs.getLast?, s.test.active with
  | some r, true =>
    let s := s.modTest fun x =>
      { x with active := false
               runs := lmod x.runs (x.runs.length - 1) fun r => { r with state := 2, durationMs := BitVec.ofNat 32 ((s.clock - r.startTick) / 625000) } }
    let s := s.partialEntry r.journal 1
    let s := if r.sequence = 0 then s else { s with tiller := {} }
    s.raise 0x5E0 (w32 r.runId.toNat ++ w32 r.stepsFailed.toNat)
  | _, _ => s

/-- R55, R145, R173, R267, R544, R555, R581: loss of root lock. -/
def State.loseRoot (s : State) : State :=
  if !s.time.locked then s
  else
    let s := s.raise 0x510 []
    let s := s.modTime fun t => { t with locked := false, searching := true, freqSource := 3, outage := true
                                         slewing := false, resumeAtBoundary := false }
    let s := s.each (List.range 128) fun s c => s.endRecords c 3
    let s := s.each (List.range 132) fun s i => s.stopStamps i 2
    let s := (s.gateAll 1).each (List.range 8) State.losePhase
    (s.abortDrill 1).disarmRoutes.abortRun.abortTest

def execRootLockLoss (t : Nat) (s : State) : Host.Outcome State Fault Refusal :=
  .next (State.settle s (s.advance t).loseRoot)

/-- R52: the coincidence check at a grand tick. -/
def effectGrandTickCheck (coincident : Bool) (s : State) : State :=
  if coincident then s else (s.raise 0x511 []).loseRoot

def execGrandTickCheck (t : Nat) (coincident : Bool) (s : State) : Host.Outcome State Fault Refusal :=
  .next (State.settle s (effectGrandTickCheck coincident (s.advance t)))

/-- R598: the band search is repeated. -/
def effectRootLockRetry (s : State) : State :=
  if s.time.locked then s else s.modTime fun t => { t with searching := true }

def execRootLockRetry (t : Nat) (s : State) : Host.Outcome State Fault Refusal :=
  .next (State.settle s (effectRootLockRetry (s.advance t)))

/-- R60: the present second under the labels of the generation of the last commit record. -/
def State.recordedSecond (s : State) : U48 :=
  BitVec.ofInt 48 ((s.time.vtSec.toNat : Int) - (s.jr.prior.map (·.labelShift)).getD 0)

/-- R60: the VT second is written to MRAM. -/
def effectVtSecondSave (s : State) : State := s.modTime fun t => { t with savedVtSec := s.recordedSecond }

def execVtSecondSave (t : Nat) (s : State) : Host.Outcome State Fault Refusal :=
  .next (State.settle s (effectVtSecondSave (s.advance t)))

/-! ## Slewing (R62) -/

/-- R81: the slew rate of a code, fs per second. -/
def slewRateFs (code : Nat) : Nat := 100000 * 10 ^ code

/-- R62: start or go on with a slew against an offset, or end it. -/
def TimeBase.slewStep (t : TimeBase) (threshold : Nat) : TimeBase :=
  let off := t.ppsOffset.toInt
  if withinPs off threshold then { t with slewing := false, slewFsPerS := 0 }
  else { t with slewing := true, slewNegative := decide (0 < off)
                slewFsPerS := min (slewRateFs t.cfg.slewRate) (off.natAbs * 1000000000000000 / 2 ^ 48) }

/-- R58, R62, R181, R182: what a second boundary does to the slew. A follower in service slews whenever its offset is beyond the threshold, but
for an offset that return_policy HOLD keeps after holdover. -/
def TimeBase.boundarySlew (t : TimeBase) (follows : Bool) : TimeBase :=
  if t.slewing then t.slewStep t.cfg.realignThresholdPs
  else
    match t.slewAfter with
    | some n =>
      if 4 ≤ n then
        let t := { t with slewAfter := none, followHold := follows && t.cfg.returnPolicy != 0 }
        if t.cfg.returnPolicy = 0 ∧ (t.ppsValid ∨ follows) then t.slewStep t.cfg.realignThresholdPs else t
      else t
    | none => if follows && !t.followHold then t.slewStep t.cfg.realignThresholdPs else t

/-! ## The snapshot block (R76, R77, R80) -/

/-- R76: the 80 bytes of the block with a VT. -/
def TimeBase.block (t : TimeBase) (now : Vt96) : Bytes :=
  w32 (2 * boolNat t.snapOnSync + 16 * t.snapCount.toNat) ++ w32 (withCount t.statusWord t.updateCount).toNat
    ++ w32 (withCount t.taiWord t.updateCount).toNat ++ w32 (withCount t.rootWord t.updateCount).toNat ++ vt96Bytes now
    ++ w32 t.holdoverSeconds.toNat ++ vt96Bytes t.ppsEdge ++ w32 t.refFreqErr.toNat ++ w64 t.ppsOffset.toNat
    ++ w64 t.leapAt ++ vt96Bytes t.snapVt ++ w32 0

/-- R76: a snapshot. -/
def State.snapAt (s : State) (v : Vt96) : State := s.modTime fun t => { t with snapVt := v, snapCount := t.snapCount + 1 }

/-- R76, R641: a write of 1 to snap. -/
def effectSnap (s : State) : State := if s.power.released then s.snapAt s.coreNow else s

def execSnap (t : Nat) (s : State) : Host.Outcome State Fault Refusal :=
  .next (State.settle s (effectSnap (s.advance t)))

/-! ## Commands -/

/-- R80. -/
def timeGetCmd : Cmd :=
  { kind := .readback, check := noPayload, run := fun _ s => answer (s.time.block s.coreNow) s }

/-- R81: the settings in a payload. -/
def timebaseOf (p : Bytes) : TimebaseCfg :=
  { refNominal := p8 p 0, loopBw := p8 p 1, ppsMode := p8 p 2, irigMode := p8 p 3, ieee1344 := p8 p 4
    irigQualityMax := p8 p 5, returnPolicy := p8 p 6, slewRate := p8 p 7, ppsDelayFs := p64 p 8
    ppsTolerancePs := p32 p 16, realignThresholdPs := p32 p 20 }

/-- R49, R63, R81: new settings; a nominal that no longer matches a valid REF IN makes it invalid, and PPS IN is not judged under pps_mode 0. -/
def State.setTimebase (s : State) (c : TimebaseCfg) : State :=
  let mismatch := s.time.refValid && c.refNominal != 0 && c.refNominal != s.time.refDetected.toNat
  let s := s.modTime fun t =>
    { t with cfg := c, ppsRef := t.ppsRef.map fun e => vtAdd e (unitsOfFs t.cfg.ppsDelayFs - unitsOfFs c.ppsDelayFs)
             refDetected := if t.refPresent && c.refNominal != 0 then BitVec.ofNat 2 c.refNominal else t.refDetected
             refGood := if c.refNominal = t.cfg.refNominal then t.refGood else 0
             irigValid := t.irigValid && c.irigMode != 0 }
  let s := if c.ppsMode = 0 then s.modTime TimeBase.dropPps else s
  if mismatch then s.loseRef 0 else s

def timebaseConfigCmd : Cmd :=
  { kind := .staged, steward := true
    check := fun f _ => layout f.payload 24
      [(0, inRange 0 (p8 f.payload 0) 2), (1, inRange 0 (p8 f.payload 1) 2), (2, inRange 0 (p8 f.payload 2) 2)
      , (3, inRange 0 (p8 f.payload 3) 2), (4, inRange 0 (p8 f.payload 4) 1), (5, inRange 0 (p8 f.payload 5) 11)
      , (6, inRange 0 (p8 f.payload 6) 1), (7, inRange 0 (p8 f.payload 7) 3), (8, inRange 0 (p64 f.payload 8) 100000000000)
      , (16, inRange 10 (p32 f.payload 16) 1000000), (20, inRange 2 (p32 f.payload 20) 1000000)]
    apply := fun f s => .ok (s.setTimebase (timebaseOf f.payload))
    keys := fun _ => [0] }

/-- R82: IRIG IN is valid and in use. -/
def State.irigInUse (s : State) : Bool := s.time.irigValid && s.time.cfg.irigMode != 0

/-- R82: whether a label agrees with a valid IRIG that is in use, for a second named by the present labels. -/
def State.labelAgrees (s : State) (second label : Nat) : Bool :=
  !s.irigInUse || decide ((label : Int) = (second : Int) + s.time.irigDelta)

/-- The VT second of the boundary a command's stage would take effect at if it were committed now (R83). -/
def State.earliestSecond (s : State) : Nat :=
  s.time.vtSec.toNat + (if s.tickInSec < 612500000 then 1 else 2)

/-- R82: at staging the second of the commit is not known: a label agrees if it is the one IRIG gives some second whose
window is still open (DEDUCED, log entry 41). A label that agrees with a valid IRIG changes nothing. -/
def timeSetCmd : Cmd :=
  { kind := .staged, steward := true
    check := fun f s => do
      layout f.payload 8 [(0, decide (p64 f.payload 0 < 2 ^ 48))]
      require (!s.irigInUse || decide ((s.earliestSecond : Int) + s.time.irigDelta ≤ p64 f.payload 0)) (badParam 0)
    apply := fun f s =>
      if s.labelAgrees s.time.vtSec.toNat (p64 f.payload 0) then
        .ok (if s.irigInUse then s else s.modTime fun t => { t with labelRequest := some (BitVec.ofNat 48 (p64 f.payload 0)) })
      else .error .badParam
    keys := fun _ => [0] }

/-- R83: the naive second at the end of the day a payload names. -/
def leapNaive (p : Bytes) : Nat := (dayNumber (p16 p 2) (p8 p 4) (p8 p 5) + 1) * 86400

/-- R83: the VT second of effect of a leap at a naive second. -/
def leapEffect (leaps : List LeapEntry) (naive : Nat) (negative : Bool) : Int :=
  (naive : Int) + offsetInForce leaps (naive - 1) + (if negative then -1 else 1)

/-- R83: schedule or cancel at a commit second. -/
def State.leapChange (s : State) (p : Bytes) (commit : Int) : Except Status State :=
  let naive := leapNaive p
  let neg := p8 p 1 == 1
  let held := s.time.leaps.find? fun e => e.naive == naive
  if p8 p 0 = 0 then
    if leapEffect s.time.leaps naive neg ≤ commit then .error .late
    else if held.isNone ∧ 64 ≤ s.time.leaps.length then .error .exhausted
    else .ok (s.modTime fun t => { t with leaps := reoffset 32 (insertLeap t.leaps ⟨naive, 0, 1, neg⟩), utcValid := true })
  else
    match held with
    | some e =>
      if e.effect ≤ commit then .error .badParam
      else .ok (s.modTime fun t => { t with leaps := reoffset 32 (t.leaps.filter fun x => !(x.naive == naive)) })
    | none => .error .badParam

/-- R61, R83: the label the second that starts takes once the step is applied. -/
def State.labelAtStep (s : State) : Int :=
  match s.time.labelRequest with
  | some l => l.toNat
  | none => if s.time.irigStep then (s.time.vtSec.toNat : Int) + s.time.irigDelta else s.time.vtSec.toNat

def leapScheduleCmd : Cmd :=
  { kind := .staged, steward := true
    check := fun f s => do
      let p := f.payload
      require (p.length == 8) (badParam headerField)
      fields [(0, inRange 0 (p8 p 0) 1), (1, inRange 0 (p8 p 1) 1)]
      require (inRange 2000 (p16 p 2) 2199 && inRange 1 (p8 p 4) 12 && p8 p 5 == daysInMonth (p16 p 2) (p8 p 4))
        { status := .invalidTime }
      fields [(6, zeroAt p 6 2)]
      match s.leapChange p s.earliestSecond with
      | .ok _ => .ok ()
      | .error .badParam => .error (badParam 0)
      | .error st => .error (refuse st)
    apply := fun f s => s.leapChange f.payload s.labelAtStep
    keys := fun p => [leapNaive p] }

/-- R84, R63: slew or step to PPS IN; a step is refused in service when it is staged. Whether PPS IN is valid is judged when
the stage is validated, not at S. -/
def timeAlignCmd : Cmd :=
  { kind := .staged, steward := true
    check := fun f s => do
      layout f.payload 4 [(0, inRange 0 (p8 f.payload 0) 1), (1, zeroAt f.payload 1 3)]
      require (!(p8 f.payload 0 == 1 && s.power.opState == .service)) (refuse .notOwnerState)
    apply := fun f s =>
      if s.time.ppsValid || s.time.validated then .ok (s.modTime fun t => { t with alignRequest := some (p8 f.payload 0) }) else .error .degraded
    keys := fun _ => [0] }

/-- R84: at the boundary the alignment asked for starts, if PPS IN is still valid. R63 refuses a step where it is staged in
service; one staged before the module entered service makes no step in service (DESIGN CHOICE, log entry 42). -/
def State.boundaryAlign (s : State) : State :=
  match s.time.alignRequest with
  | none => s
  | some mode =>
    let s := s.modTime fun t => { t with alignRequest := none }
    if !s.time.ppsValid then s
    else if mode = 1 ∧ s.power.opState ≠ .service then s.alignToPps
    else if mode = 0 then s.modTime fun t => t.slewStep t.cfg.realignThresholdPs
    else s

/-- R85. -/
def timeConvertCmd : Cmd :=
  { kind := .readback
    check := fun f s => do
      let p := f.payload
      require (p.length == 40) (badParam headerField)
      fields [(0, inRange 0 (p8 p 0) 1), (1, inRange 0 (p8 p 1) 1), (2, zeroAt p 2 6)]
      require (p8 p 0 == 0 || (civilOfVt s.time.leaps (p8 p 1 == 1) (vtAt p 8).sec.toNat).isSome) { status := .invalidTime }
      fields [(20, zeroAt p 20 4), (31, p8 p 0 == 1 || inRange 0 (p8 p 31) 1)]
      require (p8 p 0 == 1 || civilValid s.time.leaps (p8 p 31 == 1) (calAt p 24)) { status := .invalidTime }
      fields [(38, zeroAt p 38 2)]
    run := fun f s =>
      let p := f.payload
      if p8 p 0 = 0 then
        let sec := civilToVt s.time.leaps (p8 p 31 == 1) (calAt p 24)
        answer (p.take 8 ++ vt96Bytes ⟨BitVec.ofNat 48 sec, BitVec.ofNat 48 (p48 p 32)⟩ ++ p.drop 20) s
      else
        let v := vtAt p 8
        let c := (civilOfVt s.time.leaps (p8 p 1 == 1) v.sec.toNat).getD ⟨2000, 1, 1, 0, 0, 0⟩
        answer (p.take 24 ++ calBytes c (p8 p 1 == 1) v.frac) s }

/-- R86: force holdover, or release it. -/
def State.forceHoldover (s : State) (force : Bool) : State :=
  let was := s.time.holdoverForced
  let s := s.modTime fun t => { t with holdoverForced := force }
  if force then
    (if s.time.refFollows then
       (s.modTime fun t => { t with refQualifiedAt := none }).enterHoldover true
     else s.modTime fun t => { t with refQualifiedAt := none })
  else if was && s.time.refValid then
    (if s.time.holdover then s.modTime fun t => { t with refQualifiedAt := some s.clock }
     else if s.time.locked && s.time.freqSource != 0 then s.followRef else s)
  else s

def holdoverForceCmd : Cmd :=
  { kind := .staged, steward := true
    check := fun f _ => layout f.payload 4 [(0, inRange 0 (p8 f.payload 0) 1), (1, zeroAt f.payload 1 3)]
    apply := fun f s => .ok (s.forceHoldover (p8 f.payload 0 == 1))
    keys := fun _ => [0] }

/-- R87: the bytes of a leap-table row. -/
def LeapEntry.bytes (e : LeapEntry) : Bytes :=
  w64 e.naive ++ leInt 2 e.offset ++ w8 e.source ++ w8 (boolNat e.negative) ++ w32 0

def leapTableGetCmd : Cmd :=
  { kind := .readback, check := noPayload
    run := fun _ s => answer (w16 s.time.leaps.length ++ zeros 6 ++ (s.time.leaps.map LeapEntry.bytes).flatten) s }

end Sys2Proof.Machine
end

