-- ==== Sys2Proof/Machine/Conversion.lean ====
section
/-! DEFINITION. Conversion (R95 to R124): front-end changes, the comparator, slices, substitution, and the commands of
chapter 03. -/

namespace Sys2Proof.Machine

/-- R20, R40: the node of a channel has failed or is isolated. -/
def State.chanNodeDown (s : State) (c : Nat) : Bool := s.nodeOut (c % 8)

/-- R33, R40, R118: at the commit every channel of a mask is the tenant's, none is isolated, and their nodes answer. -/
def channelsReady (f : Frame) (s : State) : Except Status Unit :=
  if !ownsChannels f s then .error .notOwnerState
  else if (bitsOf (maskAt 128 f.payload 0 16)).any fun c => s.chanIsolated c || s.chanNodeDown c then .error .degraded
  else .ok ()

/-- The channels of a mask at the head of a payload. -/
def maskChannels (p : Bytes) : List Nat := bitsOf (maskAt 128 p 0 16)

/-! ## Front end (R98, R112, R119) -/

/-- R98: the settling time of a change, in SLICE ticks. -/
def settleTicks (a b : FeCfg) : Nat :=
  max (if a.coupling ≠ b.coupling then 125000 else 0)
    (max (if !a.enable && b.enable then 62500 else 0)
      (max (if a.filter ≠ b.filter then 1250 else 0) (if a.range ≠ b.range then 625 else 0)))

/-- R38: whether two front-end settings differ in a record-defining parameter. -/
def feDefines (a b : FeCfg) : Bool :=
  a.range != b.range || a.coupling != b.coupling || a.filter != b.filter || a.sampleFormat != b.sampleFormat
    || a.flagNibble != b.flagNibble || a.enable != b.enable

/-- R35, R38: what the settings of a channel were up to an instant. -/
def Channel.settingsEnd (x : Channel) (v : Vt96) (at_ : Nat) : Channel :=
  { x with since := at_
           before := some { vt := v, at_, since := x.since, fe := x.fe, comp := x.comp, capture := x.capture, reduction := x.reduction
                            accum := x.accum, capState := x.capState, settleEnd := x.settleEnd } }

/-- A record-defining change of this instant has been made. -/
def Channel.changedAt (x : Channel) (v : Vt96) : Bool := (x.before.map fun b => b.vt == v).getD false

/-- R38, R268: a record-defining change of a channel at S: its records end, its marker says so, its gates are cut. What the commit changes
further at S ends nothing more: `before` holds what held up to S. -/
def State.definingChange (s : State) (c : Nat) : State :=
  if (s.chan c).changedAt s.now then s
  else
    let at_ := s.firstSampleAt c s.now
    let s := (s.endRecords c 2).modSource c fun x => { x with configChanged := true }
    let s := s.modChan c fun x => x.settingsEnd s.now at_
    s.cutGates (·.readsSource c) (vtNat (vtSecond s.time.vtSec))

/-- R136: whether the dither is on. -/
def Channel.ditherActive (x : Channel) : Bool := x.dither && x.fe.filter != 0

/-- R137: a change of the dither enters the calibration log. -/
def State.logDither (s : State) (c : Nat) : State :=
  s.modCal fun k => { k with logExtra := k.logExtra ||| 0x10, logExtraMask := setBit k.logExtraMask c true }

/-- R129: a fresh pair window from a clock reading on. -/
def Channel.newPair (x : Channel) (now : Nat) : Channel :=
  { x with pairFrom := now, pairBlocks := 0, pairTotal := 0, pairOvr := 0, pairValid := false, pairBeta := false, pairMoments := {} }

/-- R98: the front end up to an instant, and where its settling ends: what a commit changes twice is one change. -/
def Channel.frontBefore (x : Channel) (v : Vt96) : FeCfg × Nat :=
  match x.before with
  | some b => if b.vt = v then (b.fe, b.settleEnd) else (x.fe, x.settleEnd)
  | none => (x.fe, x.settleEnd)

/-- R98, R112, R119, R129, R137, R204: new front-end settings of a channel. Enabling it starts a pair window; disabling it ends its capture. -/
def State.setFrontEnd (s : State) (c : Nat) (fe : FeCfg) : State :=
  let x := s.chan c
  let (was, ended) := x.frontBefore s.now
  let ticks := settleTicks was fe
  let at_ := s.firstSampleAt c s.now
  let s := if feDefines x.fe fe then s.definingChange c else s
  let s := if x.fe.enable && !fe.enable then s.stopStamps c 3 else s
  let s := if ({ x with fe } : Channel).ditherActive != x.ditherActive then s.logDither c else s
  let stops := x.fe.enable && !fe.enable
  s.modChan c fun x =>
    let y := if !x.fe.enable && fe.enable then x.newWindow s.clock else x
    { (if !x.fe.enable && fe.enable && !x.slewing then y.newPair s.clock else y) with
             fe
             capState := if stops && (x.capState == 1 || x.capState == 4) then 0 else x.capState
             armHeld := x.armHeld && !stops
             settleEnd := if 0 < ticks then max ended (at_ + 8 * ticks) else ended
             settleUntil := if 0 < ticks then max x.settleUntil (s.clock + ticks) else x.settleUntil
             settling := x.settling || decide (0 < ticks)
             masked := x.masked || decide (0 < ticks)
             maskUntil := if 0 < ticks then max x.maskUntil (s.clock + ticks) else x.maskUntil }

/-- The settings of CHANNEL_CONFIG. -/
def feOf (p : Bytes) : FeCfg :=
  { enable := p8 p 16 == 1, range := p8 p 17, coupling := p8 p 18, filter := p8 p 19, sampleFormat := p8 p 20
    flagNibble := p8 p 21 }

/-- R119. -/
def channelConfigCmd : Cmd :=
  { kind := .staged, rights := mayOwn
    check := fun f _ =>
      let p := f.payload
      layout p 24 [(0, !zeroAt p 0 16), (16, inRange 0 (p8 p 16) 1), (17, inRange 0 (p8 p 17) 5), (18, inRange 0 (p8 p 18) 1)
        , (19, inRange 0 (p8 p 19) 3), (20, inRange 0 (p8 p 20) 2)
        , (21, inRange 0 (p8 p 21) 1 && !(p8 p 21 == 1 && p8 p 20 != 1)), (22, zeroAt p 22 2)]
    apply := fun f s => do
      channelsReady f s
      .ok (s.each (maskChannels f.payload) fun s c => s.setFrontEnd c (feOf f.payload))
    keys := maskChannels
    without := clearMask 16 }

/-- R98: the settling time is over. -/
def execFeSettlingEnd (t : Nat) (c : Fin 128) (s : State) : Host.Outcome State Fault Refusal :=
  let s1 := s.advance t
  .next (State.settle s (s1.modChan c.val fun x => if x.settleUntil ≤ s1.clock then { x with settling := false } else x))

/-! ## Comparator (R111 to R113, R120) -/

/-- R112, R113, R120: new comparator settings; a fault is cleared. An enabled comparator takes its state at the end of a
mask. -/
def State.setComparator (s : State) (c : Nat) (k : CompCfg) : State :=
  let x := s.chan c
  let moved := x.comp.threshold != k.threshold || x.comp.hysteresis != k.hysteresis || x.comp.slope != k.slope
  let s := if moved then s.definingChange c else s
  let s := if x.comp.enable && !k.enable then s.stopStamps c 3 else s
  let starts := moved || (k.enable && (!x.comp.enable || x.compFault))
  s.modChan c fun x =>
    { x with comp := k, compFault := false, masked := x.masked || starts
             maskUntil := if moved then max x.maskUntil (s.clock + 160) else if starts then max x.maskUntil s.clock else x.maskUntil }

def compOf (p : Bytes) : CompCfg :=
  { threshold := s16 p 16, hysteresis := p8 p 18, slope := p8 p 19, enable := p8 p 20 == 1 }

/-- R120. -/
def comparatorConfigCmd : Cmd :=
  { kind := .staged, rights := mayOwn
    check := fun f _ =>
      let p := f.payload
      layout p 24 [(0, !zeroAt p 0 16), (16, inRangeI (-2048) (s16 p 16) 2047), (18, inRange 0 (p8 p 18) 15)
        , (19, inRange 0 (p8 p 19) 2), (20, inRange 0 (p8 p 20) 1), (21, zeroAt p 21 3)]
    apply := fun f s => do
      channelsReady f s
      .ok (s.each (maskChannels f.payload) fun s c => s.setComparator c (compOf f.payload))
    keys := maskChannels
    without := clearMask 16 }

/-- R268: the comparator level of the newest marker of a source. -/
def setMarkerLevel (high : Bool) (w : U64) : U64 := setBit w 12 high

/-- A frame whose marker takes another level. -/
def Item.patchLevel (high : Bool) (it : Item) : Item :=
  match it.body with
  | .stamps f (w :: ws) => { it with body := .stamps { f with level := if f.slope = 2 then boolNat high else f.level } (setMarkerLevel high w :: ws) }
  | _ => it

def State.patchMarker (s : State) (i : Nat) (high : Bool) : State :=
  s.modSource i fun x =>
    if x.queue.any fun e => e.1.isMarker then
      let n := (x.queue.reverse.takeWhile fun e => !e.1.isMarker).length
      { x with queue := lmod x.queue (x.queue.length - 1 - n) fun e => (e.1, setMarkerLevel high e.2) }
    else if (x.ring.items.getLast?.map (·.headless)).getD true then x
    else { x with ring := { x.ring with items := lmod x.ring.items (x.ring.items.length - 1) (Item.patchLevel high) } }

/-- R111, R112, R268: the mask ends and the comparator takes its state from the input, as one does that has none yet since power came. -/
def effectComparatorMaskEnd (c : Fin 128) (high : Bool) (s : State) : State :=
  let x := s.chan c.val
  if (x.masked || !x.compKnown) && decide (x.maskUntil ≤ s.clock) then
    let s := s.modChan c.val fun x => { x with masked := false, compState := high, compKnown := true }
    if (s.source c.val).running then s.patchMarker c.val high else s
  else s

def execComparatorMaskEnd (t : Nat) (c : Fin 128) (high : Bool) (s : State) : Host.Outcome State Fault Refusal :=
  .next (State.settle s (effectComparatorMaskEnd c high (s.advance t)))

/-- R113: a comparator fault. -/
def effectComparatorFault (c : Fin 128) (s : State) : State :=
  let x := s.chan c.val
  if x.fe.enable && x.comp.enable && !x.compFault then
    (s.modChan c.val fun x => { x with compFault := true }).raise (chanEvent c.val 2) []
  else s

def execComparatorFault (t : Nat) (c : Fin 128) (s : State) : Host.Outcome State Fault Refusal :=
  .next (State.settle s (effectComparatorFault c (s.advance t)))

/-! ## Slices (R100 to R110) -/

/-- The phase a slice serves. -/
def Channel.phaseOf (x : Channel) (slice : Nat) : Option Nat := (List.range 8).find? fun p => x.sliceAt p == slice

/-- Put a slice on a phase. -/
def Channel.putSlice (x : Channel) (phase slice : Nat) : Channel :=
  { x with phaseMap := (x.phaseMap &&& ~~~ (0xF#32 <<< (4 * phase))) ||| (BitVec.ofNat 32 slice <<< (4 * phase)) }

/-- The code of a detection of R105 in EV_SLICE_FAULT and the journal: the rows of its table from 0 on (DESIGN CHOICE, log entry 49). -/
def detectionCode : SliceDetection → Nat
  | .stuckBit => 0 | .shadowDisagreement => 1 | .trimLimit => 2 | .selfTest => 3

/-- The first conversion after now. -/
def State.nextConversion (s : State) : Nat := 8 * (s.clock + 1)

/-- R106: the samples of a phase carry SLICE_FAULT from a conversion on. -/
def Channel.openFault (x : Channel) (phase n : Nat) : Channel :=
  if x.faultSpans.any fun f => f.phase == phase && f.to_.isNone then x
  else { x with faultSpans := lastN 32 x.faultSpans ++ [{ phase, from_ := n }] }

/-- R106, R107: they carry it up to a conversion. -/
def Channel.closeFault (x : Channel) (phase n : Nat) : Channel :=
  { x with faultSpans := x.faultSpans.map fun f => if f.phase = phase ∧ f.to_ = none then { f with to_ := some n } else f }

/-- The terms of the slices in service, by phase. -/
def Channel.phaseTerms (x : Channel) : List Terms := (List.range 8).map fun p => x.live.getD (x.sliceAt p) {}

/-- R39, R125: a change of coefficients or slices at S, from the first sample of S on. -/
def State.changeCoefficients (s : State) (c : Nat) (f : Channel → Channel) : State :=
  let n := s.firstSampleAt c s.now
  s.modChan c fun x =>
    let y := f x
    { y with coef := ((n, y.phaseTerms) :: (if x.coef.isEmpty then [(0, x.phaseTerms)] else x.coef)).take 64 }

/-- R108: a channel is left without a spare: it starves, unless its background is off or it is disabled (R135). -/
def State.noSpare (s : State) (c slice phase : Nat) : State :=
  let s := s.modChan c fun x => { x with reasons := x.reasons ||| 0x40, lastStarved := x.reasons ||| 0x40 }
  let s := if (s.chan c).background && (s.chan c).fe.enable then s.raise (chanEvent c 3) (w8 (s.chan c).reasons.toNat) else s
  s.noteEntry 0x0306 (BitVec.ofNat 32 (c + 2 ^ 8 * slice + 2 ^ 16 * phase + 2 ^ 24 * 255)) s.time.vtSec

/-- R107: the spare is retired. -/
def Channel.retireSpare (x : Channel) (slice : Fin 9) (now : Nat) : Channel :=
  { x.newPair now with spare := none, retired := some slice, sliceTested := false, rotationPaused := false }

/-- R106, R107, R109: a slice is declared faulty. -/
def State.declareFaulty (s : State) (c : Nat) (slice : Fin 9) (d : SliceDetection) : State :=
  let x := s.chan c
  if x.faulty.getLsbD slice.val || x.retired == some slice then s
  else
    let phase := (x.phaseOf slice.val).getD x.shadowPhase
    let s := s.modChan c fun x => { x with faulty := setBit x.faulty slice.val true }
    let s := if (x.phaseOf slice.val).isSome then s.modChan c fun x => x.openFault phase s.nextConversion else s
    let s := s.raise (sheafEvent (sheafOf c) 1) (w8 c ++ w8 slice.val ++ w8 phase ++ w8 (detectionCode d))
    let s := s.noteEntry 0x0306 (BitVec.ofNat 32 (c + 2 ^ 8 * slice.val + 2 ^ 16 * phase + 2 ^ 24 * detectionCode d)) s.time.vtSec
    if x.spare = some slice then (s.modChan c fun x => x.retireSpare slice s.clock).noSpare c slice.val phase
    else if x.spare.isNone then s.modChan c fun x => { x with failed := true }
    else if s.cal.cfg.autoSubstitute = 1 then s.stageMgmt (.substitute (Fin.ofNat 128 c) slice)
    else s

/-- R105: a detection fires; a shadow disagreement first runs its check of 10 µs, in which both outputs are flagged. -/
def effectSliceFaultDetect (c : Fin 128) (slice : Fin 9) (d : SliceDetection) (s : State) : State :=
  match d with
  | .shadowDisagreement =>
    s.modChan c.val fun x =>
      match x.spare with
      | some sp =>
        if x.shadowCheck.isSome then x
        else { x.openFault x.shadowPhase s.nextConversion with shadowCheck := some (x.shadowPhase, sp, Fin.ofNat 9 (x.sliceAt x.shadowPhase)) }
      | none => x
  | _ => s.declareFaulty c.val slice d

def execSliceFaultDetect (t : Nat) (c : Fin 128) (slice : Fin 9) (by_ : SliceDetection) (s : State) :
    Host.Outcome State Fault Refusal :=
  .next (State.settle s (effectSliceFaultDetect c slice by_ (s.advance t)))

/-- R105: the check after a shadow disagreement, of the two slices it began with: the slice that fails is faulty, and the in-service one where
neither fails. Where both fail both are faulty, the in-service one first (DESIGN CHOICE, log entry 232). -/
def effectShadowCheckDone (c : Fin 128) (spareFails inServiceFails : Bool) (s : State) : State :=
  match (s.chan c.val).shadowCheck with
  | none => s
  | some (phase, sp, inS) =>
    let s := s.modChan c.val fun x =>
      let x := { x with shadowCheck := none }
      if x.faulty.getLsbD (x.sliceAt phase) then x else x.closeFault phase s.nextConversion
    let s := if inServiceFails || !spareFails then s.declareFaulty c.val inS .shadowDisagreement else s
    if spareFails then s.declareFaulty c.val sp .shadowDisagreement else s

def execShadowCheckDone (t : Nat) (c : Fin 128) (spareFails inServiceFails : Bool) (s : State) :
    Host.Outcome State Fault Refusal :=
  .next (State.settle s (effectShadowCheckDone c spareFails inServiceFails (s.advance t)))

/-- R103, R129: the outgoing slice shadows the next phase; its statistics begin. -/
def effectShadowSlewEnd (c : Fin 128) (s : State) : State :=
  s.modChan c.val fun x =>
    if x.slewing then { x.newPair s.clock with slewing := false } else x

def execShadowSlewEnd (t : Nat) (c : Fin 128) (s : State) : Host.Outcome State Fault Refusal :=
  .next (State.settle s (effectShadowSlewEnd c (s.advance t)))

/-- R123. -/
def rotationConfigCmd : Cmd :=
  { kind := .staged, steward := true
    check := fun f _ =>
      layout f.payload 4 [(0, inRange 2 (p8 f.payload 0) 255), (1, inRange 0 (p8 f.payload 1) 1), (2, zeroAt f.payload 2 2)]
    apply := fun f s => .ok (s.modCal fun k =>
      { k with cfg := { k.cfg with rotDwell := p8 f.payload 0, autoSubstitute := p8 f.payload 1 } })
    keys := fun _ => [0] }

/-- R124: whether a substitution or restore names slices that allow it. -/
def State.substituteOk (s : State) (p : Bytes) : Bool :=
  let x := s.chan (p8 p 0)
  if p8 p 2 = 0 then x.faulty.getLsbD (p8 p 1) && x.spare.isSome && (x.phaseOf (p8 p 1)).isSome
  else x.retired.map (·.val) == some (p8 p 1)

/-- R110: a retired slice returns as the spare, shadowing phase 0. The channel is then neither failed nor substituted (DESIGN CHOICE, log
entry 50). -/
def State.restoreSlice (s : State) (c : Nat) : State :=
  s.modChan c fun x =>
    match x.retired with
    | some r => { x.newPair s.clock with spare := some r, retired := none, shadowPhase := 0, faulty := setBit x.faulty r.val false
                                         substituted := false, failed := false, slewing := false, reasons := x.reasons &&& 0xBF }
    | none => x

/-! ## Readbacks (R121, R122) -/

/-- The channel of a 4-byte payload, and its rights and checks. -/
def channelRights (f : Frame) (s : State) : Bool := ownerOrSteward f (ownerOf (p8 f.payload 0) 128 s.chanOwner)

def channelCheck (f : Frame) (_ : State) : Except Reply Unit :=
  layout f.payload 4 [(0, inRange 0 (p8 f.payload 0) 127), (1, zeroAt f.payload 1 3)]

/-- R91: the measured AC corner, from 9.0 to 11.0 kHz. -/
def acCorner (c : Nat) : Nat := 9000000 + (Config.acCorner c).toNat % 2000001

/-- R121: a channel's status; a failed channel reads 3 also when it is disabled (DESIGN CHOICE, log entry 51). The instant state of the
overload detector is an argument: nothing in the model holds the input. -/
def State.channelStatus (s : State) (c : Nat) (overload : Bool) : Bytes :=
  let x := s.chan c
  let state := if s.chanIsolated c then 2 else if x.failed then 3 else boolNat x.fe.enable
  let pending := (List.range 8).any fun p => x.faulty.getLsbD (x.sliceAt p)
  let flags := boolNat x.rotationPaused + 2 * boolNat x.substituted + 4 * boolNat pending + 8 * boolNat x.compFault
    + 16 * boolNat overload
  w8 c ++ w8 state ++ w8 x.fe.range ++ w8 x.fe.coupling ++ w8 x.fe.filter ++ w8 x.fe.sampleFormat ++ w16 0
    ++ w32 x.phaseMap.toNat ++ w8 ((x.spare.map (·.val)).getD 15) ++ w8 (if x.spare.isSome then x.shadowPhase else 15)
    ++ w8 ((x.retired.map (·.val)).getD 15) ++ w8 flags ++ w64 (s.sampleDelay c) ++ w64 (s.compDelay c)
    ++ w32 (acCorner c) ++ w32 x.ovrLast.toNat ++ w32 x.handovers.toNat ++ w32 0

def channelStatusGetCmd : Cmd :=
  { kind := .readback, rights := channelRights, check := channelCheck
    run := fun f s =>
      let (v, s) := s.free
      answer (s.channelStatus (p8 f.payload 0) (v.getLsbD 0)) s }

/-- R122. -/
def State.delayTable (s : State) (c : Nat) : Bytes :=
  w8 c ++ zeros 3 ++ leInt 4 s.cal.tFilt
    ++ ((List.range 24).map fun i => w32 (s.sampleDelayAt c (i / 4) (i % 4)) ++ w32 (s.compDelayAt c (i / 4) (i % 4))).flatten

def delayTableGetCmd : Cmd :=
  { kind := .readback, rights := channelRights, check := channelCheck
    run := fun f s => answer (s.delayTable (p8 f.payload 0)) s }

end Sys2Proof.Machine
end

