-- ==== Sys2Proof/Machine/Calibration.lean ====
section
/-! DEFINITION. Calibration (R125 to R158): temperature sets, the estimators, runs, the calibration log, and the commands
of chapter 04. -/

namespace Sys2Proof

/-- R141: the range of an entry's fields. -/
def clampInt (lo hi v : Int) : Int := max lo (min hi v)

def Terms.limited (t : Terms) : Terms :=
  { o := clampInt (-32768) 32767 t.o, g := clampInt (-32768) 32767 t.g, tau := clampInt (-32767) 32767 t.tau, beta := clampInt (-32767) 32767 t.beta }

/-- R105, R141: an offset, gain or skew needs no value outside its range. -/
def Terms.fits (t : Terms) : Bool := t.limited.o == t.o && t.limited.g == t.g && t.limited.tau == t.tau

end Sys2Proof

namespace Sys2Proof.Machine

/-! ## Temperature sets (R141 to R143) -/

def setTemp (k : Nat) : Int := ([1000, 2500, 4000, 5500, 7000][k]?).getD 0

/-- R141: the contents of a set: what a run wrote, or the factory's, each in the range of its field. -/
def State.calSet (s : State) (c k : Nat) : CalSet :=
  match aget (s.chan c).sets k with
  | some x => x
  | none =>
    let common : Terms := { o := (Config.factoryCommon c k).1, g := (Config.factoryCommon c k).2 }
    { source := 0, updates := 0, updatedVt := Config.factorySetVt c k, common := (common.limited.o, common.limited.g)
      slices := (List.range 9).map fun i =>
        let (o, g, tau, beta) := Config.factorySlice c k i
        ({ o, g, tau, beta } : Terms).limited }

def rowAt (l : List Terms) (i : Nat) : Terms := (l[i]?).getD {}

/-- A set as nine slices' terms after its common term. -/
def CalSet.rows (x : CalSet) : List Terms := { o := x.common.1, g := x.common.2 } :: x.slices

def zeroRows : List Terms := List.replicate 10 {}

def State.setOk (s : State) (c k : Nat) : Bool := !(s.chan c).badSets.getLsbD k

/-- R142: the valid set nearest a temperature, the lower on a tie; zero with none valid. -/
def State.nearestValid (s : State) (c : Nat) (t : Int) : Option Nat :=
  ((List.range 5).filter (s.setOk c)).foldl (fun best k =>
    match best with
    | none => some k
    | some b => if (t - setTemp k).natAbs < (t - setTemp b).natAbs then some k else some b) none

def State.nearestRows (s : State) (c : Nat) (t : Int) : List Terms :=
  match s.nearestValid c t with
  | some k => (s.calSet c k).rows
  | none => zeroRows

/-- R142: one field of an interpolation, rounded to nearest, a tie upward (DESIGN CHOICE, log entry 234). -/
def lerp (w a b : Int) : Int := a + ((b - a) * w + 32768) / 65536

def lerpTerms (w : Int) (a b : Terms) : Terms :=
  { o := lerp w a.o b.o, g := lerp w a.g b.g, tau := lerp w a.tau b.tau, beta := lerp w a.beta b.beta }

/-- R142: the sets a temperature needs: one, or two neighbours. -/
def setsFor (t : Int) : List Nat :=
  if t ≤ 1000 then [0]
  else if 7000 ≤ t then [4]
  else
    let i := ((t - 1001) / 1500).toNat
    if t = setTemp (i + 1) then [i + 1] else [i, i + 1]

/-- R142: the common term and the nine relative terms at a temperature. -/
def State.interpRows (s : State) (c : Nat) (t : Int) : List Terms :=
  if t ≤ 1000 ∨ 7000 ≤ t then s.nearestRows c t
  else
    match setsFor t with
    | [k] => if s.setOk c k then (s.calSet c k).rows else s.nearestRows c t
    | [i, j] =>
      if s.setOk c i && s.setOk c j then
        (s.calSet c i).rows.zipWith (lerpTerms ((t - setTemp i) * 65536 / 1500)) (s.calSet c j).rows
      else s.nearestRows c t
    | _ => zeroRows

/-- R156: a set in use at the present temperature is replaced by another. -/
def State.setFallback (s : State) (c : Nat) : Bool := (setsFor s.cal.tFilt).any fun k => !s.setOk c k

def addTerms (a b : Terms) : Terms := { o := a.o + b.o, g := a.g + b.g, tau := a.tau + b.tau, beta := a.beta + b.beta }
def subTerms (a b : Terms) : Terms := { o := a.o - b.o, g := a.g - b.g, tau := a.tau - b.tau, beta := a.beta - b.beta }


/-- R126: what is taken from eight numbers so that the rest sums to zero: their mean, its remainder from the first ones (log entry 52). -/
def centreOf (l : List Int) (j : Nat) : Int := l.sum / 8 + (if j < (l.sum % 8).toNat then 1 else 0)

/-- R126: the relative terms of the eight slices in service sum to zero for each coefficient. -/
def Channel.recentre (x : Channel) (common : Terms) (live : List Terms) : List Terms :=
  let rel := (List.range 8).map fun p => subTerms (rowAt live (x.sliceAt p)) common
  (List.range 9).map fun i =>
    match x.phaseOf i with
    | some j => subTerms (rowAt live i)
        { o := centreOf (rel.map (·.o)) j, g := centreOf (rel.map (·.g)) j, tau := centreOf (rel.map (·.tau)) j
          beta := centreOf (rel.map (·.beta)) j }
    | none => rowAt live i

/-- R126, R138, R142: the coefficients that a background trim asks for: common, relative and trim for each slice. -/
def State.neededFor (s : State) (c : Nat) (trim : List Terms) : List Terms :=
  let rows := s.interpRows c s.cal.tFilt
  (s.chan c).recentre (rowAt rows 0) ((List.range 9).map fun i => addTerms (rowAt rows 0) (addTerms (rowAt rows (i + 1)) (rowAt trim i)))

/-- The live coefficients with a background trim: what it asks for, within the ranges. -/
def State.liveFor (s : State) (c : Nat) (trim : List Terms) : List Terms := (s.neededFor c trim).map Terms.limited

/-- R105: slices that need coefficients outside the ranges are faulty. -/
def State.declareLimits (s : State) (c : Nat) (l : List Terms) : State :=
  s.each ((List.range 9).filter fun i => !(rowAt l i).fits) fun s i => s.declareFaulty c (Fin.ofNat 9 i) .trimLimit

/-- R132, R138: whether a coefficient moved beyond its deadband. -/
def beyondDeadband (a b : Terms) : Bool :=
  decide (5 < (a.o - b.o).natAbs ∨ 5 < (a.g - b.g).natAbs ∨ 5 < (a.tau - b.tau).natAbs ∨ 10 < (a.beta - b.beta).natAbs)

/-! ## Gates (R131, R133) -/

/-- R131: two sub-bands at least 4 apart that each hold −50 dBFS. -/
def wideBand (bands : List Int) : Bool :=
  let on := ((List.range 16).zip bands).filter fun b => decide (-5000 ≤ b.2)
  on.any fun a => on.any fun b => decide (a.1 + 4 ≤ b.1)

/-- R131: the reason bits of the gates before quality. -/
def gateBits (total valid ovr : Nat) (e : WindowEstimate) : Nat :=
  let tone := e.images.any fun i => decide (-5000 ≤ i.2.1 ∧ 2000 ≤ i.2.2)
  boolNat (decide (e.rms < 32)) + 2 * boolNat (decide (total < 10 * ovr)) + 4 * boolNat (!wideBand e.bands)
    + 8 * boolNat tone + 32 * boolNat (decide (2 * valid < total))

/-- R131: the components an ensemble window's gates withhold: o, g, τ, β. -/
def withheld (bits : Nat) (e : WindowEstimate) : Bool × Bool × Bool × Bool :=
  let b (i : Nat) : Bool := bits.testBit i
  let even := e.images.any fun i => i.1 % 2 == 0 && decide (-5000 ≤ i.2.1 ∧ 2000 ≤ i.2.2)
  let all := b 1 || b 5
  (all || (b 3 && even), all || b 0 || b 3, all || b 0 || b 2 || b 3, all || b 0 || b 2 || b 3)

/-- R132: a block's estimate enters a window. -/
def Moments.add (m : Moments) (t : Terms) : Moments :=
  { n := m.n + 1
    sum := { o := m.sum.o + t.o, g := m.sum.g + t.g, tau := m.sum.tau + t.tau, beta := m.sum.beta + t.beta }
    sq := { o := m.sq.o + t.o ^ 2, g := m.sq.g + t.g ^ 2, tau := m.sq.tau + t.tau ^ 2, beta := m.sq.beta + t.beta ^ 2 } }

/-- R132: 20 log₁₀(u_t / u) in steps of 0.25 dB, rounded down, from 0 to 255; u is the standard deviation of n block estimates (about their
mean, over n: DESIGN CHOICE, log entry 53) divided by √n, so u² is (n Σx² − (Σx)²) / n³. -/
def qualityCode (target n : Nat) (sum sq : Int) : Byte :=
  let d := (n * sq - sum ^ 2).toNat
  if n = 0 then 0
  else BitVec.ofNat 8 ((List.range 256).filter fun k => decide (1 ≤ k ∧ 10 ^ k * d ^ 40 ≤ (target ^ 2 * n ^ 3) ^ 40)).length

/-- R132: the target uncertainties in the units of block estimates. -/
def Moments.quality (m : Moments) : Quality :=
  { o := qualityCode 50000 m.n m.sum.o m.sq.o, g := qualityCode 50000 m.n m.sum.g m.sq.g
    tau := qualityCode 20000 m.n m.sum.tau m.sq.tau, beta := qualityCode 40000 m.n m.sum.beta m.sq.beta }

/-- R132: the figure of an ensemble estimate is that of the largest uncertainty of the eight slices in service. -/
def worstQuality (l : List Moments) : Quality :=
  match l.map Moments.quality with
  | [] => {}
  | q :: rest => 
    let low (a b : Byte) : Byte := if b < a then b else a
    rest.foldl (fun a b => { o := low a.o b.o, g := low a.g b.g, tau := low a.tau b.tau, beta := low a.beta b.beta }) q

/-- R131, R133: the reason bits and the components withheld, quality included. -/
def judge (qMin total valid ovr : Nat) (q : Quality) (e : WindowEstimate) : Nat × (Bool × Bool × Bool × Bool) :=
  let bits := gateBits total valid ovr e
  let (o, g, tau, beta) := withheld bits e
  let low (q : Byte) : Bool := decide (q.toNat < qMin)
  let lowAny := (!o && low q.o) || (!g && low q.g) || (!tau && low q.tau) || (!beta && low q.beta)
  let clean := bits &&& 15 == 0
  (bits + 16 * boolNat (clean && lowAny), (o || low q.o, g || low q.g, tau || low q.tau, beta || low q.beta))

/-- R131, R133: the components of a pair estimate that are withheld: o, g, τ, β. -/
def pairWithheld (qMin total valid ovr : Nat) (q : Quality) (e : Estimate) : Bool × Bool × Bool × Bool :=
  let all := decide (total < 10 * ovr) || decide (2 * valid < total)
  let small := decide (e.rms < 32)
  let low (q : Byte) : Bool := decide (q.toNat < qMin)
  (all || low q.o, all || small || low q.g, all || small || low q.tau, all || small || !wideBand e.bands || low q.beta)

/-- Take the components of `b` that are not withheld. -/
def mixTerms (h : Bool × Bool × Bool × Bool) (a b : Terms) : Terms :=
  { o := if h.1 then a.o else b.o, g := if h.2.1 then a.g else b.g, tau := if h.2.2.1 then a.tau else b.tau
    beta := if h.2.2.2 then a.beta else b.beta }

/-- The run's mask, while a run is active. -/
def State.inRun (s : State) (c : Nat) : Bool :=
  match s.cal.run with
  | some r => r.active && r.mask.getLsbD c
  | none => false

/-- R108, R138, R154: whether the background estimators run for a channel. -/
def State.estimating (s : State) (c : Nat) : Bool :=
  (s.chan c).fe.enable && (s.chan c).background && (s.chan c).retired.isNone

/-! ## Blocks and windows -/

/-- R129, R131 to R133: what a block adds to the pair window of a channel with a spare that shadows. -/
def Channel.pairBlock (x : Channel) (qMin : Nat) (flags : BitVec 4) (b : Terms) (e : Estimate) : Channel :=
  let ok := flags &&& 7 == 0
  let n := x.pairBlocks + boolNat ok
  let total := x.pairTotal + 1
  let bad := x.pairOvr + boolNat (flags.getLsbD 0)
  let m := if ok then x.pairMoments.add b else x.pairMoments
  let (o, g, tau, beta) := pairWithheld qMin total n bad m.quality e
  { x with pairBlocks := n, pairTotal := total, pairOvr := bad, pairMoments := m, pairTerms := e.terms, qPair := m.quality
           pairValid := decide (1000 ≤ n) && !o && !g && !tau, pairBeta := !beta }

/-- R128, R129: the coefficients the spare would take over with. -/
def Channel.spareTerms (x : Channel) : Terms :=
  addTerms (rowAt x.live (x.sliceAt x.shadowPhase)) { x.pairTerms with beta := if x.pairBeta then x.pairTerms.beta else 0 }

/-- R103, R126, R139: a slice takes a phase: where its pair estimate holds it has the coefficients of the slice it shadowed and the pair
difference, and all in service are then centred. -/
def Channel.takePhase (x : Channel) (phase slice : Nat) (rows : List Terms) (pair : Bool) : Channel :=
  let common := rowAt rows 0
  let live := (List.range 9).map (rowAt x.live)
  let trim := (List.range 9).map (rowAt x.trim)
  let own := if pair then x.spareTerms else rowAt live slice
  let y := { x.putSlice phase slice with
    live := lset live slice own
    trim := if pair then lset trim slice (subTerms own (addTerms common (rowAt rows (slice + 1)))) else trim }
  let centred := y.recentre common y.live
  { y with live := centred, trim := (List.range 9).map fun i => addTerms (rowAt y.trim i) (subTerms (rowAt centred i) (rowAt y.live i)) }

/-- The estimates of the eight phases enter the ensemble window. -/
def addBlock (l : List Moments) (b : List Terms) : List Moments :=
  (List.range 8).map fun p => ((l[p]?).getD {}).add (rowAt b p)

/-- R129: the clock at which the block that ends now began: blocks are whole VT milliseconds. -/
def State.blockStart (s : State) : Nat := s.time.secStart + (s.clock - s.time.secStart) / 625000 * 625000 - 625000

/-- R129, R154: a block of 1 ms, of a window that it lies wholly within: counted, excluded when flagged. The pair window takes no block once it
is frozen for a handover. -/
def effectCalBlockEnd (c : Fin 128) (flags : BitVec 4) (pair : BlockEnd) (s : State) : State :=
  let ok := flags &&& 7 == 0
  if !(s.chan c.val).fe.enable || !(s.estimating c.val || s.inRun c.val) then s
  else
    let start := s.blockStart
    let s := s.modChan c.val fun x => if start < x.ensFrom then x else
      { x with ensTotal := x.ensTotal + 1, ensValid := x.ensValid + boolNat ok, ensOvr := x.ensOvr + boolNat (flags.getLsbD 0)
               ensMoments := if ok then addBlock x.ensMoments pair.block.phases else x.ensMoments }
    let x := s.chan c.val
    match x.spare with
    | some sp =>
      if !s.estimating c.val || x.slewing || x.pairFrozen || decide (start < x.pairFrom) then s
      else
        let s := s.modChan c.val fun x => x.pairBlock s.cal.cfg.qMin flags pair.block.pair pair.window
        let y := s.chan c.val
        let rel := subTerms y.spareTerms (rowAt (s.interpRows c.val s.cal.tFilt) 0)
        if y.pairValid && !rel.fits then s.declareFaulty c.val sp .trimLimit else s
    | none => s

def execCalBlockEnd (t : Nat) (c : Fin 128) (flags : BitVec 4) (pair : BlockEnd) (s : State) : Host.Outcome State Fault Refusal :=
  .next (State.settle s (effectCalBlockEnd c flags pair (s.advance t)))

/-- R133, R134, R138: the trim a window proposes. -/
def State.proposeTrim (s : State) (c : Nat) (h : Bool × Bool × Bool × Bool) (e : WindowEstimate) : List Terms :=
  let x := s.chan c
  let rows := s.interpRows c s.cal.tFilt
  (List.range 9).map fun i =>
    if (x.phaseOf i).isSome then mixTerms h (rowAt x.trim i) (subTerms (rowAt e.terms i) (rowAt rows (i + 1))) else rowAt x.trim i

/-- R138: new coefficients of a channel are staged if one moved beyond its deadband. -/
def State.stageCoefficients (s : State) (c : Fin 128) (trim live : List Terms) : State :=
  if (List.range 9).any fun i => beyondDeadband (rowAt live i) (rowAt (s.chan c.val).live i) then s.stageMgmt (.coefficients c trim live)
  else s

/-- R131 to R138: an ensemble window ends; what it measured is in `e`. -/
def State.ensembleResult (s : State) (c : Fin 128) (e : WindowEstimate) : State :=
  let x := s.chan c.val
  let q := worstQuality x.ensMoments
  let (bits, h) := judge s.cal.cfg.qMin x.ensTotal x.ensValid x.ensOvr q e
  let reasons : Byte := BitVec.ofNat 8 (bits + 64 * boolNat x.spare.isNone + 128 * boolNat (s.nearestValid c.val s.cal.tFilt).isNone)
  let any := h.1 || h.2.1 || h.2.2.1 || h.2.2.2
  let starve := any && (!x.prevWithheld || reasons != x.lastStarved)
  let trim := s.proposeTrim c.val h e
  let s := s.modChan c.val fun x =>
    { x.newWindow s.clock with
      qEnsemble := q, reasons, prevWithheld := any, lastStarved := if starve then reasons else x.lastStarved
      windowsWithheld := if any then x.windowsWithheld + 1 else x.windowsWithheld
      lastAcceptVt := if h.2.2.1 || h.2.2.2 then x.lastAcceptVt else s.time.vtSec
      lastAcceptTemp := if h.2.2.1 || h.2.2.2 then x.lastAcceptTemp else s.cal.tFilt }
  let s := if starve then s.raise (chanEvent c.val 3) (w8 reasons.toNat) else s
  let common := rowAt (s.interpRows c.val s.cal.tFilt) 0
  let s := s.declareLimits c.val ((s.neededFor c.val trim).map fun t => subTerms t common)
  s.stageCoefficients c trim (s.liveFor c.val trim)

/-- R134, R138, R154: the end of a channel's ensemble window, after which a new one begins: with its estimators stopped the trim is held and
only the temperature interpolation goes on. -/
def effectEnsembleWindowEnd (c : Fin 128) (e : WindowEstimate) (s : State) : State :=
  if s.inRun c.val then s
  else if s.estimating c.val then s.ensembleResult c e
  else
    let s := s.modChan c.val fun x => x.newWindow s.clock
    if !(s.chan c.val).fe.enable then s else s.stageCoefficients c (s.chan c.val).trim (s.liveFor c.val (s.chan c.val).trim)

def execEnsembleWindowEnd (t : Nat) (c : Fin 128) (est : WindowEstimate) (s : State) : Host.Outcome State Fault Refusal :=
  .next (State.settle s (effectEnsembleWindowEnd c est (s.advance t)))

/-! ## Runs (R144 to R147) -/

/-- The enabled channels of a mask. -/
def State.enabledIn (s : State) (mask : BitVec 128) : List Nat := (bitsOf mask).filter fun c => (s.chan c).fe.enable

/-- R147: the first second a run may start at: 20 s after the last one was done, or after the end of start-up where that is later. -/
def State.runEarliest (s : State) : Nat :=
  let ended := if s.power.started then (vtNat (s.vtOfTick s.power.endedAt) + 2 ^ 48 - 1) / 2 ^ 48 else 0
  max (s.cal.lastDone.toNat + 20) (ended + 20)

/-- R147: the temperature filter, and an automatic run. The mean is rounded down; until 16 samples have come it is over those there are; with no
channel enabled no run is made (DESIGN CHOICE, log entry 54). -/
def effectTempSampleTick (s : State) : State :=
  let history := lastN 16 (s.cal.history ++ [s.power.plate])
  let t := history.sum / history.length
  let s := s.modCal fun k =>
    { k with history, tFilt := t
             run := k.run.map fun r => if r.active && !r.measured then { r with tempSum := r.tempSum + t, tempCount := r.tempCount + 1 } else r }
  let all := s.enabledIn (BitVec.allOnes 128)
  if s.cal.cfg.autoRun = 1 ∧ s.cal.run.isNone ∧ s.power.started ∧ all ≠ []
      ∧ (s.cal.cfg.deltaT : Int) < (t - s.cal.tRef).natAbs then
    let start := max s.earliestSecond s.runEarliest
    match s.newEntry { s.workEntry 0 0 0x0403 all.length with state := 0, status := .scheduled, vtSecond := BitVec.ofNat 48 start } with
    | some (j, s) => s.modCal fun k => { k with run := some { start := BitVec.ofNat 48 start, mask := maskOf 128 all, journal := j } }
    | none => s
  else s

def execTempSampleTick (t : Nat) (s : State) : Host.Outcome State Fault Refusal :=
  .next (State.settle s (effectTempSampleTick (s.advance t)))

/-- R130, R144: at its second a run becomes active; the ensemble windows of its channels stop and its own begin. -/
def State.startRun (s : State) : State :=
  match s.cal.run with
  | some r =>
    if !r.active && decide (r.start.toNat ≤ s.time.vtSec.toNat) then
      let mask := maskOf 128 (s.enabledIn r.mask)
      let s := s.modCal fun k => { k with run := some { r with active := true, mask } }
      let s := s.each (bitsOf mask) fun s c => s.modChan c fun x => { x.newWindow s.clock with rotationPaused := x.spare.isSome || x.rotationPaused }
      s.modEntry r.journal fun e => { e with state := 1, status := .part, remainder := 0, total := BitVec.ofNat 32 (bitsOf mask).length }
    else s
  | none => s

/-- R144: add a change to one set. -/
def CalSet.shift (x : CalSet) (vt : U48) (d : List Terms) : CalSet :=
  { x with source := 1, updates := x.updates + 1, updatedVt := vt
           slices := (List.range 9).map fun i => addTerms (rowAt x.slices i) (rowAt d i) }

/-- R143, R144: what a run writes into a set: the deltas added, or, where the set fails its check, the absolute values. -/
def State.newSet (s : State) (c k : Nat) (rows delta : List Terms) : CalSet :=
  let old := s.calSet c k
  if s.setOk c k then old.shift s.time.vtSec delta
  else { source := 2, updates := old.updates + 1, updatedVt := s.time.vtSec
         common := ((rowAt rows 0).o, (rowAt rows 0).g)
         slices := (List.range 9).map fun i => addTerms (rowAt rows (i + 1)) (rowAt delta i) }

/-- R143: a channel with no valid set is starved with bit 7, until a run writes one. -/
def Channel.noteSets (x : Channel) : Channel := { x with reasons := setBit x.reasons 7 (x.badSets == BitVec.allOnes 5) }

/-- R143: a set that fails its check is not used and is reported once. With none left the channel starves; the event comes with the next window
(R135). -/
def State.failSet (s : State) (c k : Nat) : State :=
  if (s.chan c).badSets.getLsbD k then s
  else
    let s := s.modChan c fun x => { x with badSets := setBit x.badSets k true }.noteSets
    let s := s.raise (sheafEvent (sheafOf c) 2) (w8 c ++ w8 k)
    s.stageMgmt (.setFallback (Fin.ofNat 128 c))

/-- R105, R141, R143, R144: write the deltas of a channel into the sets at the run's temperature, within the ranges of their fields; each is read
back, and `failing` tells which then fail their check. -/
def State.writeSets (s : State) (c : Nat) (tRun : Int) (h : Bool × Bool × Bool × Bool) (e : WindowEstimate)
    (failing : Nat → Bool) : State :=
  let rows := s.interpRows c tRun
  let x := s.chan c
  let delta := (List.range 9).map fun i =>
    if (x.phaseOf i).isSome then mixTerms h {} (subTerms (rowAt e.terms i) (rowAt rows (i + 1))) else {}
  s.each (setsFor tRun) fun s k =>
    let new := s.newSet c k rows delta
    let s := s.declareLimits c new.slices
    let s := s.modChan c fun x =>
      { x with sets := aset x.sets k { new with slices := new.slices.map Terms.limited }, badSets := setBit x.badSets k false }.noteSets
    if failing k then s.failSet c k else s

/-- R144: the mean filtered temperature of a run's window, rounded down; the present one where no sample fell in it (DESIGN CHOICE, log entry
233). -/
def State.runTemp (s : State) (r : CalRun) : Int := if r.tempCount = 0 then s.cal.tFilt else r.tempSum / r.tempCount

/-- R144: one channel of a run. Its window is no ensemble window of R156's figures, but for the last acceptance (DESIGN CHOICE, log entry 236). -/
def State.runChannel (s : State) (r : CalRun) (c : Nat) (e : WindowEstimate) (failing : Nat → Bool) : State :=
  let x := s.chan c
  let (_, h) := judge s.cal.cfg.qMin x.ensTotal x.ensValid x.ensOvr (worstQuality x.ensMoments) e
  let s := s.addUnits r.journal 1
  if h.1 && h.2.1 && h.2.2.1 && h.2.2.2 then s
  else
    let s := (s.writeSets c (s.runTemp r) h e failing).stageMgmt (.runResult (Fin.ofNat 128 c))
    let s := s.modCal fun k => { k with run := k.run.map fun r => { r with written := setBit r.written c true } }
    if h.2.2.1 || h.2.2.2 then s
    else s.modChan c fun x => { x with lastAcceptVt := s.time.vtSec, lastAcceptTemp := s.cal.tFilt }

/-- R144, R146: the window of an active run ends. No set is written once PWR_FAIL has come. -/
def effectCalRunWindowEnd (ests : RunWindow) (s : State) : State :=
  match s.cal.run with
  | some r =>
    if r.active && !r.measured && s.power.opState != .powerFail then
      let s := s.each (ests.ests.filter fun e => r.mask.getLsbD e.1.val) fun s e =>
        s.runChannel r e.1.val e.2 fun k => ests.failing.any fun f => f.1 == e.1 && f.2.val == k
      s.modCal fun k => { k with run := k.run.map fun r => { r with measured := true } }
    else s
  | none => s

def execCalRunWindowEnd (t : Nat) (ests : RunWindow) (s : State) : Host.Outcome State Fault Refusal :=
  .next (State.settle s (effectCalRunWindowEnd ests (s.advance t)))

/-- R145: a run is complete. -/
def State.completeRun (s : State) : State :=
  match s.cal.run with
  | some r =>
    let s := s.each (bitsOf r.mask) fun s c => s.modChan c fun x => { x.newWindow s.clock with rotationPaused := false }
    (s.completeEntry r.journal).modCal fun k => { k with run := none, tRef := s.runTemp r, lastDone := s.time.vtSec }
  | none => s

/-- R143: the check at start-up and every hour; each newly failing set is reported once. -/
def effectCalSetCheck (failing : List (Fin 128 × Fin 5)) (s : State) : State := s.each failing fun s e => s.failSet e.1.val e.2.val

def execCalSetCheck (t : Nat) (failing : List (Fin 128 × Fin 5)) (s : State) : Host.Outcome State Fault Refusal :=
  .next (State.settle s (effectCalSetCheck failing (s.advance t)))

/-! ## The management plane's stage (R102 to R104, R138 to R140) -/

/-- R102 to R104, R129, R130: the handovers due at a second, and the channels whose rotation pauses or goes on. The pair windows of those due
are frozen; a spare that is about to take a faulty phase is not handed over. -/
def State.dueHandovers (s : State) (second : Nat) : List MgmtChange × State :=
  if second % s.cal.cfg.rotDwell ≠ 0 then ([], s)
  else
    let l := (List.range 128).filter fun c => (s.chan c).fe.enable && (s.chan c).spare.isSome && !s.inRun c
    let due := l.filter fun c => (s.chan c).pairValid && (s.chan c).background
      && !s.cal.staged.any fun m => m.bit == 3 && m.channel == some c
    (due.map fun c => .handover (Fin.ofNat 128 c),
     s.each l fun s c => s.modChan c fun x => { x with rotationPaused := !due.contains c, pairFrozen := due.contains c })

/-- R103, R139: the channel after a handover at S. -/
def Channel.handover (x : Channel) (sp : Fin 9) (rows : List Terms) (now : Nat) : Channel :=
  let y := { x.takePhase x.shadowPhase sp.val rows true with handovers := x.handovers + 1 }
  { y.newPair now with spare := some (Fin.ofNat 9 (x.sliceAt x.shadowPhase)), shadowPhase := (x.shadowPhase + 1) % 8, slewing := true
                       pairFrozen := false, rotationPaused := false }

/-- R107, R126, R140: at S the spare takes the phase of a faulty slice, with the difference that its pair window has measured where that is
valid; with the spare gone since, the fault cannot be substituted (R109). -/
def State.applySubstitute (s : State) (c : Nat) (slice : Fin 9) : State :=
  let x := s.chan c
  match x.spare, x.phaseOf slice.val with
  | some sp, some phase =>
    let n := s.firstSampleAt c s.now
    let rows := s.interpRows c s.cal.tFilt
    ((s.changeCoefficients c fun x =>
      { (x.takePhase phase sp.val rows x.pairValid).retireSpare slice s.clock with substituted := true }).modChan c fun x =>
        x.closeFault phase n).noSpare c slice.val phase
  | none, some _ => s.modChan c fun x => { x with failed := x.failed || x.faulty.getLsbD slice.val }
  | _, _ => s

/-- R103, R107, R139: a handover at S. An outgoing slice that has been declared faulty is then a faulty spare and is retired at once. -/
def State.applyHandover (s : State) (c : Nat) : State :=
  let x := s.chan c
  match x.spare with
  | none => s
  | some sp =>
    let n := s.firstSampleAt c s.now
    let out : Fin 9 := Fin.ofNat 9 (x.sliceAt x.shadowPhase)
    let rows := s.interpRows c s.cal.tFilt
    let s := s.changeCoefficients c fun x => x.handover sp rows s.clock
    if x.faulty.getLsbD out.val then
      (s.modChan c fun y => ({ y with slewing := false }.retireSpare out s.clock).closeFault x.shadowPhase n).noSpare c out.val x.shadowPhase
    else s

/-- One change of the management plane's stage at S. -/
def State.applyMgmt (s : State) (m : MgmtChange) : State :=
  match m with
  | .coefficients c trim live => s.changeCoefficients c.val fun x => { x with trim, live }
  | .runResult c => s.changeCoefficients c.val fun x => { x with trim := [], live := s.liveFor c.val [] }
  | .handover c => s.applyHandover c.val
  | .substitute c slice => s.applySubstitute c.val slice
  | .awnTables i l taps verns => s.modLane i.val l.val fun y => { y with tables := some (taps, verns) }
  | .setFallback c => s.changeCoefficients c.val fun x => { x with live := s.liveFor c.val x.trim }

/-- R139: the order within a step: ensemble updates and run results before handovers. -/
def orderMgmt (l : List MgmtChange) : List MgmtChange :=
  l.filter (fun m => m.bit != 1) ++ l.filter fun m => m.bit == 1

/-- R140: the entry of the calibration log for a step. -/
def State.calLogWrite (s : State) (second : U48) (l : List MgmtChange) : State :=
  let kinds := l.foldl (fun k m => k ||| (1#8 <<< m.bit)) s.cal.logExtra
  let mask := l.foldl (fun k m => match m.channel with
    | some c => setBit k c true
    | none => k) s.cal.logExtraMask
  if kinds = 0 then s
  else
    let run := if kinds.getLsbD 2 then (s.cal.run.map (·.journal)).getD 0xFFFF else 0xFFFF
    s.modCal fun k =>
      { k with log := aset k.log k.logNext { vtSecond := second, generation := s.jr.generation, kind := kinds
                                             runJournal := BitVec.ofNat 16 run, mask }
               logNext := (k.logNext + 1) % 4096, logExtra := 0, logExtraMask := 0 }

/-- R139: EV_CAL_APPLIED, once per channel, with the kind bits of the step's log entry. -/
def State.calAppliedEvents (s : State) (l : List MgmtChange) : List (Nat × Bytes) :=
  let kinds := l.foldl (fun k m => k ||| (1#8 <<< m.bit)) s.cal.logExtra
  ((l.filterMap fun m => if m.bit = 0 ∨ m.bit = 2 then m.channel else none).dedup).map fun c => (chanEvent c 4, [kinds])

/-! ## Commands -/

/-- R124. -/
def sliceSubstituteCmd : Cmd :=
  { kind := .staged, steward := true
    check := fun f s => do
      let p := f.payload
      layout p 4 [(0, inRange 0 (p8 p 0) 127), (1, inRange 0 (p8 p 1) 8), (2, inRange 0 (p8 p 2) 1), (3, zeroAt p 3 1)
        , (1, s.substituteOk p)]
      require (!(p8 p 2 == 1 && s.power.opState != .maintenance)) (refuse .notOwnerState)
    apply := fun f s =>
      let p := f.payload
      if p8 p 2 = 0 then
        .ok ((s.applySubstitute (p8 p 0) (Fin.ofNat 9 (p8 p 1))).modCal fun k =>
          { k with logExtra := k.logExtra ||| 8, logExtraMask := setBit k.logExtraMask (p8 p 0) true })
      else if s.power.opState != .maintenance then .error .notOwnerState
      else if (s.chan (p8 p 0)).sliceTested then .ok (s.restoreSlice (p8 p 0))
      else .error .degraded
    keys := fun p => [p8 p 0] }

/-- R153. -/
def calConfigCmd : Cmd :=
  { kind := .staged, steward := true
    check := fun f _ =>
      let p := f.payload
      layout p 12 [(0, inRange 10 (p16 p 0) 1000), (2, inRange 0 (p8 p 2) 1), (3, inRange 0 (p8 p 3) 80), (4, inRange 16 (p16 p 4) 1024)
        , (6, inRange 4 (p8 p 6) 60), (7, zeroAt p 7 1), (8, inRange 10 (p16 p 8) 3600), (10, zeroAt p 10 2)]
    apply := fun f s =>
      let p := f.payload
      .ok (s.modCal fun k => { k with cfg := { k.cfg with deltaT := p16 p 0, autoRun := p8 p 2, qMin := p8 p 3, ensWindow := p16 p 4
                                                          runWindow := p8 p 6, awnCheckInterval := p16 p 8 } })
    keys := fun _ => [0] }

/-- R137, R154: background and dither of a channel; estimators that stop or start begin anew. -/
def State.setCalChannel (s : State) (c : Nat) (background dither : Bool) : State :=
  let before := (s.chan c).dither
  let s := s.modChan c fun x =>
    { (if x.background = background then x else (x.newWindow s.clock).newPair s.clock) with background, dither }
  if before = dither then s else s.logDither c

def calChannelConfigCmd : Cmd :=
  { kind := .staged, rights := mayOwn
    check := fun f _ =>
      let p := f.payload
      layout p 20 [(0, !zeroAt p 0 16), (16, inRange 0 (p8 p 16) 1), (17, inRange 0 (p8 p 17) 1), (18, zeroAt p 18 2)]
    apply := fun f s => do
      channelsReady f s
      .ok (s.each (maskChannels f.payload) fun s c => s.setCalChannel c (p8 f.payload 16 == 1) (p8 f.payload 17 == 1))
    keys := maskChannels
    without := clearMask 16 }

/-- The newest journal entry of a command. -/
def State.entryOf (s : State) (tenant : Nat) (seq : U32) (opcode : Nat) : Option Nat :=
  (s.jr.entries.find? fun e => e.2.tenant == ten tenant && e.2.seq == seq && e.2.opcode == BitVec.ofNat 16 opcode).map (·.1)

/-- R155. -/
def calRunCmd : Cmd :=
  { kind := .staged, steward := true
    check := fun f _ => layout f.payload 16 [(0, !zeroAt f.payload 0 16)]
    run := fun f s =>
      match s.newEntry { s.pendingEntry f.tenant.val f.seq 0x0403 s.time.vtSec with
          total := BitVec.ofNat 32 (s.enabledIn (maskAt 128 f.payload 0 16)).length } with
      | some (j, s) => .ok ({ journal := some j }, s)
      | none => .error (refuse .exhausted)
    apply := fun f s =>
      if s.cal.run.isSome then .error .busy
      else
        let start := max s.time.vtSec.toNat s.runEarliest
        .ok (s.modCal fun k =>
          { k with run := some { start := BitVec.ofNat 48 start, mask := maskAt 128 f.payload 0 16
                                 journal := (s.entryOf f.tenant.val f.seq 0x0403).getD 0 } })
    keys := fun _ => [0] }

/-- R151, R156. A channel whose rotation is paused still has its spare in rotation; the last completed calibration of R108 is the last
accepted skew and bandwidth estimate (DESIGN CHOICE, log entries 55 and 56). -/
def State.calStatus (s : State) (c : Nat) : Bytes :=
  let x := s.chan c
  let state := if !s.estimating c then 0 else if x.reasons = 0 then 1 else 2
  let near (d : Nat) : Bool := x.lastAcceptVt != 0 && decide ((s.cal.tFilt - x.lastAcceptTemp).natAbs ≤ d)
  let base := x.spare.isSome && !s.setFallback c
  let fig100 := base && near 50
  let fig250 := !fig100 && (base || x.spare.isNone) && near 300
  let flags := boolNat x.ditherActive + 2 * boolNat (s.inRun c) + 4 * boolNat x.pairValid + 8 * boolNat (s.setFallback c)
    + 16 * boolNat fig100 + 32 * boolNat fig250
  let q (v : Quality) : Bytes := [v.o, v.g, v.tau, v.beta]
  w8 c ++ w8 state ++ [x.reasons] ++ w8 flags ++ q x.qEnsemble ++ q x.qPair ++ w64 x.lastAcceptVt.toNat
    ++ leInt 2 x.lastAcceptTemp ++ leInt 2 s.cal.tFilt ++ leInt 2 s.cal.tRef ++ w16 0 ++ w32 x.awnWorstFs.toNat
    ++ w32 x.awnChecks.toNat ++ w32 x.windowsWithheld.toNat ++ zeros 8

def calStatusGetCmd : Cmd :=
  { kind := .readback, rights := channelRights, check := channelCheck
    run := fun f s => answer (s.calStatus (p8 f.payload 0)) s }

def termBytes (t : Terms) : Bytes := leInt 2 t.o ++ leInt 2 t.g ++ leInt 2 t.tau ++ leInt 2 t.beta

/-- R141: the 108 bytes of a set; one that fails its check has its check word inverted (log entry 25). -/
def State.setBytes (s : State) (c k : Nat) : Bytes :=
  let x := s.calSet c k
  let b := w8 c ++ w8 k ++ leInt 2 (setTemp k) ++ w8 1 ++ w8 x.source ++ w16 0 ++ w32 x.updates.toNat ++ w32 0
    ++ w64 x.updatedVt.toNat ++ termBytes { o := x.common.1, g := x.common.2 } ++ (x.slices.map termBytes).flatten
  b ++ w32 (if s.setOk c k then crc32c b else ~~~ (crc32c b)).toNat

/-- R157. -/
def calSetGetCmd : Cmd :=
  { kind := .readback, rights := channelRights, check := channelCheck
    run := fun f s => answer ((List.range 5).map (s.setBytes (p8 f.payload 0))).flatten s }

def CalLogEntry.bytes (e : CalLogEntry) : Bytes :=
  w64 e.vtSecond.toNat ++ w32 e.generation.toNat ++ [e.kind] ++ w8 0 ++ w16 e.runJournal.toNat ++ leBytes 16 e.mask.toNat

/-- A page of a log kept as a ring: its oldest index, from where entries are read in ring order. -/
def oldestIndex (log : Assoc α) (next size : Nat) : Nat := if log.length < size then 0 else next

/-- The entries from an index in ring order, at most `n`, up to the next to be written. -/
def logPage (log : Assoc α) (next size start : Nat) : Nat → List α
  | 0 => []
  | n + 1 =>
    match aget log start with
    | some e => e :: (if (start + 1) % size = next then [] else logPage log next size ((start + 1) % size) n)
    | none => []

/-- R158. -/
def calLogGetCmd : Cmd :=
  { kind := .readback
    check := fun f s =>
      layout f.payload 4 [(0, inRange 0 (p16 f.payload 0) 4095 && (aget s.cal.log (p16 f.payload 0)).isSome)
        , (2, inRange 1 (p16 f.payload 2) 64)]
    run := fun f s =>
      answer (w16 (oldestIndex s.cal.log s.cal.logNext 4096) ++ w16 s.cal.logNext ++ zeros 4
        ++ ((logPage s.cal.log s.cal.logNext 4096 (p16 f.payload 0) (p16 f.payload 2)).map CalLogEntry.bytes).flatten) s }

end Sys2Proof.Machine
end

