-- ==== Sys2Proof/Machine/Rachis.lean ====
section
/-! DEFINITION. The Rachis bus (R179 to R192): bursts, messages, link delay, the follower's time, quench, and the commands
of chapter 05. -/

namespace Sys2Proof.Machine

/-! ## Ports (R179, R182, R192, R201) -/

/-- R179, R201, R582: whether a port takes part at all. -/
def State.portLive (s : State) (p : Nat) : Bool :=
  s.rachis.cfg.role != 0 && s.rachis.cfg.portEnable.getLsbD p && !(s.rport p).isolated && !s.looped 10 p

/-- R192: the outgoing fast-level lines follow the quench and the incoming lines. -/
def State.refreshFast (s : State) : State :=
  s.each (List.range 4) fun s p =>
    let asks := s.rachis.ownQuench || (List.range 4).any fun q => q != p && (s.rport q).fastIn && (s.rport q).state == .up
    s.modRport p fun x => { x with fastOut := x.state == .up && s.rachis.cfg.quenchForward && asks }

/-- R192, R443: a change of what asserts the Rachis quench: the assertion quenches, the lines follow. -/
def State.rachisQuenchChange (before : Bool) (s : State) : State :=
  let s := s.refreshFast
  if !before && s.rachisQuench then s.quenchAssert else s

/-- R180: the upstream port: the one configured, or the up port with fewest hops, the lowest-numbered on a tie. -/
def State.chooseUpstream (s : State) : Option (Fin 4) :=
  if s.rachis.cfg.role ≠ 2 then none
  else if s.rachis.cfg.upstream < 4 then some (Fin.ofNat 4 s.rachis.cfg.upstream)
  else
    let c := s.upPorts.filter fun p => (s.rport p).hops != 0
    (c.foldl (fun best p =>
      match best with
      | none => some p
      | some b => if (s.rport p).hops < (s.rport b).hops then some p else some b) none).map (Fin.ofNat 4)

/-- R202: the other modules reached through ports that are up. -/
def State.members (s : State) : U32 :=
  setBit (s.upPorts.foldl (fun m p => m ||| (s.rport p).reach) (0 : U32)) s.rachis.modId.toNat false

/-- R182, R183: a link goes down; a follower that loses its upstream link loses its reference and enters holdover by R56. -/
def State.linkDown (s : State) (p : Nat) : State :=
  let was := (s.rport p).state
  let quench := s.rachisQuench
  let up := s.rachis.upstream == some (Fin.ofNat 4 p) && was == .up
  let s := s.modRport p fun x =>
    { x with state := .down, delays := [], badExchanges := 0, t1 := none, heldA := none, hops := 0, reach := 0, heardPeer := false }
  let s := s.modRachis fun r => { r with upstream := s.chooseUpstream }
  let s := s.rachisQuenchChange quench
  if up && s.rachis.cfg.role == 2 then
    ((s.raise 0x521 (w8 p ++ w8 0)).modTime fun t => { t with masterTsb := none }).loseRef 1
  else s

/-- R182: signal or comma alignment is lost. -/
def execCommaAlignmentLoss (t : Nat) (port : Fin 4) (s : State) : Host.Outcome State Fault Refusal :=
  .next (State.settle s ((s.advance t).linkDown port.val))

/-- R192: an incoming fast-level line changes. -/
def effectRachisFastLevelChange (port : Fin 4) (level : Bool) (s : State) : State :=
  let before := s.rachisQuench
  (s.modRport port.val fun x => { x with fastIn := level }).rachisQuenchChange before

def execRachisFastLevelChange (t : Nat) (port : Fin 4) (level : Bool) (s : State) : Host.Outcome State Fault Refusal :=
  .next (State.settle s (effectRachisFastLevelChange port level (s.advance t)))

/-! ## Bursts (R185, R186) -/

/-- R186: a half message of burst A (0) or B (1) is discarded. -/
def State.discardHalf (s : State) (p burst : Nat) : State :=
  (s.modRport p fun x => { x with halfCount := x.halfCount + 1 }).raise 0x522 (w8 p ++ w8 burst)

/-- R186: burst A is held; one held before is discarded. -/
def effectBurstAReceive (port : Fin 4) (a : BurstA) (s : State) : State :=
  if !s.portLive port.val then s
  else
    let s := if (s.rport port.val).heldA.isSome then s.discardHalf port.val 0 else s
    s.modRport port.val fun x => { x with heldA := some a }

def execBurstAReceive (t : Nat) (port : Fin 4) (a : BurstA) (s : State) : Host.Outcome State Fault Refusal :=
  .next (State.settle s (effectBurstAReceive port a (s.advance t)))

/-- R186: no burst B came in time. -/
def effectBurstATimeout (port : Fin 4) (s : State) : State :=
  if (s.rport port.val).heldA.isSome then
    (s.modRport port.val fun x => { x with heldA := none }).discardHalf port.val 0
  else s

def execBurstATimeout (t : Nat) (port : Fin 4) (s : State) : Host.Outcome State Fault Refusal :=
  .next (State.settle s (effectBurstATimeout port (s.advance t)))

/-- R186: a burst B without its burst A. -/
def effectBurstBReceive (port : Fin 4) (pair : Bool) (s : State) : State :=
  let mismatch : Bool := match (s.rport port.val).heldA with
    | none => true
    | some a => a.pair != pair
  if s.portLive port.val && mismatch then s.discardHalf port.val 1 else s

def execBurstBReceive (t : Nat) (port : Fin 4) (pair : Bool) (s : State) : Host.Outcome State Fault Refusal :=
  .next (State.settle s (effectBurstBReceive port pair (s.advance t)))

/-- R186: both bursts of a message: whether it is whole, with the discards and counts of one that is not. -/
def State.takeWhole (s : State) (p : Nat) (m : RachisMsg) : Bool × State :=
  if !s.portLive p then (false, s)
  else
    let held := (s.rport p).heldA
    let s := if held.isSome && held != some m.a then s.discardHalf p 0 else s
    if m.pairB ≠ m.a.pair then (false, (s.modRport p fun x => { x with heldA := some m.a }).discardHalf p 1)
    else
      let s := s.modRport p fun x => { x with heldA := none }
      if m.crc ≠ msgCheck m ∨ m.a.type = 0 ∨ 10 ≤ m.a.type.toNat then
        (false, (s.modRport p fun x => { x with crcErrors := x.crcErrors + 1 }).raise 0x523 (w8 p))
      else (true, s)

/-- R179: hops to the master by a port; a number not heard yet counts as more than any. -/
def RachisPort.hopsOr (x : RachisPort) : Nat := if x.hops = 0 then 8 else x.hops

/-- R179: a module is seen at a port that another port reaches as well: the port with fewer hops, or the lower number, is kept, the other
stands by. Whether the port it is seen at is kept. A follower that has heard the hops of only one of the two waits for the other's time message. -/
def State.breakLoop (s : State) (p : Nat) (n : BitVec 5) : Bool × State :=
  let other := (List.range 4).find? fun q => q != p && ((s.rport q).state == .up || (s.rport q).state == .training)
    && ((s.rport q).peer == n && (s.rport q).heardPeer || (s.rport q).reach.getLsbD n.toNat)
  match other with
  | some q =>
    let a := (s.rport q).hopsOr
    let b := (s.rport p).hopsOr
    if s.rachis.cfg.role = 2 ∧ ((a = 8) ≠ (b = 8)) then (true, s)
    else if a < b ∨ a = b ∧ q < p then (false, (s.linkDown p).modRport p fun x => { x with state := .standby })
    else (true, (s.linkDown q).modRport q fun x => { x with state := .standby })
  | none => (true, s)

/-- R179: a message of an up port tells of a module reached, a time message also of the hops to the master; one of this module itself has come
round. -/
def State.takeOn (s : State) (p : Nat) (m : RachisMsg) (type : BitVec 4) : Bool × State :=
  let (ok, s) := s.takeWhole p m
  if ok && m.a.type == type && (s.rport p).state == .up && m.a.origin != s.rachis.modId then
    let s := if type = 9 then s.modRport p fun x => { x with hops := m.a.hops.toNat + 1 } else s
    let (keep, s) := s.breakLoop p m.a.origin
    (keep, if keep then s.modRport p fun x => { x with reach := setBit x.reach m.a.origin.toNat true } else s)
  else (false, s)

/-! ## Trigger and sync messages (R187 to R189) -/

/-- R188: the descriptor a receiving route forms. -/
def remoteDescriptor (m : RachisMsg) : Descriptor :=
  { sourceKind := 5, sourceIndex := m.a.route.toNat, flags := m.flags ||| 4, triggerId := m.a.id, origin := m.a.origin
    tsb := m.tsb, tag := ⟨m.a.sec, m.frac⟩ }

/-- R188: what a receiver has heard of an origin's route: the last trigger_id and the messages missed before it. -/
def Rachis.hear (r : Rachis) (m : RachisMsg) : Rachis :=
  let k := m.a.origin.toNat * 32 + m.a.route.toNat
  let gap : U32 := match aget r.heard k with
    | some (id, n) => n + (m.a.id - id - 1).setWidth 32
    | none => 0
  { r with heard := aset r.heard k (m.a.id, gap) }

/-- R187, R188: a trigger message fires the routes that take its origin, and is forwarded. -/
def effectTriggerMessage (port : Fin 4) (m : RachisMsg) (s : State) : State :=
  let (ok, s) := s.takeOn port.val m 1
  if !ok then s
  else
    let s := (s.forward port.val m).modRachis fun r => r.hear m
    let d := remoteDescriptor m
    let rs := (List.range 32).filter fun r =>
      let c := (s.routeN r).cfgAt d.tag
      c.sourceKind == 5 && (c.sourceIndex == m.a.origin.toNat || c.sourceIndex == 255)
    s.each rs fun s r => s.offer r d

def execTriggerMessage (t : Nat) (port : Fin 4) (m : RachisMsg) (s : State) : Host.Outcome State Fault Refusal :=
  .next (State.settle s (effectTriggerMessage port m (s.advance t)))

/-- R189, R553: a sync instant is taken, unless it lies less than 1 µs ahead; the probes that enable it are gated from then on. -/
def insertInstant (v : Vt96) : List Vt96 → List Vt96
  | [] => [v]
  | x :: l => if vtLt v x then v :: x :: l else x :: insertInstant v l

/-- R189: an instant lies at least 1 µs ahead. -/
def State.microAhead (s : State) (v : Vt96) : Bool := atLeastNs (vtSub v s.now) 1000

def effectSyncMessage (port : Fin 4) (m : RachisMsg) (s : State) : State :=
  let (ok, s) := s.takeOn port.val m 2
  if !ok then s
  else
    let s := s.forward port.val m
    let v : Vt96 := ⟨m.a.sec, m.frac⟩
    if s.microAhead v then
      (s.modRachis fun r => { r with syncs := insertInstant v r.syncs }).each (List.range 8) fun s k =>
        if (s.probe k).cfg.syncEnable.getLsbD 1 then s.gateProbe k 3 else s
    else s.raise 0x525 (w8 2 ++ w8 m.a.origin.toNat ++ w16 m.a.id.toNat)

def execSyncMessage (t : Nat) (port : Fin 4) (m : RachisMsg) (s : State) : Host.Outcome State Fault Refusal :=
  .next (State.settle s (effectSyncMessage port m (s.advance t)))

/-! ## Domain commit messages (R190, R191) -/

/-- The domain commit a message names. -/
def DomainCommit.named (d : DomainCommit) (m : RachisMsg) : Bool := d.tenant == ten m.a.id.toNat && d.second == m.a.sec

def State.modDomain (s : State) (m : RachisMsg) (f : DomainCommit → DomainCommit) : State :=
  s.modRachis fun r => { r with domains := r.domains.map fun d => if d.named m then f d else d }

/-- R191: a loss report goes upstream, at once or when a link to the master comes up. -/
def State.reportLoss (s : State) (x : LossReport) : State :=
  match s.rachis.upstream with
  | some p =>
    if (s.rport p.val).state = .up then s.modRport p.val fun y => { y with lossTx := lastN 64 (y.lossTx ++ [x]) }
    else s.modRachis fun r => { r with lossHeld := lastN 64 (r.lossHeld ++ [x]) }
  | none => s.modRachis fun r => { r with lossHeld := lastN 64 (r.lossHeld ++ [x]) }

/-- R191: the reports that waited go once a link is up. -/
def State.sendLosses (s : State) : State :=
  let l := s.rachis.lossHeld
  (s.modRachis fun r => { r with lossHeld := [] }).each l State.reportLoss

/-- R190: a vote reaches the master, or is passed on upstream. -/
def State.takeVote (s : State) (p : Nat) (m : RachisMsg) (f : DomainCommit → DomainCommit) : State :=
  if s.rachis.cfg.role = 1 then s.modDomain m f
  else if m.a.hops = 7 ∨ s.rachis.upstream = some (Fin.ofNat 4 p) then s
  else s.sendUpstream { m with a := { m.a with hops := m.a.hops + 1 } }

def effectCommitReady (port : Fin 4) (m : RachisMsg) (s : State) : State :=
  let (ok, s) := s.takeOn port.val m 3
  if ok then s.takeVote port.val m fun d => { d with ready := setBit d.ready m.a.origin.toNat true } else s

def execCommitReady (t : Nat) (port : Fin 4) (m : RachisMsg) (s : State) : Host.Outcome State Fault Refusal :=
  .next (State.settle s (effectCommitReady port m (s.advance t)))

def effectCommitRefuse (port : Fin 4) (m : RachisMsg) (s : State) : State :=
  let (ok, s) := s.takeOn port.val m 4
  if ok then s.takeVote port.val m fun d => { d with refused := true } else s

def execCommitRefuse (t : Nat) (port : Fin 4) (m : RachisMsg) (s : State) : Host.Outcome State Fault Refusal :=
  .next (State.settle s (effectCommitRefuse port m (s.advance t)))

/-- R190: the master's decision reaches a member and is passed on away from the master. -/
def State.takeDecision (s : State) (p : Nat) (m : RachisMsg) (go : Bool) : State :=
  (s.modDomain m fun d => { d with received := some go }).forward p m

def effectCommitGo (port : Fin 4) (m : RachisMsg) (s : State) : State :=
  let (ok, s) := s.takeOn port.val m 5
  if ok && s.rachis.cfg.role == 2 then s.takeDecision port.val m true else s

def execCommitGo (t : Nat) (port : Fin 4) (m : RachisMsg) (s : State) : Host.Outcome State Fault Refusal :=
  .next (State.settle s (effectCommitGo port m (s.advance t)))

def effectCommitAbort (port : Fin 4) (m : RachisMsg) (s : State) : State :=
  let (ok, s) := s.takeOn port.val m 6
  if ok && s.rachis.cfg.role == 2 then s.takeDecision port.val m false else s

def execCommitAbort (t : Nat) (port : Fin 4) (m : RachisMsg) (s : State) : Host.Outcome State Fault Refusal :=
  .next (State.settle s (effectCommitAbort port m (s.advance t)))

/-- R191: a report arrives: a module on the way passes it on upstream; the master raises the split, the entry's time being S. -/
def effectCommitLossReport (port : Fin 4) (tenant : Fin 256) (second : U48) (member : Fin 32) (s : State) : State :=
  if s.rachis.cfg.role ≠ 1 then (if (s.rport port.val).state = .up ∧ s.rachis.upstream ≠ some port then s.reportLoss { tenant, second, member } else s)
  else
    let s := s.modRachis fun r => { r with domains := r.domains.map fun d =>
      if d.tenant = tenant ∧ d.second = second then { d with lost := setBit d.lost member.val true } else d }
    let mask := match s.rachis.domains.find? fun d => d.tenant == tenant && d.second == second with
      | some d => d.lost
      | none => setBit (0 : U32) member.val true
    s.raiseAt (vtSecond second) 0x529 (w8 tenant.val ++ zeros 3 ++ w32 mask.toNat)

def execCommitLossReport (t : Nat) (port : Fin 4) (tenant : Fin 256) (second : U48) (member : Fin 32) (s : State) :
    Host.Outcome State Fault Refusal :=
  .next (State.settle s (effectCommitLossReport port tenant second member (s.advance t)))

/-! ## Link delay (R183) -/

/-- R179: what the peer's module ID says of a link: a conflict, or a module already reached through another port. -/
def State.meetPeer (s : State) (p : Nat) (peer : BitVec 5) : Bool × State :=
  let x := s.rport p
  if peer = s.rachis.modId then
    if x.state = .idConflict then (false, s)
    else
      (false, ((s.linkDown p).modRport p fun x => { x with state := .idConflict, peer }).raise 0x526 (w8 p ++ w8 peer.toNat))
  else
    let s := s.modRport p fun x => { x with peer, heardPeer := true }
    if x.state = .standby then (false, s) else s.breakLoop p peer

/-- R183: a port that hears or calls its peer begins to train. -/
def State.beginTraining (s : State) (p : Nat) : State :=
  s.modRport p fun x => if x.state = .down then { x with state := .training } else x

/-- Ports that exchange delay messages. -/
def State.exchanges (s : State) (p : Nat) : Bool := (s.rport p).state == .training || (s.rport p).state == .up

/-- R572: at depth 3 a port's own request comes back: the time from its comma's launch to its arrival, this port's delays taken out of both. -/
def State.takeLoop (s : State) (p : Nat) (m : RachisMsg) (t2 : Vt96) : State :=
  match (s.rport p).t1, decide (m.a.type = 7 ∧ m.crc = msgCheck m ∧ m.pairB = m.a.pair) with
  | some t1, true => s.modRport p fun x =>
      { x with t1 := none, loopFs := some (vtSub t2 t1 * 1000000000000000 / 2 ^ 48 - (Config.rachisDelay p true).toNat) }
  | _, _ => s

/-- R183: the peer's request is answered with t3, and with t2 in the next response; this port's delays are taken out of both. -/
def effectDelayRequest (port : Fin 4) (m : RachisMsg) (t2 : Vt96) (s : State) : State :=
  let p := port.val
  let (ok, s) := s.takeWhole p m
  if s.loopDepth 10 p = 3 then s.takeLoop p m t2
  else if !ok || m.a.type != 7 then s
  else
    let (keep, s) := (s.beginTraining p).meetPeer p m.a.origin
    if keep && s.exchanges p then
      let t3 := vtAdd (s.launchAt p) (unitsOfFs (Config.rachisDelay p false).toNat)
      (s.sendMsg p (s.newMsg 8 0 t3 0 0 0)).sendMsg p (s.newMsg 8 0 (vtAdd t2 (-(unitsOfFs (Config.rachisDelay p true).toNat))) 0 0 0)
    else s

def execDelayRequest (t : Nat) (port : Fin 4) (m : RachisMsg) (t2 : Vt96) (s : State) : Host.Outcome State Fault Refusal :=
  .next (State.settle s (effectDelayRequest port m t2 (s.advance t)))

/-- R183: every 1 ms a request with t1 leaves, if there is room for it; at depth 3 the port sends it to itself (R572). -/
def effectDelayExchangeTimer (port : Fin 4) (s : State) : State :=
  let p := port.val
  let loop := s.loopDepth 10 p = 3
  if !s.portLive p && !loop then s
  else
    let s := if loop then s else s.beginTraining p
    if loop || s.exchanges p then
      let t1 := vtAdd (s.launchAt p) (unitsOfFs (Config.rachisDelay p false).toNat)
      let room := decide ((s.rport p).queued s.clock < 64)
      (s.sendMsg p (s.newMsg 7 0 t1 0 0 0)).modRport p fun x => { x with t1 := if room then some t1 else none }
    else s

def execDelayExchangeTimer (t : Nat) (port : Fin 4) (s : State) : Host.Outcome State Fault Refusal :=
  .next (State.settle s (effectDelayExchangeTimer port (s.advance t)))

/-- Femtoseconds of units of 2⁻⁴⁸ s. -/
def fsOfUnits (u : Int) : Int := u * 1000000000000000 / 2 ^ 48

/-- R183: the delay of one exchange, fs. -/
def exchangeDelay (t1 t2 t3 t4 : Vt96) (asym : Int) : Int := fsOfUnits (vtSub t2 t1 + vtSub t4 t3) / 2 - asym / 2

def meanOf (l : List Int) : Int := l.sum / (max l.length 1 : Nat)

/-- Whether delays agree within ±50 ps. -/
def delaysAgree (l : List Int) : Bool :=
  match l with
  | [] => false
  | x :: r => decide (r.foldl max x - r.foldl min x ≤ 100000)

/-- R183: a measured delay at a port. -/
def State.takeDelay (s : State) (p : Nat) (d : Int) : State :=
  let x := s.rport p
  match x.state with
  | .training =>
    let l := lastN 64 (x.delays ++ [d])
    if l.length = 64 ∧ delaysAgree l then
      let s := s.modRport p fun x => { x with state := .up, delays := l, delayFs := meanOf l, badExchanges := 0 }
      let s := s.modRport p fun x => { x with reach := setBit x.reach x.peer.toNat true }
      (s.modRachis fun r => { r with upstream := s.chooseUpstream }).refreshFast.sendLosses
    else s.modRport p fun x => { x with delays := l }
  | .up =>
    if 1000000 < (d - x.delayFs).natAbs then
      if 15 ≤ x.badExchanges then s.linkDown p
      else s.modRport p fun x => { x with badExchanges := x.badExchanges + 1 }
    else
      let l := lastN 1000 (x.delays ++ [d])
      s.modRport p fun x => { x with delays := l, delayFs := meanOf l, badExchanges := 0 }
  | _ => s

/-- R183: a response closes an exchange; the receive delay is taken out of t4. -/
def effectDelayResponse (port : Fin 4) (m : RachisMsg) (t2 t4 : Vt96) (s : State) : State :=
  let p := port.val
  let (ok, s) := s.takeWhole p m
  if !ok || m.a.type != 8 then s
  else
    let (keep, s) := (s.beginTraining p).meetPeer p m.a.origin
    match keep, (s.rport p).t1 with
    | true, some t1 =>
      let quench := s.rachisQuench
      let d := exchangeDelay t1 t2 ⟨m.a.sec, m.frac⟩ (vtAdd t4 (-(unitsOfFs (Config.rachisDelay p true).toNat))) ((s.rachis.cfg.asym[p]?).getD 0)
      ((s.modRport p fun x => { x with t1 := none }).takeDelay p d).rachisQuenchChange quench
    | _, _ => s

def execDelayResponse (t : Nat) (port : Fin 4) (m : RachisMsg) (t2 t4 : Vt96) (s : State) :
    Host.Outcome State Fault Refusal :=
  .next (State.settle s (effectDelayResponse port m t2 t4 (s.advance t)))

/-! ## Time messages (R181) -/

/-- R180 to R182: a follower takes the master's time: the offset is used as PPS_OFFSET is; at start-up it steps and takes the label; later
another label is asked for at the next second, as IRIG IN asks for one (DEDUCED, log entry 60), and second boundaries slew. -/
def State.followTime (s : State) (p : Nat) (m : RachisMsg) (arrival : Vt96) : State :=
  let off := boundaryOffset (vtOfNat ((vtSub arrival ⟨m.a.sec, m.frac⟩ - unitsOfFs (s.rport p).delayFs).emod (2 ^ 48)).toNat)
  let s := s.modRachis fun r => { r with offsetFs := BitVec.ofInt 64 (fsOfUnits off), masterId := some m.a.origin }
  let s := s.modTime fun t => { t with masterTsb := some m.tsb }
  if s.time.aligning then
    let s := s.modTime fun t => { t with vtSec := t.vtSec + (m.a.sec - (nearestSecond arrival)), labelSource := 1, aligning := false }
    (s.stepPhase off).modTime fun t => { t with phaseSource := 1, ppsAligned := true, ppsAlignBad := 0 }
  else
    let delta : Int := (m.a.sec.toNat : Int) - (nearestSecond (vtAdd arrival (-(unitsOfFs (s.rport p).delayFs)))).toNat
    (s.modTime fun t => { t with ppsOffset := BitVec.ofInt 64 off, slewAfter := t.slewAfter.map (· + 1), irigDelta := delta
                                 irigRequest := delta != 0 }).judgeAlignment off

/-- R179, R181: a time message: a follower on its upstream port takes it and passes it on with its own launch instant; a
master that hears another master stands the link by. -/
def effectTimeMessage (port : Fin 4) (m : RachisMsg) (arrival : Vt96) (s : State) : State :=
  let p := port.val
  let (ok, s) := s.takeOn p m 9
  if !ok then s
  else if s.rachis.cfg.role = 1 then
    ((s.linkDown p).modRport p fun x => { x with state := .standby }).raise 0x527 (w8 p ++ w8 m.a.origin.toNat)
  else
    let s := (s.modRachis fun r => { r with upstream := s.chooseUpstream }).sendLosses
    if s.rachis.upstream = some port then
      let s := s.followTime p m arrival
      if m.a.hops = 7 then s
      else s.each (s.upPorts.filter (· != p)) fun s q =>
        let v := s.launchAt q
        s.sendMsg q { m with a := { m.a with hops := m.a.hops + 1, sec := v.sec }, frac := v.frac } (some p)
    else s

def execTimeMessage (t : Nat) (port : Fin 4) (m : RachisMsg) (arrival : Vt96) (s : State) :
    Host.Outcome State Fault Refusal :=
  .next (State.settle s (effectTimeMessage port m arrival (s.advance t)))

/-- R181: at a VT second boundary the master sends its time on every up port, with the instant at which the message leaves it. -/
def State.sendTime (s : State) : State :=
  if s.rachis.cfg.role = 1 then s.each s.upPorts fun s p => s.sendMsg p (s.newMsg 9 0 (s.launchAt p) 0 0 s.time.tsb) else s

/-! ## Commands (R193 to R203) -/

/-- Rights of an owner of every route of a mask at the head of the payload. -/
def ownsRoutes (f : Frame) (s : State) : Bool :=
  (bitsOf (maskAt 32 f.payload 0 4)).all fun r => s.routeOwner r == f.tenant.val

/-- R194: the settings in a payload. -/
def routeOf (p : Bytes) : RouteCfg :=
  { sourceKind := p8 p 1, sourceIndex := p8 p 2, slope := p8 p 3, holdoffMode := p8 p 4, singleShot := p8 p 5 == 1
    enable := p8 p 6 == 1, levelA := s16 p 8, levelB := s16 p 10, hysteresis := p16 p 12, holdoff := p64 p 16
    schedTime := vtAt p 24, schedPeriod := p64 p 36, schedCount := p32 p 44 }

/-- R194: the index range of a source kind. -/
def sourceIndexOk (kind index : Nat) : Bool :=
  if kind ≤ 3 then decide (index < 128)
  else if kind = 4 ∨ kind = 8 then decide (index < 4)
  else if kind = 5 then decide (index < 32) || index == 255
  else index == 0

/-- R194: the fields of TRIGGER_ROUTE_CONFIG in ascending offset; those that do not apply to the kind are 0. So is the hold-off with
holdoff_mode 0 (DESIGN CHOICE, log entry 241). -/
def routeFields (p : Bytes) (s : State) : List (Nat × Bool) :=
  let k := p8 p 1
  [(0, decide (p8 p 0 < 32)), (1, decide (k ≤ 8) && !(k == 8 && s.power.opState == .service)), (2, sourceIndexOk k (p8 p 2))
  , (3, if k ≤ 4 then decide (p8 p 3 ≤ 2) else p8 p 3 == 0), (4, decide (p8 p 4 ≤ 2)), (5, decide (p8 p 5 ≤ 1))
  , (6, decide (p8 p 6 ≤ 1)), (7, zeroAt p 7 1)
  , (8, if k = 3 then inRangeI 1 (s16 p 8) 4095 else if isDigital k then inRangeI (-2048) (s16 p 8) 2047 else s16 p 8 == 0)
  , (10, if k = 3 then inRangeI 1 (s16 p 10) 64
         else if k = 2 then inRangeI (-2048) (s16 p 10) 2047 && decide (s16 p 8 ≤ s16 p 10) else s16 p 10 == 0)
  , (12, if k = 1 ∨ k = 2 then decide (p16 p 12 ≤ 255) && (k == 1 || p16 p 12 == 0) else p16 p 12 == 0), (14, zeroAt p 14 2)
  , (16, if p8 p 4 = 1 then inRange 1 (p64 p 16) (2 ^ 40) else if p8 p 4 = 2 then inRange 1 (p64 p 16) (2 ^ 32 - 1)
         else p64 p 16 == 0)
  , (24, k == 6 || zeroAt p 24 12), (36, if k = 6 then decide (p64 p 36 < 2 ^ 48) else p64 p 36 == 0)
  , (44, k == 6 || p32 p 44 == 0)]

/-- R38, R172: a commit sets a route; the records of the channels it triggers end. -/
def State.commitRoute (s : State) (r : Nat) (cfg : RouteCfg) : State :=
  let old := (s.routeN r).cfg
  let moved := old.sourceKind != cfg.sourceKind || old.sourceIndex != cfg.sourceIndex
  let s := s.setRoute r cfg
  if moved then
    s.each ((List.range 128).filter fun c => (s.chan c).capture.routeMask.getLsbD r) State.definingChange
  else s

/-- R194. -/
def triggerRouteConfigCmd : Cmd :=
  { kind := .staged
    rights := fun f s => match ownerOf (p8 f.payload 0) 32 s.routeOwner with
      | some o => o == f.tenant.val
      | none => true
    check := fun f s => layout f.payload 48 (routeFields f.payload s)
    apply := fun f s =>
      if s.routeOwner (p8 f.payload 0) ≠ f.tenant.val then .error .notOwnerState
      else .ok (s.commitRoute (p8 f.payload 0) (routeOf f.payload))
    keys := fun p => [p8 p 0] }

/-- R195. -/
def armTriggerCmd : Cmd :=
  { kind := .schedulable, rights := ownsRoutes
    check := fun f _ => layout f.payload 8 [(4, decide (p8 f.payload 4 ≤ 1)), (5, zeroAt f.payload 5 3)]
    run := fun f s => .ok ({}, s.tillerNow.each (bitsOf (maskAt 32 f.payload 0 4)) fun s r => s.armRoute r (p8 f.payload 4 == 1)) }

/-- R195. -/
def softTriggerCmd : Cmd :=
  { kind := .schedulable, rights := ownsRoutes
    check := fun f s => layout f.payload 4
      [(0, (bitsOf (maskAt 32 f.payload 0 4)).all fun r => (s.routeN r).cfg.sourceKind == 7)]
    run := fun f s => .ok ({}, s.softTrigger (maskAt 32 f.payload 0 4)) }

/-- R198. -/
def triggerStatusGetCmd : Cmd :=
  { kind := .readback, rights := fun f s => ownerOrSteward f (ownerOf (p8 f.payload 0) 32 s.routeOwner)
    check := fun f _ => layout f.payload 4 [(0, decide (p8 f.payload 0 < 32)), (1, zeroAt f.payload 1 3)]
    run := fun f s => answer (s.triggerStatus (p8 f.payload 0)) s }

/-- R196: a route can feed the fast path. -/
def State.fastSource (s : State) (r : Nat) : Bool :=
  (s.routeN r).cfg.sourceKind == 0 || (s.routeN r).cfg.sourceKind == 4

/-- R196. -/
def trigOutConfigCmd : Cmd :=
  { kind := .staged, steward := true
    check := fun f s =>
      let p := f.payload
      layout p 16 [(0, decide (p8 p 0 < 4)), (1, decide (p8 p 1 < 32))
        , (2, p8 p 2 == 0 || (p8 p 2 == 1 && s.fastSource (p8 p 1))), (3, decide (p8 p 3 ≤ 1))
        , (4, inRange 8 (p32 p 4) 1000000), (8, decide (p32 p 8 ≤ 1000000000)), (12, decide (p8 p 12 ≤ 1)), (13, zeroAt p 13 3)]
    apply := fun f s =>
      let p := f.payload
      .ok (s.modTrigOut (p8 p 0) fun x =>
        { x with route := p8 p 1, fastPath := p8 p 2 == 1, onFastPath := p8 p 2 == 1, activeLow := p8 p 3 == 1
                 widthNs := p32 p 4, offsetPs := p32 p 8, enable := p8 p 12 == 1 })
    final := fun f s =>
      if p8 f.payload 2 = 1 ∧ !s.fastSource (p8 f.payload 1) then .error .badParam else .ok ()
    keys := fun p => [p8 p 0] }

/-- R196: after a commit an output whose route can no longer feed the fast path leaves it. -/
def State.dropFastPaths (s : State) : State :=
  s.each (List.range 4) fun s o => s.modTrigOut o fun x => { x with onFastPath := x.onFastPath && s.fastSource x.route }

/-- R655: the tenant that receives a resource is active once the stage has applied. -/
def receiverActive (n : Nat) (s : State) : Except Status Unit :=
  if (s.tenant n).active then .ok () else .error .badParam

/-- R172, R197: a route at its defaults, which still judges triggers tagged before it passed. -/
def Route.passed (x : Route) : Route :=
  { oldUntil := x.oldUntil, oldCfg := x.oldCfg, oldState := x.oldState, oldTag := x.oldTag, oldLeft := x.oldLeft, oldOwner := x.oldOwner
    oldOver := x.oldOver, oldEval := x.oldEval }

/-- R197: a route passes to a tenant. -/
def routeAssignCmd : Cmd :=
  { kind := .staged, steward := true
    check := fun f _ => layout f.payload 8 [(5, zeroAt f.payload 5 3)]
    apply := fun f s =>
      .ok (s.each (bitsOf (maskAt 32 f.payload 0 4)) fun s r =>
        { (s.commitRoute r {}).modRoute r Route.passed with own := { s.own with route := vset s.own.route r (ten (p8 f.payload 4)) } })
    final := fun f s => receiverActive (p8 f.payload 4) s
    keys := fun p => bitsOf (maskAt 32 p 0 4)
    without := clearMask 4 }

/-- R178: one transition of a program. -/
def tillerStepAt (p : Bytes) (o : Nat) : TillerStep :=
  { from_ := p8 p o, priority := p8 p (o + 1), condKind := p8 p (o + 2), condIndex := p8 p (o + 3), next := p8 p (o + 4)
    actions := BitVec.ofNat 16 (p16 p (o + 6)), outMask := BitVec.ofNat 8 (p8 p (o + 8)), counter := p8 p (o + 9)
    timer := p8 p (o + 10) }

/-- R177, R178: the fields of a transition. -/
def tillerStepFields (p : Bytes) (o : Nat) : List (Nat × Bool) :=
  let k := p8 p (o + 2)
  let lim := if k = 0 then 1 else if k = 1 then 32 else if k = 5 then 8 else 4
  [(o, decide (p8 p o ≤ 15) || p8 p o == 255), (o + 1, decide (p8 p (o + 1) ≤ 3)), (o + 2, decide (k ≤ 5))
  , (o + 3, decide (p8 p (o + 3) < lim)), (o + 4, decide (p8 p (o + 4) ≤ 15)), (o + 5, zeroAt p (o + 5) 1)
  , (o + 6, decide (p16 p (o + 6) < 256)), (o + 9, decide (p8 p (o + 9) ≤ 3)), (o + 10, decide (p8 p (o + 10) ≤ 3))
  , (o + 11, zeroAt p (o + 11) 5)]

/-- R175: the Tiller's commands are refused in service. -/
def notInService (s : State) : Except Reply Unit := require (s.power.opState != .service) (refuse .notOwnerState)

/-- R199. -/
def tillerLoadCmd : Cmd :=
  { kind := .staged, steward := true
    check := fun f s => do
      let p := f.payload
      let n := p8 p 0
      require (decide (17 ≤ p.length) && p.length == 56 + 16 * n) (badParam headerField)
      fields ([(0, inRange 1 n 64), (1, decide (p8 p 1 ≤ 15)), (2, zeroAt p 2 6)]
        ++ ((List.range 4).map fun i => (24 + 8 * i, inRange 1 (p64 p (24 + 8 * i)) (2 ^ 40 - 1)))
        ++ (List.range n).flatMap fun i => tillerStepFields p (56 + 16 * i))
      notInService s
    apply := fun f s =>
      let p := f.payload
      .ok (s.modTiller fun x =>
        { x with loaded := true, running := false, due := [], startState := p8 p 1, state := p8 p 1
                 terminals := (List.range 4).map fun i => p32 p (8 + 4 * i)
                 presets := (List.range 4).map fun i => p64 p (24 + 8 * i)
                 steps := (List.range (p8 p 0)).map fun i => tillerStepAt p (56 + 16 * i) })
    keys := fun _ => [0] }

/-- R200. -/
def tillerControlCmd : Cmd :=
  { kind := .immediate, steward := true
    check := fun f s => do
      let p := f.payload
      layout p 4 [(0, decide (p8 p 0 ≤ 3)), (1, decide (p8 p 1 ≤ 7)), (2, zeroAt p 2 2)]
      notInService s
    run := fun f s => .ok ({}, s.tillerControl (p8 f.payload 0) (p8 f.payload 1)) }

/-- R201: the settings in a payload. -/
def rachisOf (p : Bytes) : RachisCfg :=
  { role := p8 p 0, upstream := p8 p 1, portEnable := BitVec.ofNat 4 (p8 p 2), quenchForward := p8 p 3 == 1
    asym := (List.range 4).map fun i => s32 p (4 + 4 * i), remoteAlign := p8 p 20 == 1, alignDelayNs := p32 p 24
    txRouteMask := BitVec.ofNat 32 (p32 p 28) }

/-- R180: the root's reference is another one: what was judged of REF IN, PPS IN and IRIG IN, or of the recovered clock, is judged anew (DESIGN
CHOICE, log entry 242). -/
def State.changeReference (s : State) : State :=
  let s := if s.time.refValid then s.loseRef 1 else s
  s.modTime fun t => { t.dropPps with refGood := 0, refBad := 0, refDetected := 0, refFreqErr := 0x80000000, irigValid := false, irigGood := 0, irigBad := 0 }

/-- R180, R201: a change of role or upstream takes every port down; a port no longer enabled goes down. -/
def State.setRachis (s : State) (c : RachisCfg) : State :=
  let s := if (s.rachis.cfg.role = 2) ≠ (c.role = 2) then s.changeReference else s
  let all := s.rachis.cfg.role != c.role || s.rachis.cfg.upstream != c.upstream
  let s := s.each ((List.range 4).filter fun p => all || !c.portEnable.getLsbD p || c.role == 0) State.linkDown
  let s := s.modRachis fun r => { r with cfg := c, masterId := if all then none else r.masterId }
  let s := s.modRachis fun r => { r with upstream := s.chooseUpstream }
  let s := if c.role = 2 then s else s.modTime fun t => { t with masterTsb := none, followHold := false }
  s.refreshFast

/-- R201. -/
def rachisConfigCmd : Cmd :=
  { kind := .staged, steward := true
    check := fun f _ =>
      let p := f.payload
      layout p 32 ([(0, decide (p8 p 0 ≤ 2)), (1, decide (p8 p 1 ≤ 3) || p8 p 1 == 255), (2, decide (p8 p 2 < 16))
        , (3, decide (p8 p 3 ≤ 1))] ++ ((List.range 4).map fun i => (4 + 4 * i, inRangeI (-10000000) (s32 p (4 + 4 * i)) 10000000))
        ++ [(20, decide (p8 p 20 ≤ 1)), (21, zeroAt p 21 3), (24, inRange 500 (p32 p 24) 1000000)])
    apply := fun f s => .ok (s.setRachis (rachisOf f.payload))
    keys := fun _ => [0] }

/-- R202: the code of a port's state. -/
def PortState.code : PortState → Nat
  | .down => 0 | .training => 1 | .up => 2 | .standby => 3 | .idConflict => 4

/-- R183, R572: the delay a port reports: of its link, or of its loop while it is looped at depth 3. -/
def State.portDelay (s : State) (p : Nat) : Int :=
  if s.loopDepth 10 p = 3 then (s.rport p).loopFs.getD (s.rport p).delayFs else (s.rport p).delayFs

/-- R202. -/
def State.rachisStatus (s : State) : Bytes :=
  let r := s.rachis
  let master := if r.cfg.role = 1 then r.modId.toNat else if r.cfg.role = 2 then ((r.masterId.map (·.toNat)).getD 255) else 255
  w8 r.cfg.role ++ w8 r.modId.toNat ++ w8 master ++ w8 ((r.upstream.map (·.val)).getD 255) ++ w32 s.members.toNat
    ++ w64 r.offsetFs.toNat
    ++ ((List.range 4).map fun p =>
        let x := s.rport p
        w8 x.state.code ++ w8 x.peer.toNat ++ w8 x.hops ++ w8 0 ++ w64 (s.portDelay p).toNat ++ w16 x.halfCount.toNat
          ++ w16 x.crcErrors.toNat).flatten

def rachisStatusGetCmd : Cmd :=
  { kind := .readback, check := noPayload, run := fun _ s => answer s.rachisStatus s }

/-- R203. -/
def rachisSendCmd : Cmd :=
  { kind := .immediate, steward := true
    check := fun f s => do
      let p := f.payload
      layout p 16 [(0, p8 p 0 == 2), (1, zeroAt p 1 3)]
      require (s.microAhead (vtAt p 4)) (refuse .late)
      require (!s.upPorts.isEmpty) (refuse .degraded)
    run := fun f s => .ok ({}, s.sendAll (s.newMsg 2 0 (vtAt f.payload 4) 0 0 0)) }

/-- R192, R203. -/
def rachisQuenchCmd : Cmd :=
  { kind := .immediate, steward := true
    check := fun f _ => layout f.payload 4 [(0, decide (p8 f.payload 0 ≤ 1)), (1, zeroAt f.payload 1 3)]
    run := fun f s =>
      .ok ({}, (s.modRachis fun r => { r with ownQuench := p8 f.payload 0 == 1 }).rachisQuenchChange s.rachisQuench) }

end Sys2Proof.Machine
end

