-- ==== Sys2Proof/Machine/Acquire.lean ====
section
/-! DEFINITION. The commands of chapters 06 and 07 on channels and stamp sources (R246 to R252, R280 to R284), and what a
commit asks of captures and rings (R205, R215, R218, R242, R264). -/

namespace Sys2Proof.Machine

/-! ## Capture settings (R247 to R249) -/

def captureOf (p : Bytes) : CaptureCfg :=
  { mode := p8 p 16, routeMask := BitVec.ofNat 32 (p32 p 20), segLength := p32 p 24, pre := p32 p 28, segmentCount := p32 p 32
    postCount := p32 p 36, circPages := p16 p 40, recPages := p16 p 42, blockSamples := p32 p 44 }

def mult64 (n : Nat) : Bool := n % 64 == 0

/-- R160: every route of a list is the tenant's; the Steward may take any. -/
def routesAllowed (f : Frame) (s : State) (rs : List Nat) : Except Status Unit :=
  if f.tenant = 0 || rs.all fun r => s.routeOwner r == f.tenant.val then .ok () else .error .notOwnerState

/-- R38: whether two capture settings differ in what defines a record. -/
def captureDefines (a b : CaptureCfg) : Bool :=
  a.mode != b.mode || a.routeMask != b.routeMask || a.segLength != b.segLength || a.pre != b.pre
    || a.segmentCount != b.segmentCount || a.postCount != b.postCount || a.blockSamples != b.blockSamples

/-- R482: the journal entry of a capture in mode 5 is made and completed with the mode. -/
def State.modeFiveEntry (s : State) (f : Frame) (c : Nat) (old new : Nat) : State :=
  if old ≠ 5 ∧ new = 5 then
    match s.newEntry (s.workEntry f.tenant.val f.seq 0x0601 0) with
    | some (j, s) => s.modChan c fun x => { x with capJournal := some j }
    | none => s
  else if old = 5 ∧ new ≠ 5 then
    (s.withEntry (s.chan c).capJournal State.completeEntry).modChan c fun x => { x with capJournal := none }
  else s

/-- R204, R247: new capture settings of a channel at S. -/
def State.setCapture (s : State) (f : Frame) (c : Nat) (k : CaptureCfg) : State :=
  let old := (s.chan c).capture
  let s := if captureDefines old k then s.definingChange c else s
  let s := s.modeFiveEntry f c old.mode k.mode
  let s := if old.mode = 4 ∧ k.mode ≠ 4 ∧ !(s.source c).stampEnable then s.disarmSource c else s
  s.modChan c fun x => { x with capture := k, capState := if k.mode = 0 then 0 else x.capState }

/-- R247. -/
def captureConfigCmd : Cmd :=
  { kind := .staged, rights := mayOwn
    check := fun f _ =>
      let p := f.payload
      layout p 48 [(0, !zeroAt p 0 16), (16, decide (p8 p 16 ≤ 5)), (17, zeroAt p 17 3)
        , (24, inRange 256 (p32 p 24) 262144 && mult64 (p32 p 24)), (28, decide (p32 p 28 + 64 ≤ p32 p 24) && mult64 (p32 p 28))
        , (32, decide (p32 p 32 ≤ 65536)), (36, inRange 64 (p32 p 36) (2 ^ 32 - 64) && mult64 (p32 p 36))
        , (40, inRange 1 (p16 p 40) 8192), (42, inRange 1 (p16 p 42) 8192)
        , (44, inRange 4096 (p32 p 44) 16777216 && mult64 (p32 p 44))]
    apply := fun f s => do
      channelsReady f s
      routesAllowed f s (bitsOf (captureOf f.payload).routeMask)
      .ok (s.each (maskChannels f.payload) fun s c => s.setCapture f c (captureOf f.payload))
    keys := maskChannels
    without := clearMask 16 }

def reductionOf (p : Bytes) : ReductionCfg :=
  { k := p8 p 16, fir := p8 p 17, outWidth := p8 p 18, suppress := p8 p 19, syncRoute := p8 p 20 }

/-- R248: new reduction settings of a channel at S. -/
def State.setReduction (s : State) (c : Nat) (k : ReductionCfg) : State :=
  let s := if (s.chan c).reduction = k then s else s.definingChange c
  s.modChan c fun x => { x with reduction := k }

/-- R248, R232. -/
def reductionConfigCmd : Cmd :=
  { kind := .staged, rights := mayOwn
    check := fun f _ =>
      let p := f.payload
      layout p 24 [(0, !zeroAt p 0 16), (16, decide (p8 p 16 ≤ 16)), (17, decide (p8 p 17 ≤ 1) && (p8 p 17 == 0 || p8 p 16 != 0))
        , (18, decide (p8 p 18 ≤ 1)), (19, decide (p8 p 19 ≤ 1)), (20, decide (p8 p 20 ≤ 31) || p8 p 20 == 255), (21, zeroAt p 21 3)]
    apply := fun f s => do
      channelsReady f s
      routesAllowed f s (if p8 f.payload 20 = 255 then [] else [p8 f.payload 20])
      .ok (s.each (maskChannels f.payload) fun s c => s.setReduction c (reductionOf f.payload))
    keys := maskChannels
    without := clearMask 16 }

def accumOf (p : Bytes) : AccumCfg := { recordLen := p32 p 16, pre := p32 p 20, target := p32 p 24, gateS := p32 p 28 }

/-- R249: new accumulation settings of a channel at S. -/
def State.setAccum (s : State) (c : Nat) (k : AccumCfg) : State :=
  let s := if (s.chan c).accum = k then s else s.definingChange c
  s.modChan c fun x => { x with accum := k }

/-- R249. -/
def accumConfigCmd : Cmd :=
  { kind := .staged, rights := mayOwn
    check := fun f _ =>
      let p := f.payload
      layout p 32 [(0, !zeroAt p 0 16), (16, inRange 64 (p32 p 16) 65536 && mult64 (p32 p 16)), (20, decide (p32 p 20 < p32 p 16))
        , (24, inRange 1 (p32 p 24) 16777216), (28, decide (p32 p 28 ≤ 86400))]
    apply := fun f s => do
      channelsReady f s
      .ok (s.each (maskChannels f.payload) fun s c => s.setAccum c (accumOf f.payload))
    keys := maskChannels
    without := clearMask 16 }

/-! ## Arming (R250, R283) -/

/-- R250, R440: disarm a channel's capture; the streams of its rings lose their input. -/
def State.disarmNow (s : State) (c : Nat) : State :=
  let s := s.disarmCapture c
  (s.stopStreamsOn (.record (Fin.ofNat 128 c)) 5).stopStreamsOn (.circular (Fin.ofNat 128 c)) 5

/-- R250. -/
def armCaptureCmd : Cmd :=
  { kind := .schedulable, rights := ownsChannels
    check := fun f s => do
      let p := f.payload
      layout p 20 [(0, (maskChannels p).all fun c => (s.chan c).fe.enable && (s.chan c).capture.mode != 0)
        , (16, decide (p8 p 16 ≤ 1)), (17, zeroAt p 17 3)]
      if p8 p 16 = 1 then s.armRefusal (maskAt 128 p 0 16) else require (!(maskChannels p).any s.noRingDram) (refuse .degraded)
    run := fun f s =>
      .ok ({}, s.each (maskChannels f.payload) fun s c => if p8 f.payload 16 = 1 then s.armCapture c else s.disarmNow c) }

/-- R283: the sources of a mask. -/
def maskSources (p : Bytes) : List Nat := bitsOf (maskAt 132 p 0 17)

/-- R283. -/
def armStampsCmd : Cmd :=
  { kind := .schedulable
    rights := fun f s => (maskSources f.payload).all fun i => s.sourceOwner i == f.tenant.val
    check := fun f s => do
      let p := f.payload
      layout p 20 [(0, (maskSources p).all s.stampEnabled), (16, decide (p8 p 16 < 16)), (17, decide (p8 p 17 ≤ 1))
        , (18, zeroAt p 18 2)]
      s.armStampsRefusal (maskAt 132 p 0 17) (p8 p 17 == 1)
    run := fun f s =>
      .ok ({}, s.each (maskSources f.payload) fun s i => if p8 f.payload 17 = 1 then s.armSource i else s.disarmSource i) }

/-! ## Stamp settings (R281, R282) -/

/-- R281. -/
def stampConfigCmd : Cmd :=
  { kind := .staged, rights := mayOwn
    check := fun f _ =>
      let p := f.payload
      layout p 20 [(0, !zeroAt p 0 16), (16, decide (p8 p 16 ≤ 1)), (17, zeroAt p 17 1), (18, inRange 1 (p16 p 18) 4096)]
    apply := fun f s => do
      channelsReady f s
      .ok (s.each (maskChannels f.payload) fun s c =>
        let s := s.modSource c fun x => { x with stampEnable := p8 f.payload 16 == 1, pages := p16 f.payload 18 }
        if s.streamEnabled c then s else s.disarmSource c)
    keys := maskChannels
    without := clearMask 16 }

/-- R507, R310, R440: a ring's owner loses it: the streams on it stop and it gives up its pages. -/
def State.releaseRing (s : State) (r : RingId) : State :=
  (s.stopStreamsOn r 5).dropRing r

/-- R254, R282: new settings of a timing input, whose receiver takes its level from the input where it is enabled (a free value, log entry
3); a change of owner passes it disarmed, with its ring released. -/
def State.setTi (s : State) (i owner pages : Nat) (k : TiCfg) : State :=
  let src := 128 + i
  let passes := s.tiOwner i != owner
  let s := if passes || ((s.source src).ti.enable && !k.enable) then s.disarmSource src else s
  let s := if passes then s.releaseRing (.stamps (Fin.ofNat 132 src)) else s
  let moved := (s.source src).ti != k
  let taken := s.free
  let s := if k.enable && !(s.source src).ti.enable then taken.2.modSource src fun x => { x with level := taken.1.getLsbD 0, levelKnown := true } else s
  let s := s.modSource src fun x => { x with ti := k, pages, configChanged := x.configChanged || moved }
  let s := if moved then s.cutGates (·.readsSource src) (vtNat (vtSecond s.time.vtSec)) else s
  { s with own := { s.own with ti := vset s.own.ti i (ten owner) } }

/-- R282. -/
def tiConfigCmd : Cmd :=
  { kind := .staged, steward := true
    check := fun f _ =>
      let p := f.payload
      layout p 16 [(0, decide (p8 p 0 < 4)), (1, decide (p8 p 1 ≤ 1)), (2, decide (p8 p 2 ≤ 2))
        , (4, inRangeI (-1000) (s16 p 4) 2500), (6, decide (p8 p 6 ≤ 50)), (7, zeroAt p 7 1), (8, inRange 1 (p16 p 8) 4096)
        , (10, zeroAt p 10 6)]
    apply := fun f s =>
      let p := f.payload
      .ok (s.setTi (p8 p 0) (p8 p 3) (p16 p 8)
        { enable := p8 p 1 == 1, slope := p8 p 2, thresholdMv := s16 p 4, hysteresisMv := p8 p 6 })
    final := fun f s => receiverActive (p8 f.payload 3) s
    keys := fun p => [p8 p 0] }

/-! ## Readbacks (R251, R284) -/

def captureStatusGetCmd : Cmd :=
  { kind := .readback, rights := channelRights, check := channelCheck
    run := fun f s => answer (s.captureStatus (p8 f.payload 0)) s }

def awnStatusGetCmd : Cmd :=
  { kind := .readback, rights := fun f s => ownerOrSteward f (ownerOf (p16 f.payload 0) 132 s.sourceOwner)
    check := fun f _ => layout f.payload 4 [(0, decide (p16 f.payload 0 < 132)), (2, zeroAt f.payload 2 2)]
    run := fun f s => answer (s.awnStatus (p16 f.payload 0)) s }

/-! ## Transfers (R252, R430) -/

/-- R8, R430: an address field of 16 bytes, IPv4 in its first 4. -/
def netIp (v6 : Bool) (p : Bytes) (off : Nat) : BitVec 128 := BitVec.ofNat 128 (beNat (part p off (if v6 then 16 else 4)))

/-- R430: the checks of a transfer destination at an offset, for a port. -/
def destFields (f : Frame) (s : State) (port off : Nat) : List (Nat × Bool) :=
  let p := f.payload
  if p16 p off = 0 then
    [(off, decide (f.src.via ≠ .service ∧ portOf f.src.via = port)), (off + 2, p8 p (off + 2) == 0), (off + 3, zeroAt p (off + 3) 1)
    , (off + 4, zeroAt p (off + 4) 16)]
  else
    let mode := (s.port port).cfg.ipMode
    [(off + 2, (p8 p (off + 2) == 4 && mode.getLsbD 0) || (p8 p (off + 2) == 6 && mode.getLsbD 1))
    , (off + 3, zeroAt p (off + 3) 1), (off + 4, p8 p (off + 2) == 6 || zeroAt p (off + 8) 12)]

/-- R430: a transfer that begins now. -/
def State.newTransfer (s : State) (f : Frame) (journal channel port off : Nat) (archive : Bool) (records : List Nat) :
    Transfer :=
  let p := f.payload
  let back := p16 p off == 0
  let v6 := if back then f.src.v6 else p8 p (off + 2) == 6
  let ip := if back then f.src.ip else netIp v6 p (off + 4)
  { journal, tenant := f.tenant, archive, channel, port, v6, destIp := ip
    destPort := if back then f.src.port else BitVec.ofNat 16 (p16 p off)
    resolved := back || (s.port port).resolves v6 ip, since := s.clock, records }

/-- R423, R430: a transfer is taken on, and its destination asked for. -/
def State.openTransfer (s : State) (x : Transfer) : State :=
  let s := { s with transfers := s.transfers ++ [x] }
  if x.resolved then s else s.seek x.port x.v6 x.destIp

/-- R216, R346: the records of a channel that are held, oldest first: its rings, and the Ear while it does not drain. -/
def State.heldRecords (s : State) (c : Nat) : List Record :=
  let ofRing (r : Ring) : List Record := r.items.filterMap fun i =>
    match i.body with
    | .record x => if i.complete then some x else none
    | _ => none
  ofRing (s.chan c).ring ++ ofRing (s.chan c).circ
    ++ (if s.drains (stookOf c) then [] else ((s.chan c).ear.filter (·.filled)).map (·.record))

/-- R252: the record_ids a fetch takes. -/
def State.fetchIds (s : State) (c first count : Nat) : List Nat :=
  (((s.heldRecords c).map (·.recordId.toNat)).filter fun i => decide (first ≤ i)).take count

/-- R252. -/
def recordFetchCmd : Cmd :=
  { kind := .readback, rights := channelRights
    check := fun f s => do
      let p := f.payload
      layout p 36 ([(0, decide (p8 p 0 < 128)), (1, decide (p8 p 1 ≤ 2)), (2, zeroAt p 2 2)
        , (4, ((s.heldRecords (p8 p 0)).map (·.recordId.toNat)).contains (p64 p 4)), (12, inRange 1 (p32 p 12) 1024)]
        ++ destFields f s (p8 p 1) 16)
      require (decide ((s.transfers.filter fun t => !t.archive && t.tenant == f.tenant).length < 8)) (refuse .busy)
    run := fun f s => do
      let p := f.payload
      let ids := s.fetchIds (p8 p 0) (p64 p 4) (p32 p 12)
      let (j, s) ← s.startWork f 0x0606 ids.length
      .ok ({ journal := some j }, s.openTransfer (s.newTransfer f j (p8 p 0) (p8 p 1) 16 false ids)) }

/-! ## What a commit asks of captures and rings -/

/-- R215, R264, R296: the pages a ring is to have. -/
def State.wantedPages (s : State) : RingId → Nat
  | .record c => let k := (s.chan c.val).capture; if k.mode = 1 ∨ k.mode = 5 then k.recPages else 0
  | .circular c => let k := (s.chan c.val).capture; if k.mode = 2 ∨ k.mode = 3 then k.circPages else 0
  | .stamps i => if s.streamEnabled i.val then (s.source i.val).pages else 0
  | .results i => match aget s.insts i.val with
    | some x => if x.state = 1 then x.resultPages else x.ring.pages.length
    | none => 0

/-- The stook whose DRAM holds a ring (R215, R264, R296, R515). -/
def State.ringStook (s : State) : RingId → Nat
  | .record c => stookOf c.val
  | .circular c => stookOf c.val
  | .stamps i => sourceStook i.val
  | .results i => ((aget s.insts i.val).map (·.resultStook)).getD 0

/-- Whether a ring has not the pages its settings ask, where they ask for them (R215, R264, R296). -/
def State.misfits (s : State) (r : RingId) : Bool :=
  decide ((s.ring r).pages.length ≠ s.wantedPages r) || (s.ring r).pages.any fun p => p / 8192 != s.ringStook r

/-- R345: whether a stage asks pages for a ring anew that lie with an isolated or failed controller. -/
def State.asksDown (before s : State) (r : RingId) : Bool :=
  s.misfits r && s.wantedPages r != 0 && !s.stookUp (s.ringStook r) && (before.wantedPages r != s.wantedPages r || before.ringStook r != s.ringStook r)

/-- R215, R345: the rings of a tenant take the pages their settings ask; first those that change give theirs up. A ring that
lost its pages and is asked for no change by this stage stays without. -/
def State.fitRings (before s : State) (tenant : Nat) : Except Status State :=
  let l := s.ringIds.filter fun r => s.ringOwner r == tenant && s.misfits r
  if l.any (State.asksDown before s) then .error .degraded else
  let s := s.each l State.dropRing
  l.foldl (fun acc r => match acc with
    | .error e => .error e
    | .ok s =>
      match s.sizeRing r tenant (s.ringStook r) (s.wantedPages r) with
      | some s => .ok s
      | none => if before.wantedPages r = s.wantedPages r ∧ before.ringStook r = s.ringStook r then .ok s else .error .exhausted) (.ok s)

/-- R205, R218: the settings of a channel agree with one another. -/
def Channel.agrees (x : Channel) : Bool :=
  let m := x.capture.mode
  !((m == 1 || m == 4 || m == 5) && x.reduction.k != 0)
    && !(m == 2 && decide (x.circOutputs x.dataFormat < x.capture.postCount + 64))

/-- R242: the continuous write rate of a channel in modes 2 and 3, bytes per second. -/
def State.writeRate (s : State) (c : Nat) : Nat :=
  let x := s.chan c
  if x.capture.mode == 2 || x.capture.mode == 3 then
    5000000000 / 2 ^ x.reduction.k * formatHalfBytes x.dataFormat / 2
  else 0

/-- The sum of the write rates of channels. -/
def State.rateOf (s : State) (l : List Nat) : Nat := (l.map s.writeRate).sum

/-- R242: no sheaf above 20 GB/s and no stook above 40 GB/s through this stage. -/
def State.ratesFit (before after : State) : Bool :=
  ((List.range 16).all fun b =>
    let l := (List.range 8).map (8 * b + ·)
    decide (after.rateOf l ≤ 20000000000) || decide (after.rateOf l ≤ before.rateOf l))
  && (List.range 8).all fun k =>
    let l := (List.range 16).map (16 * k + ·)
    decide (after.rateOf l ≤ 40000000000) || decide (after.rateOf l ≤ before.rateOf l)

/-- R240: at a second boundary the accumulations whose gate ends are closed. -/
def State.closeGates (s : State) : State :=
  s.each (List.range 128) fun s c =>
    let g := (s.chan c).accum.gateS
    if g ≠ 0 ∧ s.time.vtSec.toNat % g = 0 ∧ (s.chan c).capture.mode = 5 then s.closeAccum c 7 (s.firstSampleAt c s.now) else s

end Sys2Proof.Machine
end

