-- ==== Sys2Proof/Machine/Library.lean ====
section
/-! DEFINITION. The library reducers of image slots 3 to 7 (R277, R298): what a unit of work gives them and the bodies of their results. -/

namespace Sys2Proof.Machine

/-- The middle one of a list of durations. -/
def insertNat (n : Nat) : List Nat → List Nat
  | [] => [n]
  | m :: l => if n ≤ m then n :: m :: l else m :: insertNat n l

def medianNat (l : List Nat) : Nat := ((l.foldr insertNat [])[l.length / 2]?).getD 0

/-- A quotient rounded to nearest, ties away from zero (log entry 66); 0 for an empty divisor. -/
def ratio (num : Int) (den : Nat) : Int := if den = 0 then 0 else nearestAway ((num : Rat) / den)

/-- The square root of num / den, rounded to nearest. -/
def rootRatio (num den : Nat) : Nat := if den = 0 then 0 else (Nat.sqrt (4 * num / den) + 1) / 2

/-- Femtoseconds of a number of units of 2⁻⁴⁸ s. -/
def fsOf48 (d : Int) : Int := ratio (d * 1000000000000000) (2 ^ 48)

/-! ## The outputs of a record (R115, R230) -/

/-- Units per sample LSB in which an output of a data format counts. -/
def lsbUnits (format : Nat) : Nat := if format = 3 then 16 else if format = 4 then 4096 else 1

/-- The outputs of a record in units of 1/4,096 sample LSB; none where one carries a flag and is skipped (R298). -/
def Record.cleanOutputs (r : Record) : List (Option Int) :=
  (List.range r.count.toNat).map fun j =>
    if r.flagged j then none else some (outputAt r.dataFormat r.payload j * ((4096 / lsbUnits r.dataFormat : Nat) : Int))

/-- R230: the output period, fs. -/
def Record.periodFs (r : Record) : Nat := 2 ^ r.decim * 200000

/-! ## Slot 3, sine phase (R277, R298)

The fit is the least-squares one, computed in rationals; sine and cosine stand in units of 2⁻⁸⁰ (DESIGN CHOICE, log entry 246). -/

def trigUnit : Int := 2 ^ 80

/-- A quarter of the circle in units of 2⁻⁸⁰ radian. -/
def quarterTurn : Int := 1898976236818169290393996

/-- The series of sine or cosine from a term on, at an angle whose square is `y2`. -/
def trigSeries (y2 : Int) : Nat → Int → Int → Int
  | 0, _, _ => 0
  | fuel + 1, k, term => term + trigSeries y2 fuel (k + 2) (-(term * y2 / trigUnit) / ((k + 1) * (k + 2)))

/-- Cosine and sine of a part of a cycle in [0, 1). -/
def cosSin (x : Rat) : Int × Int :=
  let q := (4 * x).floor
  let y := ((4 * x - q) * quarterTurn).floor
  let c := trigSeries (y * y / trigUnit) 24 0 trigUnit
  let s := trigSeries (y * y / trigUnit) 24 1 y
  match q.toNat % 4 with
  | 0 => (c, s) | 1 => (-s, c) | 2 => (-c, -s) | _ => (s, -c)

/-- Where an output lies in a cycle of `f` mHz, of outputs `periodFs` apart. -/
def cyclePlace (f periodFs j : Nat) : Rat := ((f * periodFs * j % 10 ^ 18 : Nat) : Rat) / (10 ^ 18 : Nat)

/-- R277: the least-squares fit of a cos + b sin + d: the coefficients, and the number and mean square of the residuals; none where it has no
one solution. Values count as the outputs do. -/
structure SineFit where
  a : Rat
  b : Rat
  d : Rat
  n : Nat
  square : Rat

def sumRat (l : List Rat) : Rat := l.foldl (· + ·) 0

def sineFit (f periodFs : Nat) (l : List (Option Int)) : Option SineFit :=
  let pts : List (Rat × Rat × Rat) := ((List.range l.length).zip l).filterMap fun e => e.2.map fun v =>
    let t := cosSin (cyclePlace f periodFs e.1)
    ((t.1 : Rat) / trigUnit, (t.2 : Rat) / trigUnit, (v : Rat))
  let sum (g : Rat × Rat × Rat → Rat) : Rat := sumRat (pts.map g)
  let n := pts.length
  let c := sum (·.1)
  let s := sum (·.2.1)
  let cc := sum fun p => p.1 * p.1
  let ss := sum fun p => p.2.1 * p.2.1
  let cs := sum fun p => p.1 * p.2.1
  let x := sum (·.2.2)
  let xc := sum fun p => p.2.2 * p.1
  let xs := sum fun p => p.2.2 * p.2.1
  let xx := sum fun p => p.2.2 * p.2.2
  let det3 (m11 m12 m13 m21 m22 m23 m31 m32 m33 : Rat) : Rat :=
    m11 * (m22 * m33 - m23 * m32) - m12 * (m21 * m33 - m23 * m31) + m13 * (m21 * m32 - m22 * m31)
  let det := det3 cc cs c cs ss s c s n
  if det = 0 then none
  else
    let a := det3 xc cs c xs ss s x s n / det
    let b := det3 cc xc c cs xs s c x n / det
    let d := det3 cc cs xc cs ss xs c s x / det
    some { a, b, d, n, square := max 0 ((xx - a * xc - b * xs - d * x) / n) }

/-- The fitted sine without its offset at a part of a cycle. -/
def SineFit.at (y : SineFit) (x : Rat) : Rat :=
  let t := cosSin (x - x.floor)
  y.a * t.1 + y.b * t.2

/-- Halve an interval that holds an upward crossing. -/
def SineFit.halve (y : SineFit) : Nat → Rat → Rat → Rat
  | 0, lo, _ => lo
  | n + 1, lo, hi =>
    let mid := (lo + hi) / 2
    if y.at mid ≤ 0 then y.halve n mid hi else y.halve n lo mid

/-- The place of the upward crossing in a cycle. -/
def SineFit.crossing (y : SineFit) : Rat :=
  let rises (k : Nat) : Bool := decide (y.at ((k : Rat) / 8) ≤ 0 ∧ 0 < y.at ((k : Rat) / 8 + 1 / 8))
  let k : Nat := ((List.range 8).find? rises).getD 0
  y.halve 64 ((k : Rat) / 8) ((k : Rat) / 8 + 1 / 8)

/-- The square root of a rational, rounded to nearest. -/
def rootRat (q : Rat) : Nat := (Nat.sqrt (4 * q).floor.toNat + 1) / 2

/-- The upward crossing of a fitted sine nearest the middle of the fit, fs after the first output: `place` is where one lies in a cycle of `f`
mHz. -/
def nearestCrossing (f : Nat) (place : Rat) (middleFs : Nat) : Int :=
  let cycle : Rat := (1000000000000000000 : Nat) / (max f 1 : Nat)
  let off := place * cycle
  nearestAway (off + (((((middleFs : Rat) - off) / cycle) + 1 / 2).floor : Rat) * cycle)

/-- R277: σ / (2π f A √(N / 2)) in fs, with the residual as σ. -/
def SineFit.timeUnc (y : SineFit) (f : Nat) : Nat :=
  let pi2 : Rat := ((4 * quarterTurn : Int) : Rat) / trigUnit
  let amp2 := y.a * y.a + y.b * y.b
  rootRat (y.square / amp2 * 2 / y.n * (10 ^ 36 : Nat) / (pi2 * pi2 * f * f))

/-- R298, slot 3: `first` is the instant of the first output and `v` gives values where the fit has none. -/
def sineBody (p : Bytes) (r : Record) (first : Nat) (v : Fin 3 → U64) : Bytes :=
  let f := p64 p 0
  let len := if p32 p 8 = 0 then r.count.toNat else min (p32 p 8) r.count.toNat
  let l := r.cleanOutputs.take len
  let used := (l.filter (·.isSome)).length
  let values := match sineFit f r.periodFs l with
    | some y =>
      if y.a = 0 ∧ y.b = 0 then w64 (v 0).toNat ++ w64 (v 1).toNat ++ w64 (v 2).toNat ++ w32 (v 0).toNat
      else
        let at_ := nearestCrossing f y.crossing ((len - 1) * r.periodFs / 2)
        vt96Bytes (vtOfNat ((first : Int) + at_ * (2 ^ 48 : Nat) / 1000000000000000).toNat)
          ++ leInt 4 (rootRat ((y.a * y.a + y.b * y.b) / 256)) ++ leInt 4 (nearestAway (y.d / 16))
          ++ w32 (min (y.timeUnc f) (2 ^ 32 - 1)) ++ w32 (rootRat (y.square / 256))
    | none => w64 (v 0).toNat ++ w64 (v 1).toNat ++ w64 (v 2).toNat ++ w32 (v 0).toNat
  values ++ w64 used ++ w32 (len - used)

/-! ## Slot 4, accumulation edge (R237, R239, R298) -/

/-- The sums of the points of an accumulation's record. -/
def Record.sums (r : Record) : List Int := (List.range r.count.toNat).map fun i => signed 64 (p64 r.payload (8 * i))

/-- The first place where a waveform reaches a level from below, or from above, in points. -/
def firstReach (up : Bool) (level : Rat) : Nat → List Int → Option Rat
  | i, a :: b :: l =>
    let met := if up then decide ((a : Rat) < level ∧ level ≤ (b : Rat)) else decide (level ≤ (a : Rat) ∧ (b : Rat) < level)
    if met then some ((i : Rat) + (level - a) / ((b : Rat) - a)) else firstReach up level (i + 1) (b :: l)
  | _, _ => none

/-- The time on the axis of R237 of a place in points. -/
def Record.pointFs (r : Record) (x : Rat) : Int := nearestAway ((x - r.pre.toNat) * 200000)

/-- R298, slot 4: `v` are values where the spec states none: of the rise time where the waveform does not pass both levels, of the levels
where nothing was accumulated. -/
def edgeBody (p : Bytes) (r : Record) (v : Fin 3 → U64) : Bytes :=
  let l := r.sums
  let lo := l.foldl min (l.headD 0)
  let hi := l.foldl max (l.headD 0)
  let level (pct : Nat) : Rat := (lo : Rat) + ((hi - lo) * pct : Int) / 100
  let up := p8 p 1 == 0
  let cross := (firstReach up (level (p8 p 0)) 0 l).map r.pointFs
  let rise := match firstReach up (level (if up then 10 else 90)) 0 l with
    | some a => (firstReach up (level (if up then 90 else 10)) a.floor.toNat (l.drop a.floor.toNat)).map fun b => nearestAway ((b - a) * 200000)
    | none => none
  let mean (x : Int) (free : U64) : Bytes := if r.accumCount = 0 then w32 free.toNat else leInt 4 (ratio x r.accumCount.toNat)
  w64 r.recordId.toNat ++ (match cross with
    | some t => leInt 8 t
    | none => w64 0x8000000000000000)
    ++ (rise.map (leInt 8)).getD (w64 (v 0).toNat) ++ mean lo (v 1) ++ mean hi (v 2) ++ w32 r.accumCount.toNat ++ w32 0

/-! ## Slot 6, record features (R163, R298) -/

/-- The crossings of a level by the outputs of a record, with hysteresis as in R163: whether upward, and the time after the first output. -/
def levelCrossings (cfg : RouteCfg) (r : Record) : List (Bool × Int) :=
  let unit := lsbUnits r.dataFormat
  let start : Digital × List (Bool × Int) := ({ next := 0 }, [])
  (((List.range r.count.toNat).foldl (fun acc j =>
    let x := outputAt r.dataFormat r.payload j
    let (e, fired) := acc.1.step { cfg with levelA := cfg.levelA * unit, hysteresis := cfg.hysteresis * unit } x (r.flagged j)
    (e, match fired with
      | some d => (acc.1.up && decide (cfg.levelA * unit ≤ x), ((j * 200000 : Nat) + d) * ((2 ^ r.decim : Nat) : Int)) :: acc.2
      | none => acc.2)) start).2).reverse

/-- R298, slot 6: `first` is the instant of the first output and `v` gives values where the spec states none: of a record without any output
that counts, and of the first crossing where there is none. -/
def featuresBody (p : Bytes) (r : Record) (first : Nat) (v : Fin 3 → U64) : Bytes :=
  let l := r.cleanOutputs.filterMap id
  let n := l.length
  let cs := levelCrossings { sourceKind := 1, slope := 2, levelA := s16 p 0, hysteresis := p16 p 2 } r
  let width := match cs.dropWhile fun e => !e.1 with
    | u :: rest => ((rest.find? fun e => !e.1).map fun d => d.2 - u.2).getD 0
    | [] => 0
  let lead := fsOf48 ((first : Int) - vtNat r.trigger.tag)
  w64 r.recordId.toNat
    ++ (if n = 0 then w32 (v 0).toNat ++ w64 (v 1).toNat
      else leInt 2 (ratio (l.foldl min (l.headD 0)) 4096) ++ leInt 2 (ratio (l.foldl max (l.headD 0)) 4096) ++ leInt 4 (ratio l.sum (256 * n))
        ++ w32 (rootRatio (l.map fun x => x * x).sum.toNat (65536 * n)))
    ++ (match cs.head? with
      | some c => leInt 8 (lead + c.2)
      | none => w64 (v 2).toNat)
    ++ leInt 8 width ++ w32 cs.length

/-! ## Slots 5 and 7, gated (R269, R294, R298) -/

/-- R298, slot 5: the values a histogram counts: outputs in 1/4,096 LSB, or intervals between stamps in fs. What is seen carries a code,
whose bit 0 is the class of a stamp and bit 1 tells that both slopes are stamped. -/
def histogramValues (quantity : Nat) (seen : List (Nat × Int)) : List Rat :=
  let gaps (l : List Int) : List Rat := ((l.zip (l.drop 1)).map fun e => ((e.2 - e.1) * 1000000000000000 : Int) / ((2 ^ 48 : Nat) : Rat))
  if quantity = 0 then seen.map fun e => (e.2 : Rat) / 4096
  else if quantity = 1 then [0, 1].flatMap fun c => gaps ((seen.filter (·.1 % 2 == c)).map (·.2))
  else gaps (seen.map (·.2))

/-- A count that saturates at 2³² − 1. -/
def count32 (n : Nat) : Bytes := w32 (min n (2 ^ 32 - 1))

/-- R298, slot 5. -/
def histogramBody (p : Bytes) (seen : List (Nat × Int)) : Bytes :=
  let bins := p16 p 2
  let places := (histogramValues (p8 p 0) seen).map fun x => ((x - (signed 64 (p64 p 8) : Rat)) / (p64 p 16 : Nat)).floor
  let n (f : Int → Bool) : Nat := (places.filter f).length
  count32 (n fun x => decide (x < 0)) ++ count32 (n fun x => decide ((bins : Int) ≤ x)) ++ w64 places.length
    ++ ((List.range bins).map fun i => count32 (n fun x => x == (i : Int))).flatten

/-- R298, slot 7: `v` gives the interval figures where the gate holds no interval. -/
def statisticsBody (slopes lost : Nat) (seen : List (Nat × Int)) (v : Fin 3 → U64) : Bytes :=
  let used := seen.filter fun e => slopes == 2 || e.1 % 2 == slopes
  let pairs := used.zip (used.drop 1)
  let d := pairs.map fun e => e.2.2 - e.1.2
  let n := d.length
  let sq := (n : Int) * (d.map fun x => x * x).sum - d.sum * d.sum
  let high := ((pairs.filter fun e => e.1.1 % 2 == 0 && e.2.1 % 2 == 1).map fun e => e.2.2 - e.1.2).sum
  let errors := (pairs.filter fun e => slopes == 2 && e.1.1.testBit 1 && e.1.1 == e.2.1).length
  let fs2 : Nat := 1000000000000000 * 1000000000000000
  w64 used.length
    ++ (if n = 0 then w64 (v 0).toNat ++ w64 (v 1).toNat ++ w64 (v 1).toNat ++ w64 (v 2).toNat
      else leInt 8 (ratio (d.sum * 1000000000000000) (n * 2 ^ 48)) ++ leInt 8 (fsOf48 (d.foldl min (d.headD 0)))
        ++ leInt 8 (fsOf48 (d.foldl max (d.headD 0))) ++ w64 (rootRatio (sq.toNat * fs2) (n * n * 2 ^ 96)))
    ++ (if slopes = 2 then (if d.sum = 0 then w32 (v 0).toNat else leInt 4 (ratio (high * 1000000) d.sum.toNat)) else w32 0)
    ++ count32 lost ++ count32 errors ++ w32 0

/-! ## Measurement results (R279) -/

/-- A bound of a gate or of a part of one, in ms. -/
def boundMs (gateMs t : Nat) : Rat :=
  let n := (t * 1000 + 999) / 2 ^ 48 / max gateMs 1
  if gateMs * n * 2 ^ 48 / 1000 = t then (gateMs * n : Nat) else (t * 1000 : Nat) / ((2 ^ 48 : Nat) : Rat)

/-- R279: the 64 bytes of a result; value, uncertainty and residual are given in the result's units. -/
def measureBody (id : Nat) (x : Instance) (flags : Nat) (tsb : Byte) (start stop used unassigned : Nat) (value : Int)
    (u res : Nat) (gen1 gen2 : U32) : Bytes :=
  w16 id ++ w8 x.kind ++ w8 flags ++ [tsb] ++ zeros 3 ++ vt96Bytes (vtOfNat start)
    ++ w32 (boundMs x.gateMs stop - boundMs x.gateMs start).ceil.toNat ++ w64 used ++ leInt 8 value ++ w64 u ++ w32 res
    ++ w32 (min unassigned (2 ^ 32 - 1)) ++ w32 gen1.toNat ++ w32 gen2.toNat

end Sys2Proof.Machine
end

