-- ==== Sys2Proof/Machine/Engines.lean ====
section
/-! DEFINITION. Flail engines (R286 to R310): groups, units of work and their order, the service calls of an engine, faults,
stops, and the rows of chapter 08. -/

namespace Sys2Proof.Machine

/-! ## Groups (R286, R290, R305) -/

/-- An engine that can run work. -/
def State.engineUp (s : State) (e : Nat) : Bool := !(s.engine e).retired && !s.nodeOut (engineNode e) && !s.test.sheafIsolated.getLsbD (engineSheaf e)

def State.inst (s : State) (k : Nat) : Option Instance := aget s.insts k

/-- The keys of the versions of an instance: those that are being replaced (from 1,024 on), oldest first, then the instance itself. -/
def State.versionKeys (s : State) (i : Nat) : List Nat :=
  ((s.insts.filter fun e => e.1 % 1024 == i % 1024 && decide (1024 ≤ e.1)).map (·.1)) ++ [i % 1024]

/-- The oldest version of an instance that is left: its gates close and its results come first. -/
def State.gateKey (s : State) (i : Nat) : Nat := (s.versionKeys i).headD (i % 1024)

/-- The instances that hold an engine: those being replaced before their successors. -/
def State.instancesOf (s : State) (e : Nat) : List Nat :=
  let l := (s.insts.filter fun x => x.2.engines.contains e && x.2.state == 1).map (·.1)
  (l.filter fun k => decide (1024 ≤ k)) ++ l.filter fun k => decide (k < 1024)

/-- Engines of a group in service. -/
def State.groupUp (s : State) (x : Instance) : List Nat := x.engines.filter s.engineUp

/-- R294: the combiner. -/
def State.combiner (s : State) (x : Instance) : Option Nat := (s.groupUp x).head?

/-- R294: the engine of a group after another, in turn. -/
def State.engineAfter (s : State) (x : Instance) (e : Nat) : Option Nat :=
  let l := s.groupUp x
  ((l.find? fun o => decide (e < o)).or l.head?)

/-- R294: the engine that runs an instance of mode 2: where its last one is out of service, the next. -/
def State.activeEngine (s : State) (x : Instance) : Option Nat :=
  match x.active with
  | some a => if s.engineUp a then some a else s.engineAfter x a
  | none => s.combiner x

/-! ## Inputs (R292, R293) -/

/-- The ring of an input. -/
def InstInput.ring (i : InstInput) : Option RingId :=
  match i.kind with
  | 1 => some (.record (Fin.ofNat 128 i.index))
  | 2 => some (.circular (Fin.ofNat 128 i.index))
  | 3 => some (.stamps (Fin.ofNat 132 i.index))
  | 4 => some (resultRing i.index)
  | _ => none

/-- An instance as a consumer (R216). -/
def instConsumer (k : Nat) : Consumer := .inst (Fin.ofNat 1024 (k % 1024))

/-- R266: the stamps of a frame. -/
def frameStamps (f : FrameInfo) (es : List U64) : List U64 :=
  (if f.headless then es else es.drop 1).takeWhile fun w => entrySec w == BitVec.ofNat 20 f.sec

/-- R67, R270: the instant of a stamp of a frame, units of 2⁻⁴⁸ s. -/
def stampUnits (sec : Nat) (w : U64) : Nat := sec * 2 ^ 48 + w.toNat % 2 ^ 44 * 16

/-- R269: the stamps of a frame, each with a code: bit 0 its class, 0 rising and 1 falling, bit 1 whether both slopes are stamped. -/
def classify (f : FrameInfo) (es : List U64) : List (Nat × Nat) :=
  let l := frameStamps f es
  ((List.range l.length).zip l).map fun e => ((if f.slope = 2 then 2 + (f.level + e.1) % 2 else f.slope), stampUnits f.sec e.2)

/-- The SLICE tick at which the data of a record or a result begin. -/
def Item.startTick (i : Item) : Nat :=
  match i.body with
  | .record r => r.startTick
  | _ => i.born

/-- Where the data of an item begin under the labels of a cursor, units of 2⁻⁴⁸ s. -/
def State.itemStart (s : State) (c : GateCursor) (i : Item) : Nat :=
  match i.body with
  | .record r => s.vt80Units r.firstVt
  | .stamps f _ => f.sec * 2 ^ 48
  | .result _ => ((vtNat (s.vtOfTick i.born) : Int) - c.shift).toNat

/-- How far an instance has come, oldest labels first. -/
def Instance.cursors (x : Instance) : List GateCursor := x.old ++ [x.cursor]

/-- What has to be finished first. -/
def Instance.front (x : Instance) : GateCursor := x.old.headD x.cursor

def Instance.modFront (x : Instance) (f : GateCursor → GateCursor) : Instance :=
  match x.old with
  | [] => { x with cursor := f x.cursor }
  | c :: l => { x with old := f c :: l }

/-- The cursor to which data that begin at a tick belong (R295, R596). -/
def Instance.cursorAt (x : Instance) (tick : Nat) : Option GateCursor :=
  if tick < x.startTick then none else x.cursors.find? fun c => c.stopTick.all (decide <| tick < ·)

/-- R295: nothing that begins at an instant or later belongs to a cursor. -/
def GateCursor.endAt (c : GateCursor) (v tick : Nat) : GateCursor :=
  { c with stop := some (min v (c.stop.getD v)), stopTick := some (min tick (c.stopTick.getD tick)) }

def GateCursor.over (c : GateCursor) (at_ : Nat) : Bool := c.stop.any (decide <| · ≤ at_)

/-- R271: length of a gate in units of 2⁻⁴⁸ s. -/
def gateUnits (ms n : Nat) : Nat := ms * n * 2 ^ 48 / 1000

/-- The gate that contains an instant. -/
def gateOf (ms t : Nat) : Nat := (t * 1000 + 999) / 2 ^ 48 / ms

/-- R275, R295: a cursor that goes on at an instant, in the midst of a gate or at the start of one. -/
def GateCursor.goOn (x : Instance) (epoch at_ : Nat) : GateCursor :=
  let g := gateOf x.gateMs at_
  { epoch, nextSpan := at_, gateFrom := at_, nextGate := g, partialRest := gateUnits x.gateMs g != at_ }

/-- The first gate that starts at or after an instant. -/
def firstGate (ms t : Nat) : Nat := gateOf ms (t - 1) + 1

/-- R271, R619: a cursor that begins at an instant, in mode 1 with the first whole gate. -/
def GateCursor.begin (x : Instance) (epoch at_ : Nat) : GateCursor :=
  let g := firstGate x.gateMs at_
  let from_ := if x.mode = 1 then gateUnits x.gateMs g else at_
  { epoch, nextSpan := from_, gateFrom := from_, nextGate := g }

/-! ## Forming units (R293) -/

/-- Insert by a key, smaller first, equal ones in order of arrival. -/
def insertKey (key : α → Nat) (a : α) : List α → List α
  | [] => [a]
  | b :: l => if key a < key b then a :: b :: l else b :: insertKey key a l

/-- The whole items of record and result inputs that are not yet formed into units. -/
def State.freshItems (s : State) (k : Nat) (x : Instance) : List (RingId × Item × GateCursor) :=
  x.inputs.flatMap fun inp =>
    match inp.ring with
    | some r =>
      if inp.kind = 3 then []
      else ((s.ring r).items.filter fun i => i.complete && !i.releasedBy.contains (instConsumer k)
        && !(x.units.any fun u => u.items.contains (r, i.id))).filterMap fun i => (x.cursorAt i.startTick).map fun c => (r, i, c)
    | none => []

/-- The generation of the first data of an item. -/
def Item.firstGen (i : Item) : U32 :=
  match i.body with
  | .record r => r.genFirst
  | _ => i.genFirst

/-- A unit of one item. -/
def State.itemUnit (s : State) (x : Instance) (e : RingId × Item × GateCursor) : WorkUnit :=
  let t := s.itemStart e.2.2 e.2.1
  { number := x.nextUnit, items := [(e.1, e.2.1.id)], from_ := t, to_ := t, epoch := e.2.2.epoch, firstAt := vtOfNat t
    genFirst := e.2.1.firstGen, gen := e.2.1.generation, gate := gateOf x.gateMs t }

def Instance.addUnit (x : Instance) (u : WorkUnit) : Instance :=
  { x with units := x.units ++ [u], nextUnit := x.nextUnit + 1 }

/-- R293: units of records, by record_id, and of results. -/
def State.formItems (s : State) (k : Nat) (x : Instance) : Instance :=
  ((s.freshItems k x).foldl (fun l e => insertKey (·.2.1.id) e l) []).foldl (fun x e => x.addUnit (s.itemUnit x e)) x

/-- The stamp sources of an instance. -/
def Instance.stampSources (x : Instance) : List Nat := (x.inputs.filter (·.kind == 3)).map (·.index)

/-- R270, R310: the instant, under the labels of a cursor, up to which a source is complete; none of a source that has stopped with all it had
in its ring, for a version that has ended and waits for no more. -/
def State.sourceDone (s : State) (x : Instance) (c : GateCursor) (i : Nat) : Option Int :=
  let y := s.source i
  if x.ended && !y.running && y.queue.isEmpty && y.openEdges.isEmpty then none else some ((vtNat y.completeTo : Int) - c.shift)

/-- Whether every stamp source of an instance is complete up to an instant. -/
def State.completeTo (s : State) (x : Instance) (c : GateCursor) (t : Nat) : Bool :=
  x.stampSources.all fun i => (s.sourceDone x c i).all fun d => decide ((t : Int) ≤ d)

/-- Microseconds as units of 2⁻⁴⁸ s. -/
def unitsOfUs (us : Nat) : Nat := us * 2 ^ 48 / 1000000

/-- R293: the end of the span in which an instant lies: spans are aligned to VT seconds and, in mode 1, end with each gate. -/
def Instance.spanEnd (x : Instance) (breaks : List Nat) (a : Nat) : Nat :=
  let us := ((a % 2 ^ 48 + 1) * 1000000 + 2 ^ 48 - 1) / 2 ^ 48 - 1
  let next := (us / max x.unitUs 1 + 1) * max x.unitUs 1
  let b := a / 2 ^ 48 * 2 ^ 48 + unitsOfUs (min next 1000000)
  let b := if x.mode = 1 then min b (gateUnits x.gateMs (gateOf x.gateMs a + 1)) else b
  (breaks.filter (decide <| a < ·)).foldl min b

/-- R275, R293: the instants at which a gate of an instance may be cut: what is formed stands wholly before or behind them. -/
def State.spanBreaks (s : State) (x : Instance) (c : GateCursor) : List Nat :=
  c.stop.toList ++ (if x.mode = 1 then
      c.cuts ++ x.stampSources.flatMap fun i => (s.source i).stops.filterMap fun e => if e.1 = c.epoch then some e.2.2 else none
    else [])

/-- The frame of a source for a second, under the labels of a cursor. -/
def State.frameOf (s : State) (source epoch sec : Nat) : Option Item :=
  (s.source source).ring.items.find? fun i =>
    match i.body with
    | .stamps f _ => f.sec == sec && f.epoch == epoch
    | _ => false

/-- R293, R295: the unit of a stamp span. -/
def State.spanUnit (s : State) (x : Instance) (c : GateCursor) (b : Nat) : WorkUnit :=
  let a := c.nextSpan
  let frames := x.stampSources.filterMap fun i =>
    (s.frameOf i c.epoch (a / 2 ^ 48)).map fun it => (RingId.stamps (Fin.ofNat 132 i), it)
  let gen := (frames.head?.map (·.2.generation)).getD s.jr.generation
  { number := x.nextUnit, items := frames.map fun e => (e.1, e.2.id), from_ := a, to_ := b, epoch := c.epoch, firstAt := vtOfNat a
    genFirst := gen, gen, gate := gateOf x.gateMs a }

/-- Form the spans whose sources are complete. -/
def State.formSpans (s : State) (breaks : List Nat) : Nat → Instance × GateCursor → Instance × GateCursor
  | 0, e => e
  | fuel + 1, (x, c) =>
    let b := x.spanEnd breaks c.nextSpan
    if c.over c.nextSpan || !s.completeTo x c b then (x, c)
    else s.formSpans breaks fuel (x.addUnit (s.spanUnit x c b), { c with nextSpan := b })

/-- How many spans a cursor can at most have to form. -/
def State.spanFuel (s : State) (x : Instance) (c : GateCursor) (breaks : List Nat) : Nat :=
  let upTo := match (x.stampSources.filterMap (s.sourceDone x c)).min? with
    | some d => d.toNat
    | none => c.stop.getD c.nextSpan
  (upTo - c.nextSpan) * 1000000 / 2 ^ 48 / 50 + breaks.length + 4

/-- Form the spans under each label in turn. -/
def State.formStamps (s : State) (x : Instance) : Instance :=
  let r := x.cursors.foldl (fun (acc : Instance × List GateCursor × Bool) c =>
    if acc.2.2 then (acc.1, acc.2.1 ++ [c], true)
    else
      let breaks := s.spanBreaks x c
      let e := s.formSpans breaks (s.spanFuel x c breaks) (acc.1, c)
      (e.1, acc.2.1 ++ [e.2], !e.2.over e.2.nextSpan)) (x, [], false)
  { r.1 with old := r.2.1.dropLast, cursor := r.2.1.getLast?.getD x.cursor }

/-- Whether nothing of a cursor is left to form or to close. -/
def Instance.cursorDone (x : Instance) (c : GateCursor) : Bool :=
  if x.mode = 1 then c.over c.gateFrom else x.stampSources.isEmpty || c.over c.nextSpan

/-- Labels under which nothing is left are forgotten. -/
def Instance.trim (x : Instance) : Instance := { x with old := x.old.dropWhile x.cursorDone }

/-- Form every unit whose data are in. -/
def State.formUnits (s : State) (k : Nat) : State :=
  match s.inst k with
  | some x =>
    if x.state != 1 then s
    else
      let x := s.formItems k x
      let x := if x.stampSources.isEmpty then x else s.formStamps x
      s.modInst k fun _ => x.trim
  | none => s

/-! ## Releasing (R293, R310) -/

def WorkUnit.done (u : WorkUnit) : Bool := u.accepted || u.poisoned

/-- Whether every span of a frame has been formed. -/
def Instance.spansPast (x : Instance) (f : FrameInfo) : Bool :=
  match x.cursors.find? (·.epoch == f.epoch) with
  | some c => decide ((f.sec + 1) * 2 ^ 48 ≤ c.nextSpan) || c.over c.nextSpan
  | none => decide (f.epoch < x.cursor.epoch)

/-- Whether a version of an instance has no more use for an item. -/
def Instance.itemPassed (x : Instance) (r : RingId) (i : Item) : Bool :=
  let users := x.units.filter fun u => u.items.contains (r, i.id)
  users.all WorkUnit.done && (match i.body with
    | .stamps f _ => x.spansPast f
    | _ => !users.isEmpty || (x.cursorAt i.startTick).isNone)

/-- The versions of an instance that take input. -/
def State.versions (s : State) (k : Nat) : List Instance :=
  ((s.versionKeys k).filterMap s.inst).filter fun x => x.state == 1 && !x.deleted

/-- R293: release the input items that no unit needs any more. -/
def State.releaseInputs (s : State) (k : Nat) : State :=
  let rings := ((s.versions k).flatMap (·.inputs)).filterMap InstInput.ring
  s.each rings.dedup fun s r =>
    let vs := (s.versions k).filter fun x => x.inputs.any fun i => i.ring == some r
    if vs.isEmpty then s
    else s.modRing r fun q => { q with items := q.items.map fun i =>
      if i.complete && !i.releasedBy.contains (instConsumer k) && vs.all fun x => x.itemPassed r i then
        { i with releasedBy := i.releasedBy ++ [instConsumer k] }
      else i }

/-- R310: the registrations of a version of an instance end, but those that another holds as well. -/
def State.deregisterInst (s : State) (k : Nat) : State :=
  match s.inst k with
  | some x =>
    let other := (((s.versionKeys k).filter (· != k)).filterMap s.inst).filter fun x => x.state == 1 && !x.deleted
    s.each (x.inputs.filterMap InstInput.ring) fun s r =>
      if other.any fun o => o.inputs.any fun i => i.ring == some r then s
      else s.modRing r (·.deregister (instConsumer k))
  | none => s

/-- An engine runs nothing and has prefetched nothing. -/
def Engine.idle (y : Engine) : Engine := { y with running := none, prefetched := none, out := [] }

/-- Engines that run a unit of an instance are idle again. -/
def State.freeEngines (s : State) (k : Nat) : State :=
  s.each ((s.inst k).map (·.engines)).toList.flatten fun s e =>
    s.modEngine e fun x => if (x.running.map (·.1)) = some k then x.idle else x

/-- R310: an instance stops by itself: registrations end, and the stop is journalled. -/
def State.stopInstance (s : State) (k state : Nat) : State :=
  let s := (s.freeEngines k).deregisterInst k
  let s := s.withEntry ((s.inst k).bind (·.journal)) fun s j => s.partialEntry j 1
  s.modInst k fun x => { x with state, units := [], journal := none }

/-- R310, R482: a version of an instance is gone; with the instance itself its ring's streams stop, and its pages return to the tenant. -/
def State.removeInstance (s : State) (k : Nat) : State :=
  let s := (s.freeEngines k).deregisterInst k
  let s := s.withEntry ((s.inst k).bind (·.journal)) State.completeEntry
  let s := if k < 1024 then s.releaseRing (resultRing k) else s
  { s with insts := adel s.insts k }

/-! ## Results (R296) -/

/-- R296: a result with its wrapper. -/
def Instance.wrap (x : Instance) (k : Nat) (seq : U32) (body : Bytes) (last : Bool) : Bytes :=
  w16 body.length ++ w16 (k % 1024) ++ w32 x.reducerId.toNat ++ w32 seq.toNat
    ++ w8 (boolNat x.gap + 2 * boolNat last) ++ zeros 3 ++ pad8 body

/-- R295, R296: write a result to the ring of the instance, whose versions share one sequence; without room the writer waits and nothing is
counted. -/
def State.pushResult (s : State) (k : Nat) (genFirst gen : U32) (sec : Nat) (body : Bytes) (last : Bool := false) : Bool × State :=
  match s.inst k, s.inst (k % 1024) with
  | some x, some m =>
    let item : Item := { id := m.resultSeq.toNat, generation := gen, genFirst, born := s.clock, body := .result (x.wrap k m.resultSeq body last), sec }
    let r := s.pushItem (resultRing (k % 1024)) item
    (r.1, if r.1 then
        (r.2.modInst (k % 1024) fun y => { y with resultSeq := y.resultSeq + 1, results := y.results + 1 }).modInst k fun y => { y with gap := false }
      else r.2)
  | _, _ => (false, s)

/-- R301: release the results of a unit; true once all are written. -/
def State.pushBodies (s : State) (k : Nat) (u : WorkUnit) : List Bytes → Bool × State
  | [] => (true, s)
  | b :: l =>
    let (ok, s) := s.pushResult k u.genFirst u.gen u.firstAt.sec.toNat b
    if !ok then (false, s)
    else (s.modInst k fun x => { x with units := x.units.map fun v =>
        if v.number = u.number then { v with bodies := v.bodies.drop 1 } else v }).pushBodies k u l

/-- R301, R308: release results in unit order; a poisoned unit leaves the gap mark. Units of mode 1 stay until their gate
closes. -/
def State.flushUnits (s : State) (k : Nat) : Nat → State
  | 0 => s
  | fuel + 1 =>
    match s.inst k with
    | some x =>
      match x.units with
      | u :: rest =>
        if x.mode = 1 || !u.done then s
        else if u.poisoned then (s.modInst k fun x => { x with units := rest, gap := true }).flushUnits k fuel
        else
          let (ok, s) := s.pushBodies k u u.bodies
          if ok then (s.modInst k fun x => { x with units := rest }).flushUnits k fuel else s
      | [] => s
    | none => s

/-- R308: the last result of a stopped instance goes to its ring as soon as there is room. -/
def State.flushLast (s : State) (k : Nat) : State :=
  match (s.inst k).bind (·.last) with
  | some (gen, sec, b) =>
    let r := s.pushResult k gen gen sec b true
    if r.1 then r.2.modInst k fun x => { x with last := none } else r.2
  | none => s

/-- Whether a record that began before a tick can still come from the inputs of an instance. -/
def State.recordsDue (s : State) (x : Instance) (tick : Nat) : Bool :=
  x.inputs.any fun i => (i.kind == 1 || i.kind == 2) &&
    (let c := s.chan i.index
     c.ended.any (fun r => decide (r.startTick < tick)) || c.openRec.any (fun r => decide (r.startTick < tick))
       || c.ear.any fun g => decide (g.record.startTick < tick))

/-- R295: a version that was replaced or deleted ends once nothing of it is left. -/
def State.reapInstance (s : State) (k : Nat) : State :=
  match s.inst k with
  | some x =>
    let past := x.cursors.all fun c => x.cursorDone c && !s.recordsDue x (c.stopTick.getD 0)
    if x.ended && x.last.isNone && (x.state != 1 || (x.units.isEmpty && past)) && s.gateKey k == k then s.removeInstance k else s
  | none => s

/-- Every version of an instance moves on: units form, results and input items are released. Those of a newer version wait for the older. -/
def State.serveInstance (s : State) (k : Nat) : State :=
  s.each (s.versionKeys k) fun s k =>
    match s.inst k with
    | some x =>
      let s := s.releaseInputs k
      let s := if s.gateKey k = k then (s.flushUnits k (x.units.length + 1)).flushLast k else s
      s.reapInstance k
    | none => s

/-! ## Pulling work (R305, R306) -/

/-- R305, R306, R308: the unit an engine takes next: one issued a second time, else the lowest that is not issued; in mode 2
only behind accepted ones. -/
def State.pickUnit (s : State) (x : Instance) (e : Nat) : Option WorkUnit :=
  let other := (s.groupUp x).any (· != e)
  let open_ := x.units.filter fun u => !u.done
  if x.mode = 2 then (if s.activeEngine x = some e then open_.head?.filter (·.issued == 0) else none)
  else
    match open_.find? fun u => u.wantDup && !u.duplicated && u.lastEngine != some e with
    | some u => some u
    | none => open_.find? fun u => u.issued == 0 && !(decide (0 < u.faults) && other && u.lastEngine == some e)

/-- R306: a slow engine waits while another of its group is idle. -/
def State.mayTake (s : State) (x : Instance) (e : Nat) : Bool :=
  !(s.engine e).slow || !((s.groupUp x).any fun o => o != e && (s.engine o).running.isNone && !(s.engine o).slow)

/-- R300: the unit descriptor. -/
def Instance.descriptor (x : Instance) (u : WorkUnit) : Bytes :=
  let inputs := (x.inputs.map fun i => w8 i.kind ++ w8 0 ++ w16 i.index).flatten
  let first := if x.stampSources.isEmpty then (u.items.head?.map (·.2)).getD 0 else u.from_
  w64 u.number ++ (inputs ++ zeros 16).take 16 ++ w64 first ++ w64 u.gate ++ zeros 24

/-- R300, R302: the offset of an entry of the image in its code: 0 init, 1 unit, 2 close; of a library image the module's own. -/
def Instance.entryOffset (x : Instance) (i : Nat) : Nat :=
  if x.image.isEmpty then (Config.libraryEntry x.imageSlot i).toNat else p32 x.image (32 + 4 * i)

/-- R300: the node calls an image on an engine at an entry; what it passes in g1 to g4 the spec does not state (log entry 245). -/
def State.enterImage (s : State) (e : Nat) (x : Instance) (i : Nat) : State :=
  let s := s.modEngine e fun y => { y with entry := x.entryOffset i }
  s.each [1, 2, 3, 4] fun s r =>
    let (v, s) := s.free
    s.modEngine e fun y => { y with g := vset y.g r (v.setWidth 32) }

/-- R299, R300: code, data and parameters stand in the memory of an engine, and its init entry is called, once. -/
def State.initEngine (s : State) (k e : Nat) : State :=
  match s.inst k with
  | some x =>
    if x.inited.contains e then s
    else
      let code := part x.image 128 (p32 x.image 20)
      let s := s.modEngine e fun y =>
        { y with times := [], slow := false
                 mem := memWrite (memWrite (memWrite [] 0 code) 0x10000 (x.image.drop (128 + p32 x.image 20))) 0x1E040 x.params }
      (s.modInst k fun x => { x with inited := x.inited ++ [e] }).enterImage e x 0
  | none => s

/-- Give a unit to an engine: its descriptor, parameters and, in mode 2, the state are written into its memory, and its unit entry is called. -/
def State.giveUnit (s : State) (k e : Nat) (x : Instance) (u : WorkUnit) : State :=
  let s := s.initEngine k e
  let copy := decide (0 < u.issued)
  let s := s.modInst k fun x => { x with
    active := if x.mode = 2 then some e else x.active
    units := x.units.map fun v =>
      if v.number = u.number then
        { v with issued := v.issued + 1, lastEngine := some e, duplicated := v.duplicated || copy } else v }
  let s := s.each x.engines fun s o => s.modEngine o fun y => if y.prefetched = some (k, u.number) then { y with prefetched := none } else y
  let s := s.modEngine e fun y =>
    let mem := memWrite (memWrite y.mem 0x1E000 (x.descriptor u)) 0x1E040 x.params
    { y with running := some (k, u.number), prefetched := none, startedAt := s.clock, fetchPos := 0, out := []
             mem := if x.mode = 2 then memWrite mem 0x1F000 (x.serial ++ zeros (x.stateLen - x.serial.length)) else mem }
  s.enterImage e x 1

/-- R305: the unit there is for an engine. -/
def State.nextUnit (s : State) (e : Nat) : Option (Nat × Instance × WorkUnit) :=
  (s.instancesOf e).findSome? fun k =>
    match s.inst k with
    | some x => if s.mayTake x e then (s.pickUnit x e).map fun u => (k, x, u) else none
    | none => none

/-- R305: an engine that runs a unit prefetches the next; that does not issue it (log entry 175). -/
def State.prefetch (s : State) (e : Nat) : State :=
  if (s.engine e).running.isNone || (s.engine e).prefetched.isSome then s
  else s.modEngine e fun y => { y with prefetched := (s.nextUnit e).map fun f => (f.1, f.2.2.number) }

/-- R305: an idle engine takes a unit, if there is one for it, and prefetches the one after. -/
def State.pull (s : State) (e : Nat) : State :=
  if !s.engineUp e then s
  else if (s.engine e).running.isSome then s.prefetch e
  else
    let s := s.each (s.instancesOf e) State.formUnits
    match s.nextUnit e with
    | some (k, x, u) => (s.giveUnit k e x u).prefetch e
    | none => s

/-- The instance and unit an engine runs. -/
def State.runningUnit (s : State) (e : Nat) : Option (Nat × Instance × WorkUnit) :=
  match (s.engine e).running with
  | some (k, n) =>
    match s.inst k with
    | some x => (x.units.find? fun u => u.number == n).map fun u => (k, x, u)
    | none => none
  | none => none

/-- The bytes of a unit's input: whole items, or the stamps of its span, input after input. -/
def State.unitInput (s : State) (u : WorkUnit) : Bytes :=
  (u.items.map fun e =>
    match (s.ring e.1).items.find? (·.id == e.2) with
    | some i =>
      match i.body with
      | .stamps f es => stampBytes ((frameStamps f es).filter fun w =>
          let t := stampUnits f.sec w
          decide (u.from_ ≤ t ∧ t < u.to_))
      | b => b.bytes
    | none => []).flatten

/-- The record a unit consists of. -/
def State.unitRecord (s : State) (u : WorkUnit) : Option Record :=
  match u.items with
  | e :: _ =>
    match (s.ring e.1).items.find? (·.id == e.2) with
    | some i =>
      match i.body with
      | .record r => some r
      | _ => none
    | none => none
  | [] => none

/-- The stamps of a unit's span in one of its items, with their codes. -/
def State.itemStamps (s : State) (u : WorkUnit) (e : RingId × Nat) : List (Nat × Nat) :=
  match (s.ring e.1).items.find? (·.id == e.2) with
  | some i =>
    match i.body with
    | .stamps f es => (classify f es).filter fun w => decide (u.from_ ≤ w.2 ∧ w.2 < u.to_)
    | _ => []
  | none => []

/-- R298: what a unit gives a library reducer of mode 1: its record's outputs, or the stamps of its span, each with its code and, above it, the
place of its source. -/
def State.unitSeen (s : State) (x : Instance) (u : WorkUnit) : List (Nat × Int) :=
  match s.unitRecord u with
  | some r => r.cleanOutputs.filterMap fun y => y.map fun v => (0, v)
  | none =>
    ((List.range x.stampSources.length).zip x.stampSources).flatMap fun p =>
      (u.items.filter (·.1 == .stamps (Fin.ofNat 132 p.2))).flatMap fun e => (s.itemStamps u e).map fun w => (4 * p.1 + w.1, (w.2 : Int))

/-- Three free values. -/
def State.free3 (s : State) : (Fin 3 → U64) × State :=
  let (a, s) := s.free
  let (b, s) := s.free
  let (c, s) := s.free
  (fun i => if i = 0 then a else if i = 1 then b else c, s)

/-- R298: the results of a unit of a library reducer of mode 0, which are the module's own; of another image, what it emitted. -/
def State.unitBodies (s : State) (x : Instance) (u : WorkUnit) (out : List Bytes) (v : Fin 3 → U64) : List Bytes :=
  if x.imageSlot = 3 ∨ x.imageSlot = 4 ∨ x.imageSlot = 6 then
    match s.unitRecord u with
    | some r =>
      if x.imageSlot = 4 then (if r.kind = 4 then [edgeBody x.params r v] else [])
      else if x.imageSlot = 3 then [sineBody x.params r (s.vt80Units r.firstVt) v] else [featuresBody x.params r (s.vt80Units r.firstVt) v]
    | none => []
  else out

/-! ## Software faults (R308) -/

def State.modUnit (s : State) (k n : Nat) (f : WorkUnit → WorkUnit) : State :=
  s.modInst k fun x => { x with units := x.units.map fun u => if u.number = n then f u else u }

/-- So many words of free bytes. -/
def State.freeBody (s : State) : Nat → Bytes × State
  | 0 => ([], s)
  | n + 1 =>
    let (v, s) := s.free
    let r := s.freeBody n
    (w64 v.toNat ++ r.1, r.2)

/-- R297, R308: the body of the last result of a stopped instance: of a measurement R279's structure without a value, of a library reducer
so many bytes as its results have; what it holds besides is free. -/
def State.lastBody (s : State) (k : Nat) (x : Instance) : Bytes × State :=
  if x.measure then
    let c := x.front
    let stop := (x.units.map (·.to_)).foldl max c.gateFrom
    let (v, s) := s.free3
    let tick (t : Nat) : Nat := s.tickOfVt (vtOfNat ((t : Int) + c.shift).toNat)
    (measureBody (k % 1024) x (9 + 16 * boolNat (s.time.tsb.getLsbD 7)) (s.tsbOver (tick c.gateFrom) (tick stop)) c.gateFrom stop 0 0 (v 0).toInt
      (v 1).toNat (v 2).toNat (s.generationOf (tick c.gateFrom)) (s.generationOf (tick (stop - 1))), s)
  else
    s.freeBody (match x.imageSlot with
      | 3 => 5 | 4 => 5 | 5 => 2 + p16 x.params 2 / 2 | 6 => 5 | 7 => 7 | _ => 1)

/-- R308: sixteen poisoned units in a row: a last result, the event, and the instance stops. -/
def State.faultStop (s : State) (k : Nat) (code : Byte) : State :=
  match s.inst k with
  | some x =>
    let (b, s) := s.lastBody k x
    let s := (s.raise 0x530 (w16 (k % 1024) ++ [code]) [x.owner.val]).stopInstance k 2
    (s.modInst k fun y => { y with last := some (s.jr.generation, s.time.vtSec.toNat, b), gap := true }).serveInstance k
  | none => s

/-- R308, R325: a unit is poisoned; after sixteen in a row the instance stops. -/
def State.poisonUnit (s : State) (k n : Nat) (code : Byte) : State :=
  let s := s.modUnit k n fun v => { v with poisoned := true, faults := v.faults + 1 }
  let s := s.each (List.range 512) fun s o => s.modEngine o fun y => if y.running = some (k, n) then y.idle else y
  let s := s.modInst k fun x =>
    { x with unitsPoisoned := x.unitsPoisoned + 1, consecutivePoisoned := x.consecutivePoisoned + 1 }
  if ((s.inst k).map (·.consecutivePoisoned)).getD 0 = 16 then s.faultStop k code else s.serveInstance k

/-- R308, R309, R315: the unit an engine runs is to be issued again, in mode 2 to the next engine. -/
def State.giveBackUnit (s : State) (e : Nat) (fault : Bool) : State :=
  let s := match s.runningUnit e with
    | some (k, x, u) =>
      let s := s.modUnit k u.number fun v =>
        { v with issued := v.issued - 1, lastEngine := some e, faults := if fault then v.faults + 1 else v.faults }
      let s := s.modInst k fun y => { y with active := if y.mode = 2 then s.engineAfter x e else y.active }
      s.modEngine e fun y => { y with reissued := y.reissued + 1 }
    | none => s
  s.modEngine e Engine.idle

/-- R308: the unit of an engine faults: issued again, or poisoned on its second fault. -/
def State.softFault (s : State) (e : Nat) (code : Byte) : State :=
  match s.runningUnit e with
  | some (k, _, u) => if u.faults = 0 then s.giveBackUnit e true else (s.modEngine e Engine.idle).poisonUnit k u.number code
  | none => s

/-- A fault whose code the spec does not state: the code is a free value. -/
def State.softFaultFree (s : State) (e : Nat) : State :=
  let (v, s) := s.free
  s.softFault e (v.setWidth 8)

/-- R308: an illegal instruction, a bad access or a bad service call. -/
def execEngineSoftwareFault (t : Nat) (engine : Fin 512) (code : Byte) (s : State) : Host.Outcome State Fault Refusal :=
  .next (State.settle s (((s.advance t).pull engine.val).softFault engine.val code))

/-- R300, R308: ABORT. -/
def execAbort (t : Nat) (engine : Fin 512) (g1 : U32) (s : State) : Host.Outcome State Fault Refusal :=
  let s1 := (s.advance t).pull engine.val
  .next (State.settle s (if g1.toNat < 256 then s1.softFault engine.val (g1.setWidth 8) else s1.softFaultFree engine.val))

/-- R308: a unit has run longer than max_unit_cycles. -/
def effectEngineWatchdog (e : Fin 512) (s : State) : State :=
  match s.runningUnit e.val with
  | some (_, x, _) => if x.maxUnitCycles < s.clock - (s.engine e.val).startedAt then s.softFaultFree e.val else s
  | none => s

def execEngineWatchdog (t : Nat) (engine : Fin 512) (s : State) : Host.Outcome State Fault Refusal :=
  .next (State.settle s (effectEngineWatchdog engine (s.advance t)))

/-! ## Service calls (R300, R301) -/

/-- R300: registers a service call does not preserve hold free values after it; g1 holds what it returns. -/
def State.serviceReturn (s : State) (e : Nat) (g1 : U32) : State :=
  let s := s.each ((List.range 28).filter (· != 1)) fun s i =>
    let (v, s) := s.free
    s.modEngine e fun y => { y with g := vset y.g i (v.setWidth 32) }
  s.modEngine e fun y => { y with g := vset y.g 1 g1 }

/-- R300: FETCH: the next bytes of the unit's input, 8,192 at most, go to a window. -/
def effectFetch (e : Fin 512) (g1 : U32) (s : State) : State :=
  let s := s.pull e.val
  match s.runningUnit e.val with
  | some (_, _, u) =>
    if 1 < g1.toNat then s.softFaultFree e.val
    else
      let bytes := ((s.unitInput u).drop (s.engine e.val).fetchPos).take 8192
      let s := s.modEngine e.val fun y =>
        { y with fetchPos := y.fetchPos + bytes.length, mem := memWrite y.mem (0x18000 + 0x2000 * g1.toNat) bytes }
      s.serviceReturn e.val (BitVec.ofNat 32 bytes.length)
  | none => s

def execFetch (t : Nat) (engine : Fin 512) (g1 : U32) (s : State) : Host.Outcome State Fault Refusal :=
  .next (State.settle s (effectFetch engine g1 (s.advance t)))

/-- R296, R300: EMIT: a result body from the result buffer. -/
def effectEmit (e : Fin 512) (g1 : U32) (buffer : Bytes) (s : State) : State :=
  let s := s.pull e.val
  match s.runningUnit e.val with
  | some (_, x, _) =>
    let n := g1.toNat
    let s := s.modEngine e.val fun y => { y with mem := memWrite y.mem 0x1D000 (buffer.take 4096) }
    if x.resultMax < n then s.serviceReturn e.val 1
    else if n < 8 then s.softFaultFree e.val
    else (s.modEngine e.val fun y => { y with out := y.out ++ [(buffer ++ zeros n).take n] }).serviceReturn e.val 0
  | none => s

def execEmit (t : Nat) (engine : Fin 512) (g1 : U32) (buffer : Bytes) (s : State) : Host.Outcome State Fault Refusal :=
  .next (State.settle s (effectEmit engine g1 buffer (s.advance t)))

/-- R299, R300: UNIT_TIME: the VT96 of the unit's first input item is written at an address the engine may write. -/
def effectUnitTime (e : Fin 512) (g1 : U32) (s : State) : State :=
  let s := s.pull e.val
  match s.runningUnit e.val with
  | some (_, _, u) =>
    let a := g1.toNat
    let inside (lo hi : Nat) : Bool := decide (lo ≤ a ∧ a + 12 ≤ hi)
    if inside 0x10000 0x18000 || inside 0x1C000 0x1E000 || inside 0x1F000 0x20000 then
      (s.modEngine e.val fun y => { y with mem := memWrite y.mem a (vt96Bytes u.firstAt) }).serviceReturn e.val g1
    else s.softFaultFree e.val
  | none => s

def execUnitTime (t : Nat) (engine : Fin 512) (g1 : U32) (s : State) : Host.Outcome State Fault Refusal :=
  .next (State.settle s (effectUnitTime engine g1 (s.advance t)))

/-- R306: an engine whose own median exceeds twice the group's is slow. -/
def State.judgeSlow (s : State) (k e : Nat) : State :=
  let group := medianNat ((s.inst k).map (·.durations)).toList.flatten
  s.modEngine e fun y => { y with slow := decide (y.times.length = 64 ∧ 2 * group < medianNat y.times) }

/-- R306: the copies of a unit that are cancelled count with the time they ran. -/
def State.cancelCopies (s : State) (k n : Nat) : State :=
  s.each (List.range 512) fun s o =>
    if (s.engine o).running = some (k, n) then
      (s.modEngine o fun y => { y.idle with times := lastN 64 (y.times ++ [s.clock - y.startedAt]) }).judgeSlow k o
    else s

/-- R299: where END_UNIT takes its bytes from: the partial buffer in mode 1, the serial state in mode 2. -/
def Instance.endRegion (x : Instance) : Nat × Nat := if x.mode = 2 then (0x1F000, x.stateLen) else (0x1C000, x.partialLen)

/-- R294, R298, R299, R301, R306: END_UNIT: what stands in the partial buffer or the serial state is taken; the first of two completions is
accepted, the other cancelled. -/
def effectEndUnit (e : Fin 512) (given : Bytes) (s : State) : State :=
  let s := s.pull e.val
  match s.runningUnit e.val with
  | some (k, x, u) =>
    let took := s.clock - (s.engine e.val).startedAt
    let (v, s) := s.free3
    let out := s.unitBodies x u (s.engine e.val).out v
    let seen := if x.measure ∨ x.imageSlot = 5 ∨ x.imageSlot = 7 then s.unitSeen x u else []
    let region := x.endRegion
    let s := if x.mode = 0 then s else s.modEngine e.val fun y => { y with mem := memWrite y.mem region.1 (given.take region.2) }
    let taken := memRead (s.engine e.val).mem region.1 region.2
    let s := s.modEngine e.val fun y => { y.idle with unitsDone := y.unitsDone + 1, times := lastN 64 (y.times ++ [took]) }
    let s := s.modInst k fun x =>
      { x with unitsDone := x.unitsDone + 1, consecutivePoisoned := 0, durations := lastN 64 (x.durations ++ [took])
               serial := if x.mode = 2 then taken else x.serial }
    let s := s.cancelCopies k u.number
    let s := s.modUnit k u.number fun v => { v with accepted := true, bodies := out, part := if x.mode = 1 then taken else [], seen }
    (s.judgeSlow k e.val).serveInstance k
  | none => s

def execEndUnit (t : Nat) (engine : Fin 512) (partialOrState : Bytes) (s : State) : Host.Outcome State Fault Refusal :=
  .next (State.settle s (effectEndUnit engine partialOrState (s.advance t)))

/-- R306: a unit that runs for shed_factor times the group's median is issued a second time, once. -/
def effectUnitReissue (e : Fin 512) (s : State) : State :=
  match s.runningUnit e.val with
  | some (k, x, u) =>
    let ran := s.clock - (s.engine e.val).startedAt
    if x.mode ≠ 2 ∧ x.durations ≠ [] ∧ !u.wantDup ∧ x.shedFactor * medianNat x.durations ≤ ran then
      (s.modUnit k u.number fun v => { v with wantDup := true }).modEngine e.val fun y => { y with reissued := y.reissued + 1 }
    else s
  | none => s

def execUnitReissue (t : Nat) (engine : Fin 512) (s : State) : Host.Outcome State Fault Refusal :=
  .next (State.settle s (effectUnitReissue engine (s.advance t)))

/-! ## Gates (R271, R275, R294) -/

/-- R275: where a stop of a stream cuts a gate that starts at `g0`, of which the part from `a` is open up to `b`: just after its last stamp, or at
the stop where it has none in the gate. -/
def stopCut (g0 a b : Nat) (stop : Nat × Nat) : Option Nat :=
  let t := if g0 < stop.1 ∧ stop.1 ≤ stop.2 then stop.1 else stop.2
  if stop.2 < b ∧ a < t then some t else none

/-- R275: where the present gate of a cursor closes. -/
def State.gateStop (s : State) (x : Instance) (c : GateCursor) : Nat :=
  let whole := gateUnits x.gateMs (c.nextGate + 1)
  let cuts := (c.cuts ++ c.stop.toList).filter fun v => decide (c.gateFrom < v ∧ v < whole)
  let stops := x.stampSources.flatMap fun i => (s.source i).stops.filterMap fun e =>
    if e.1 = c.epoch then stopCut (gateUnits x.gateMs c.nextGate) c.gateFrom whole e.2 else none
  (cuts ++ stops).foldl min whole

/-- The units of the part of a gate that is open up to an instant. -/
def Instance.partUnits (x : Instance) (c : GateCursor) (stop : Nat) : List WorkUnit :=
  x.units.filter fun u => u.epoch == c.epoch && decide (u.from_ < stop)

/-- R275, R294: the present gate of an instance closes: its sources are complete to its end, nothing of its records is still to come, and
every unit up to there is accepted or poisoned. -/
def State.gateReady (s : State) (x : Instance) : Option Nat :=
  let c := x.front
  let stop := s.gateStop x c
  let end_ := vtOfNat ((stop : Int) + c.shift).toNat
  if x.state = 1 ∧ x.mode = 1 ∧ !c.over c.gateFrom ∧ vtLe end_ s.now ∧ s.completeTo x c stop
      ∧ (x.stampSources = [] ∨ stop ≤ c.nextSpan) ∧ !s.recordsDue x (min (s.tickOfVt end_) (c.stopTick.getD (s.tickOfVt end_)))
      ∧ (x.partUnits c stop).all WorkUnit.done then some stop
  else none

/-- R271, R275: the cursor moves on to where its gate was closed; behind the end of a stream at which its labels end nothing is left. -/
def State.nextPart (s : State) (x : Instance) (stop : Nat) (c : GateCursor) : GateCursor :=
  let whole := gateUnits x.gateMs (c.nextGate + 1)
  let at_ := if c.stop.any fun v => x.stampSources.any fun i => (s.source i).stops.contains (c.epoch, stop, v) then c.stop.getD stop else stop
  { c with gateFrom := at_, nextGate := if stop < whole then c.nextGate else c.nextGate + 1, partialRest := decide (stop < whole)
           cuts := c.cuts.filter fun v => decide (stop < v) }

/-- R294: the present gate of an instance has closed at an instant: its units leave, but for what those that stand across it saw behind it, and
the cursor moves on. -/
def State.gateClosed (s : State) (k stop : Nat) : State :=
  match s.inst k with
  | some x =>
    let c := x.front
    let left (u : WorkUnit) : Option WorkUnit :=
      if u.epoch ≠ c.epoch ∨ stop ≤ u.from_ then some u
      else if u.to_ ≤ stop then none
      else some { u with part := [], seen := u.seen.filter fun e => decide ((stop : Int) ≤ e.2) }
    let s := s.modInst k fun y => ({ y with units := y.units.filterMap left }.modFront (s.nextPart x stop)).trim
    s.withEntry x.journal fun s j => s.addUnits j 1
  | none => s

/-- R298: the results of a gate of a library reducer, which are the module's own; of another image, what its close entry emitted. -/
def State.gateBodies (s : State) (x : Instance) (stop : Nat) (out : List Bytes) (v : Fin 3 → U64) : List Bytes :=
  let c := x.front
  let inside (e : Nat × Int) : Bool := x.stampSources.isEmpty || decide ((c.gateFrom : Int) ≤ e.2 ∧ e.2 < stop)
  let seen := ((x.partUnits c stop).flatMap (·.seen)).filter inside
  if x.imageSlot = 5 then [histogramBody x.params seen]
  else if x.imageSlot = 7 then
    let lost := ((s.source (x.stampSources.headD 0)).lostEdges.filter fun e =>
      e.1 == c.epoch && decide (c.gateFrom ≤ vtNat e.2 ∧ vtNat e.2 < stop)).length
    [statisticsBody (p8 x.params 0) lost seen v]
  else out

/-- The room results take in a ring. -/
def bodiesSize (l : List Bytes) : Nat := (l.map fun b => 16 + (b.length + 7) / 8 * 8).sum

/-- R294, R297, R300: a gate closes: its partials stand in the combiner's window 0, its close entry is called, and they fold into its results. -/
def effectEngineGateClose (inst : Fin 1024) (bodies : List Bytes) (s : State) : State :=
  let k := s.gateKey inst.val
  let s := s.formUnits k
  match s.inst k with
  | some x =>
    match s.gateReady x, s.combiner x with
    | some stop, some e =>
      let mine := x.partUnits x.front stop
      let (v, s) := s.free3
      let out := (s.gateBodies x stop bodies v).filter fun b => decide (8 ≤ b.length ∧ b.length ≤ x.resultMax)
      let ring := resultRing (k % 1024)
      if x.measure then s
      else if !(s.ring ring).hasRoom (bodiesSize out) then s.modRing ring fun q => { q with waiting := true }
      else
        let gen := (mine.getLast?.map (·.gen)).getD s.jr.generation
        let first := (mine.head?.map (·.genFirst)).getD gen
        let s := (s.initEngine k e).modEngine e fun y => { y with mem := memWrite y.mem 0x18000 (((mine.map (·.part)).flatten).take 8192) }
        let s := s.enterImage e x 2
        let s := s.modInst k fun x => { x with gap := x.gap || mine.any (·.poisoned) }
        let s := out.foldl (fun s b => (s.pushResult k first gen ((mine.head?.map (·.firstAt.sec.toNat)).getD s.time.vtSec.toNat) b).2) s
        (s.gateClosed k stop).serveInstance k
    | _, _ => s
  | none => s

def execEngineGateClose (t : Nat) (inst : Fin 1024) (bodies : List Bytes) (s : State) : Host.Outcome State Fault Refusal :=
  .next (State.settle s (effectEngineGateClose inst bodies (s.advance t)))

/-! ## Hardware faults (R40, R309, R310) -/

/-- R310: an instance none of whose engines can run work stops. -/
def State.stopWithoutEngines (s : State) (k : Nat) : State :=
  match s.inst k with
  | some x => if x.state = 1 ∧ (s.groupUp x).isEmpty then (s.stopInstance k 2).serveInstance k else s
  | none => s

/-- R309: an engine retires; its unit is issued again; an instance without engines stops. How many errors it has corrected until then no row
tells (log entry 248). -/
def effectEngineHardwareFault (e : Fin 512) (s : State) : State :=
  if (s.engine e.val).retired then s
  else
    let (v, s) := s.free
    let s := (s.giveBackUnit e.val false).modEngine e.val fun y => { y with retired := true, selfTested := false, eccCorrected := v.setWidth 32 }
    let s := s.raise (sheafEvent (engineSheaf e.val) 6) (w16 e.val) [s.engineOwner e.val]
    s.each (s.instancesOf e.val) State.stopWithoutEngines

def execEngineHardwareFault (t : Nat) (engine : Fin 512) (s : State) : Host.Outcome State Fault Refusal :=
  .next (State.settle s (effectEngineHardwareFault engine (s.advance t)))

/-- R310: the instances of a node stop. -/
def State.stopNode (s : State) (n : Nat) : State :=
  s.each ((s.insts.filter fun x => x.2.node == n && x.2.state == 1).map (·.1)) fun s k => (s.stopInstance k 3).serveInstance k

/-- R40, R582: a node fails: its engines stop, its channels go on. -/
def effectNodeFault (node : Fin 8) (s : State) : State :=
  if (vget s.nodes node.val).failed then s
  else
    let s := { s with nodes := vmod s.nodes node.val fun x => { x with failed := true } }
    ((s.stopNode node.val).raise 0x501 (w8 node.val)).raise 0x5E2 (w8 4 ++ w8 1 ++ w16 node.val)

def execNodeFault (t : Nat) (node : Fin 8) (s : State) : Host.Outcome State Fault Refusal :=
  .next (State.settle s (effectNodeFault node (s.advance t)))

/-! ## Ring writers (R217) -/

/-- R217: a waiting writer goes on when there is room. -/
def effectRingWriterResume (ring : RingId) (s : State) : State :=
  if !(s.ring ring).waiting then s
  else
    match ring with
    | .record c => s.drainOne c.val
    | .circular c => s.drainOne c.val
    | .stamps i => if (s.ring ring).hasRoom 8 then s.modSource i.val fun x => { x with ring := { x.ring with waiting := false } } else s
    | .results i => (if (s.ring ring).hasRoom 1 then s.modRing ring fun q => { q with waiting := false } else s).serveInstance i.val

def execRingWriterResume (t : Nat) (ring : RingId) (s : State) : Host.Outcome State Fault Refusal :=
  .next (State.settle s (effectRingWriterResume ring (s.advance t)))

end Sys2Proof.Machine
end

