-- ==== Sys2Proof/Machine/Measure.lean ====
section
/-! DEFINITION. Measurements (R271 to R279, R285): cycle assignment, the regression in float64, phase and round trip, the
closing of a gate, and MEASURE_CONFIG. -/

namespace Sys2Proof.Machine

/-! ## float64 (round to nearest, ties to even, on exact rationals) -/

/-- Two to an integer power. -/
def pow2 (e : Int) : Rat := if 0 ≤ e then ((2 ^ e.toNat : Nat) : Rat) else 1 / ((2 ^ (-e).toNat : Nat) : Rat)

/-- A non-negative rational rounded to an integer, ties to even. -/
def roundEven (q : Rat) : Nat :=
  let n := q.floor.toNat
  let r := q - (n : Rat)
  if r < 1 / 2 then n else if 1 / 2 < r then n + 1 else n + n % 2

/-- The exponent of the last place of a positive rational in 53 bits. -/
def lastPlace (a : Rat) : Int :=
  let e : Int := (Nat.log2 a.num.natAbs : Int) - (Nat.log2 a.den : Int) - 52
  if a < pow2 (e + 52) then e - 1 else if pow2 (e + 53) ≤ a then e + 1 else e

/-- A rational rounded to 53 bits. -/
def f64 (x : Rat) : Rat :=
  if x = 0 then 0
  else
    let a := if x < 0 then -x else x
    let e := lastPlace a
    let r := (roundEven (a / pow2 e) : Rat) * pow2 e
    if x < 0 then -r else r

/-- The square root of a rational, rounded to 53 bits. -/
def sqrt64 (x : Rat) : Rat :=
  if x ≤ 0 then 0
  else
    let k : Nat := 70 + (Nat.log2 x.den - Nat.log2 x.num.natAbs) / 2 + 1
    let y := x * ((4 ^ k : Nat) : Rat)
    let n := Nat.sqrt y.floor.toNat
    let exact := ((n * n : Nat) : Rat) = y
    f64 (((2 * n + (if exact then 0 else 1) : Nat) : Rat) / ((2 ^ (k + 1) : Nat) : Rat))

/-- A rational rounded to the nearest integer, ties upward. -/
def roundRat (q : Rat) : Int := (q + 1 / 2).floor

/-! ## The fit (R272, R273) -/

/-- R272: what one class has seen: the last stamp and its index, and what is assigned. -/
structure ClassState where
  last : Option (Nat × Int) := none
  assigned : List (Int × Int) := []
  unassigned : Nat := 0

/-- R273: the nominal period in units of 2⁻⁶⁴ s. -/
def nominalPeriod (f : Nat) : Nat := (2 ^ 64 * 1000 + f / 2) / f

/-- R272, R273: one stamp: its cycle index, and the centred index and residual where it is assigned. -/
def ClassState.stamp (c : ClassState) (f g0 : Nat) (nm : Int) (t : Nat) : ClassState :=
  let cycles (d : Int) : Rat := (d : Rat) * (f : Rat) / ((1000 * 2 ^ 48 : Nat) : Rat)
  let entry (n : Int) : Int × Int := (n - nm, ((t : Int) - g0) * 65536 - n * (nominalPeriod f : Int))
  match c.last with
  | none =>
    let n := roundRat (cycles ((t : Int) - g0))
    { c with last := some (t, n), assigned := [entry n] }
  | some (tp, np) =>
    let q := cycles ((t : Int) - tp)
    let n := np + roundRat q
    let off := q - (roundRat q : Rat)
    if off < -(1 / 4) ∨ 1 / 4 < off then { c with last := some (t, n), unassigned := c.unassigned + 1 }
    else { c with last := some (t, n), assigned := entry n :: c.assigned }

/-- The fit of one source over a gate: period less nominal, y, its uncertainty, the intercepts of the classes used, the
residual variance, the sum of squares and the counts. -/
structure Fit where
  pq : Nat
  b : Rat
  y : Rat
  u : Rat
  a : List Rat
  s2 : Rat
  squares : Rat
  counts : List Nat
  assigned : Nat
  unassigned : Nat
  stamps : Nat
  ok : Bool

def sumInt (l : List (Int × Int)) (f : Int × Int → Int) : Int := (l.map f).sum

/-- R272, R273: fit a source. -/
def fitSource (f gateMs g0 slopes : Nat) (stamps : List (Nat × Nat)) : Fit :=
  let pq := nominalPeriod f
  let nm : Int := ((gateMs * 2 ^ 64 / 2000 / pq : Nat) : Int)
  let classes := if slopes = 2 then [0, 1] else [slopes]
  let cs := classes.map fun c => (stamps.filter (·.1 == c)).foldl (fun x e => x.stamp f g0 nm e.2) ({} : ClassState)
  let lists := cs.map fun c => c.assigned.reverse
  let fl (i : Int) : Rat := f64 (i : Rat)
  let enough := lists.all fun l => decide (16 ≤ l.length)
  let sxx := lists.foldl (fun acc l =>
    let sn := fl (sumInt l (·.1))
    f64 (acc + f64 (fl (sumInt l fun e => e.1 * e.1) - f64 (f64 (sn * sn) / fl l.length)))) 0
  let sxy := lists.foldl (fun acc l =>
    f64 (acc + f64 (fl (sumInt l fun e => e.1 * e.2)
      - f64 (f64 (fl (sumInt l (·.1)) * fl (sumInt l (·.2))) / fl l.length)))) 0
  let b := if sxx = 0 then 0 else f64 (sxy / sxx)
  let per := f64 (fl pq + b)
  let y := f64 (-b / per)
  let a := lists.map fun l => f64 (f64 (fl (sumInt l (·.2)) - f64 (b * fl (sumInt l (·.1)))) / fl l.length)
  let squares := (lists.zip a).foldl (fun acc e => e.1.foldl (fun acc p =>
    let r := f64 (f64 (fl p.2 - e.2) - f64 (b * fl p.1))
    f64 (acc + f64 (r * r))) acc) (0 : Rat)
  let n : Nat := (lists.map (·.length)).sum
  let s2 := f64 (squares / fl (Int.ofNat n - 1 - Int.ofNat classes.length))
  let lim : Rat := 1 / 1000000
  { pq, b, y, u := f64 (sqrt64 (f64 (s2 / sxx)) / per), a, s2, squares, counts := lists.map (·.length), assigned := n
    unassigned := (cs.map (·.unassigned)).sum, stamps := stamps.length
    ok := enough && sxx != 0 && decide (-lim ≤ y ∧ y ≤ lim) }

/-! ## Phase and round trip (R276, R278) -/

/-- The intercept a phase uses, with the number of its stamps: class 0, or class 1 when only falling edges are used. -/
def Fit.intercept (x : Fit) : Rat := (x.a.head?).getD 0
def Fit.firstCount (x : Fit) : Nat := (x.counts.head?).getD 1

/-- A modulus of rationals in [0, m). -/
def ratMod (x m : Rat) : Rat := x - m * ((x / m).floor : Rat)

/-- R276: the delay of b behind a and its uncertainty, seconds. -/
def phaseOf (a b : Fit) : Rat × Rat :=
  let unit : Rat := 1 / ((2 ^ 64 : Nat) : Rat)
  let d := f64 (ratMod (f64 (b.intercept - a.intercept)) (f64 ((a.pq : Rat) + a.b)))
  let u := sqrt64 (f64 (f64 (a.s2 / a.firstCount) + f64 (b.s2 / b.firstCount)))
  (d * unit, u * unit)

/-- R278: the delay of a round trip from the two phases, seconds. -/
def roundTrip (f1 f2 : Nat) (d1 d2 : Rat) : Rat :=
  let hz (f : Nat) : Rat := (f : Rat) / 1000
  let p1 := f64 (d1 * hz f1)
  let p2 := f64 (d2 * hz f2)
  let ph := f64 (ratMod (if f1 < f2 then f64 (p2 - p1) else f64 (p1 - p2)) 1)
  let tc := f64 (ph / f64 (f64 ((((f2 : Int) - f1).natAbs : Nat) : Rat) / 1000))
  let m := roundRat (f64 (f64 (tc - d1) * hz f1))
  f64 (d1 + f64 ((m : Rat) / hz f1))

/-! ## Closing a gate (R275, R279) -/

/-- What closing a gate has found, before it becomes a result; the generations are those of its start and of its end. -/
structure GateSums where
  fits : List Fit
  flags : Nat
  tsb : Byte
  start : Nat
  stop : Nat
  gen1 : U32
  gen2 : U32

/-- R269, R271: the stamps of the source at a place of the inputs, with their classes, from one instant up to another, of the slopes used. -/
def stampsSeen (units : List WorkUnit) (place a b slopes : Nat) : List (Nat × Nat) :=
  let used (e : Nat × Int) : Bool := e.1 / 4 == place && decide ((a : Int) ≤ e.2 ∧ e.2 < (b : Int)) && (slopes == 2 || e.1 % 2 == slopes)
  ((units.flatMap (·.seen)).filter used).map fun e => (e.1 % 2, e.2.toNat)

/-- R272 to R275, R297: the fits and flags of the part of the present gate up to an instant; one that holds a poisoned unit has no value. -/
def State.sumGate (s : State) (x : Instance) (f stop : Nat) : GateSums :=
  let c := x.front
  let units := x.partUnits c stop
  let g0 := gateUnits x.gateMs c.nextGate
  let from_ := max c.gateFrom (g0 + unitsOfUs x.guardUs)
  let fits := (List.range x.stampSources.length).map fun i => fitSource f x.gateMs g0 x.slopes (stampsSeen units i from_ stop x.slopes)
  let un := (fits.map (·.unassigned)).sum
  let all := (fits.map (·.stamps)).sum
  let lost := x.stampSources.any fun i => (s.source i).lostEdges.any fun e =>
    e.1 == c.epoch && decide (c.gateFrom ≤ vtNat e.2 ∧ vtNat e.2 < stop)
  let tick (t : Nat) : Nat := s.tickOfVt (vtOfNat ((t : Int) + c.shift).toNat)
  let tsb := s.tsbOver (tick c.gateFrom) (tick stop)
  let bad := !fits.all (·.ok) || units.any (·.poisoned)
  let cut := c.partialRest || decide (stop < gateUnits x.gateMs (c.nextGate + 1))
  { fits, tsb, start := c.gateFrom, stop, gen1 := s.generationOf (tick c.gateFrom), gen2 := s.generationOf (tick (stop - 1))
    flags := boolNat cut + 2 * boolNat (decide (all < 100 * un)) + 4 * boolNat lost + 8 * boolNat bad + 16 * boolNat (tsb.getLsbD 7) }

def GateSums.ok (g : GateSums) : Bool := !(g.flags.testBit 3)
def GateSums.used (g : GateSums) : Nat := (g.fits.map (·.assigned)).sum
def GateSums.unassigned (g : GateSums) : Nat := (g.fits.map (·.unassigned)).sum
def GateSums.stamps (g : GateSums) : Nat := (g.fits.map (·.stamps)).sum

/-- RMS of residuals, in units of 2⁻⁶⁴ s. -/
def GateSums.rms (g : GateSums) : Rat := sqrt64 (f64 ((g.fits.map (·.squares)).sum / (max g.used 1 : Nat)))

/-- The phase of a gate with two sources. -/
def GateSums.phase (g : GateSums) : Rat × Rat :=
  match g.fits with
  | a :: b :: _ => phaseOf a b
  | _ => (0, 0)

/-- Femtoseconds of a number of 2⁻⁶⁴ s, and of seconds, rounded to nearest. -/
def fsOf64 (r : Rat) : Nat := (roundRat (r * 1000000000000000 / ((2 ^ 64 : Nat) : Rat))).toNat
def fsOfSec (r : Rat) : Int := roundRat (r * 1000000000000000)
def attoOf (r : Rat) : Int := roundRat (r * 1000000000000000000)

/-- The result of a closed gate, with the values where there are any; without, those fields are free. -/
def State.measureResult (s : State) (k : Nat) (x : Instance) (flags : Nat) (tsb : Byte) (start stop used unassigned : Nat)
    (value : Option (Int × Nat × Nat)) (gen1 gen2 : U32) : State :=
  let (v, s) := s.free3
  let (value, u, r) := value.getD ((v 0).toInt, (v 1).toNat, (v 2).toNat)
  (s.pushResult k gen1 gen2 (start / 2 ^ 48) (measureBody (k % 1024) x flags tsb start stop used unassigned value u r gen1 gen2)).2

/-- The result of a frequency or phase gate. -/
def State.plainResult (s : State) (k : Nat) (x : Instance) (g : GateSums) : State :=
  let value : Option (Int × Nat × Nat) :=
    if !g.ok then none
    else if x.kind = 1 then
      g.fits.head?.map fun f => (attoOf f.y, (attoOf f.u).toNat, fsOf64 g.rms)
    else some (fsOfSec g.phase.1, (fsOfSec g.phase.2).toNat, fsOf64 g.rms)
  s.measureResult k x g.flags g.tsb g.start g.stop g.used g.unassigned value g.gen1 g.gen2

def State.keepEven (s : State) (k : Nat) (e : Option EvenGate) : State :=
  s.modInst k fun y => y.modFront fun c => { c with even := e }

/-- R278: an even gate is kept; an odd gate after it gives the result of the pair. -/
def State.pairGate (s : State) (k : Nat) (x : Instance) (g : GateSums) : State :=
  let gate := x.front.nextGate
  if gate % 2 = 0 then
    s.keepEven k (some
      { gate, value := if g.ok then some g.phase else none, used := g.used, unassigned := g.unassigned
        stamps := g.stamps, flags := g.flags, tsb := g.tsb, start := g.start, gen := g.gen1, residual := g.rms })
  else
    match x.front.even with
    | some e =>
      if e.gate + 1 ≠ gate then s
      else
        let un := e.unassigned + g.unassigned
        let many := boolNat (decide (e.stamps + g.stamps < 100 * un))
        let flags := ((e.flags ||| g.flags) &&& 0x1D) + 2 * many
        let value := match e.value with
          | some (d1, u) =>
            if g.ok then some (fsOfSec (roundTrip x.f1 x.f2 d1 g.phase.1), (fsOfSec u).toNat, fsOf64 e.residual) else none
          | none => none
        (s.measureResult k x flags (tsbJoin e.tsb g.tsb) e.start g.stop (e.used + g.used) un value e.gen g.gen2).keepEven k none
    | none => s

/-- R275 to R279, R294, R297: a gate of a measurement closes once its sources are complete to its end and its units are accepted. -/
def effectGateClose (inst : Fin 1024) (s : State) : State :=
  let k := s.gateKey inst.val
  let s := s.formUnits k
  match s.inst k with
  | some x =>
    match s.gateReady x, s.combiner x with
    | some stop, some e =>
      let ring := resultRing (k % 1024)
      if !x.measure then s
      else if (x.kind ≠ 3 ∨ x.front.nextGate % 2 = 1) ∧ !(s.ring ring).hasRoom 80 then s.modRing ring fun q => { q with waiting := true }
      else
        let g := s.sumGate x (if x.kind = 3 ∧ x.front.nextGate % 2 = 1 then x.f2 else x.f1) stop
        let s := (s.initEngine k e).enterImage e x 2
        let s := s.modInst k fun y => { y with gap := y.gap || (x.partUnits x.front stop).any (·.poisoned) }
        let s := if x.kind = 3 then s.pairGate k x g else s.plainResult k x g
        (s.gateClosed k stop).serveInstance k
    | _, _ => s
  | none => s

def execGateClose (t : Nat) (inst : Fin 1024) (s : State) : Host.Outcome State Fault Refusal :=
  .next (State.settle s (effectGateClose inst (s.advance t)))

/-! ## Creating and deleting instances (R289 to R291, R295, R310) -/

/-- R290: the engines a tenant can give to an instance: bound, in service, held by no other live instance. -/
def State.spareEngines (s : State) (tenant k : Nat) : List Nat :=
  (List.range 512).filter fun e =>
    s.engineOwner e == tenant && s.engineUp e
      && !(s.insts.any fun x => x.1 % 1024 != k && x.2.state == 1 && !x.2.ended && x.2.engines.contains e)

/-- R290: the node of an automatic group: the one with most such engines, the lowest on a tie. -/
def bestNode (l : List Nat) : Nat :=
  let n (i : Nat) : Nat := (l.filter fun e => engineNode e == i).length
  (List.range 8).foldl (fun b i => if n b < n i then i else b) 0

/-- R290: take a group. -/
def State.takeGroup (s : State) (tenant k node count : Nat) : Except Status (Nat × List Nat) :=
  if node < 8 && s.nodeOut node then .error .degraded
  else
    let l := s.spareEngines tenant k
    let node := if node < 8 then node else bestNode l
    let mine := l.filter fun e => engineNode e == node
    if mine.length < count then .error .exhausted else .ok (node, mine.take count)

/-- R289: the instance that holds a number: one that was deleted holds none. -/
def State.liveInst (s : State) (i : Nat) : Option Instance := (s.inst i).filter fun x => !x.deleted

/-- R292: the tenant owns the ring of an input of instance `own`; a result ring is another instance's. -/
def State.ownsInput (s : State) (tenant own : Nat) (i : InstInput) : Bool :=
  match i.ring with
  | some r => s.ringOwner r == tenant && (match r with
      | .results k => k.val != own && (s.liveInst k.val).isSome
      | _ => true)
  | none => true

/-- R292: a channel has the ring an input names: a record ring in modes 1 and 5, a circular or continuous one in modes 2 and 3. -/
def State.hasInput (s : State) (i : InstInput) : Bool :=
  let mode := (s.chan i.index).capture.mode
  match i.kind with
  | 1 => mode == 1 || mode == 5
  | 2 => mode == 2 || mode == 3
  | _ => true

/-- R295: a version of an instance takes nothing that begins at S or later. -/
def State.endVersion (s : State) (x : Instance) : Instance :=
  { x with ended := true, cursor := x.cursor.endAt (vtNat (vtSecond s.time.vtSec)) s.time.secStart }

/-- R289, R295, R310: an instance is deleted at S: its number, its engines and its registrations are free and its journal entry is complete; the
units before S finish. -/
def State.deleteInstance (s : State) (i : Nat) : State :=
  match s.liveInst i with
  | some x =>
    let s := s.deregisterInst i
    let s := s.withEntry x.journal State.completeEntry
    (s.modInst i fun x => { s.endVersion x with deleted := true, journal := none }).serveInstance i
  | none => s

/-- R295: an instance is replaced at S: the version that stands there moves to a key of its own, and with it what engines run of it. -/
def State.replaceInstance (s : State) (i : Nat) (x : Instance) : State :=
  let k := 1024 + ((s.versionKeys i).dropLast.getLast?.getD i)
  let moved (r : Option (Nat × Nat)) : Option (Nat × Nat) := r.map fun e => if e.1 = i then (k, e.2) else e
  let s := { s with insts := aset s.insts k { s.endVersion x with ring := {} } }
  s.each x.engines fun s e => s.modEngine e fun y => { y with running := moved y.running, prefetched := moved y.prefetched }

/-- R293, R295, R296, R482: an instance at S: its consumers are registered and its journal entry made. One that replaces another takes over
its ring and the sequence of its results, and the gate that is open at S goes on under it from there (R275). -/
def State.addInstance (s : State) (f : Frame) (opcode i : Nat) (x : Instance) : State :=
  let at_ := vtNat (vtSecond s.time.vtSec)
  let s := if ((s.inst i).map (·.deleted)).getD false then s.each (s.versionKeys i) State.removeInstance else s
  let old := s.inst i
  let s := match old with
    | some o => if o.state = 1 then s.replaceInstance i o else s.deregisterInst i
    | none => s
  let (j, s) := match s.newEntry (s.workEntry f.tenant.val f.seq opcode 0) with
    | some (j, s) => (some j, s)
    | none => (none, s)
  let x : Instance := { x with
    startTick := s.time.secStart, journal := j
    cursor := if old.isSome then GateCursor.goOn x s.time.labelChanges at_ else GateCursor.begin x s.time.labelChanges at_
    ring := (old.map (·.ring)).getD {}, resultSeq := (old.map (·.resultSeq)).getD 0, results := (old.map (·.results)).getD 0 }
  let s := { s with insts := aset s.insts i x }
  s.each (x.inputs.filterMap InstInput.ring) fun s r => s.modRing r (·.register (instConsumer i))

/-- R300: init on every engine of the group that runs nothing of an earlier version; on the others before their first unit. -/
def State.initEngines (s : State) (i : Nat) : State :=
  s.each ((s.inst i).map (·.engines)).toList.flatten fun s e => if (s.engine e).running.isSome then s else s.initEngine i e

/-! ## MEASURE_CONFIG (R285, R291) -/

def gateMsOk (g : Nat) : Bool := inRange 1 g 1000000 && (1000 % g == 0 || g % 1000 == 0)

/-- R291: the engines of a measurement. -/
def measureEngines (kind slopes f1 f2 : Nat) : Nat :=
  let r := (if kind = 1 then 1 else 2) * (if slopes = 2 then 2 else 1) * max f1 f2
  (r + 12800000000 - 1) / 12800000000 + 1

/-- R285: the sources in a payload. -/
def measureSources (p : Bytes) : List Nat := if p8 p 2 = 1 then [p16 p 4] else [p16 p 4, p16 p 6]

def measureOf (f : Frame) (node : Nat) (engines : List Nat) : Instance :=
  let p := f.payload
  { owner := f.tenant, imageSlot := p8 p 2 - 1, reducerId := BitVec.ofNat 32 (p8 p 2), mode := 1, measure := true, kind := p8 p 2
    slopes := p8 p 3, f1 := p64 p 8, f2 := p64 p 16, gateMs := p32 p 24, guardUs := p32 p 28
    inputs := (measureSources p).map fun i => { kind := 3, index := i }, engines, node
    resultStook := sourceStook (p16 p 4), resultPages := p16 p 32 }

/-- R285: the fields of MEASURE_CONFIG. -/
def measureFields (p : Bytes) : List (Nat × Bool) :=
  let k := p8 p 2
  if k = 0 then
    [(0, decide (p16 p 0 < 1024)), (3, zeroAt p 3 1), (4, zeroAt p 4 2), (6, zeroAt p 6 2), (8, zeroAt p 8 8), (16, zeroAt p 16 8)
    , (24, zeroAt p 24 4), (28, zeroAt p 28 4), (32, zeroAt p 32 2), (34, zeroAt p 34 14)]
  else
    [(0, decide (p16 p 0 < 1024)), (2, decide (k ≤ 3)), (3, decide (p8 p 3 ≤ 2)), (4, decide (p16 p 4 < 132))
    , (6, if k = 1 then p16 p 6 == 0xFFFF else decide (p16 p 6 < 132))
    , (8, inRange 1000 (p64 p 8) 25000000000 && !(p8 p 3 == 2 && decide (12500000000 < p64 p 8)))
    , (16, if k = 3 then inRange 1000 (p64 p 16) 25000000000 && p64 p 16 != p64 p 8 else p64 p 16 == 0)
    , (24, gateMsOk (p32 p 24)), (28, decide (p32 p 28 ≤ 499999) && decide (2 * p32 p 28 < p32 p 24 * 1000))
    , (32, inRange 1 (p16 p 32) 64), (34, zeroAt p 34 14)]

/-- R289: the tenant may set an instance: none holds the number, or one of its own. -/
def State.instanceFree (s : State) (f : Frame) (i : Nat) : Bool := ((s.liveInst i).map fun x => x.owner == f.tenant).getD true

def measureConfigCmd : Cmd :=
  { kind := .staged
    rights := fun f s =>
      p8 f.payload 2 == 0 || ((measureSources f.payload).filter (decide <| · < 132)).all fun i =>
        s.sourceOwner i == f.tenant.val || s.promisedSource f.tenant.val i
    check := fun f _ => layout f.payload 48 (measureFields f.payload)
    apply := fun f s =>
      let p := f.payload
      let i := p16 p 0
      if !s.instanceFree f i then .error .notOwnerState
      else if p8 p 2 = 0 then .ok (s.deleteInstance i)
      else if !((measureSources p).all fun i => s.sourceOwner i == f.tenant.val) then .error .notOwnerState
      else if (measureSources p).any fun c => decide (c < 128) && (s.chanIsolated c || s.chanNodeDown c) then .error .degraded
      else do
        let (node, es) ← s.takeGroup f.tenant.val i 0xFF (measureEngines (p8 p 2) (p8 p 3) (p64 p 8) (p64 p 16))
        .ok ((s.addInstance f 0x0705 i (measureOf f node es)).initEngines i)
    keys := fun p => [p16 p 0] }

end Sys2Proof.Machine
end

