-- ==== Sys2Proof/Machine/EngineCmds.lean ====
section
/-! DEFINITION. The commands of chapter 08 (R302 to R304, R311 to R318): engines, images, keys and reducer instances. -/

namespace Sys2Proof.Machine

/-! ## ENGINE_ASSIGN (R288, R312) -/

/-- The engines of the mask of ENGINE_ASSIGN. -/
def assignEngines (p : Bytes) : List Nat := bitsOf (maskAt 512 p 0 64)

/-- Live instances that hold one of a list of engines and are not a tenant's. -/
def State.heldBy (s : State) (es : List Nat) (tenant : Nat) : List Nat :=
  (s.insts.filter fun x => x.2.state == 1 && !x.2.ended && x.2.owner != ten tenant && x.2.engines.any es.contains).map (·.1)

/-- R288: an engine passes to an owner, stopped and cleared. -/
def State.assignEngine (s : State) (e tenant : Nat) : State :=
  if s.engineOwner e = tenant then s
  else
    let s := (s.giveBackUnit e false).modEngine e fun y =>
      { y with times := [], slow := false, g := Vector.replicate 32 0, acc := Vector.replicate 8 0, mem := [] }
    { s with own := { s.own with engine := vset s.own.engine e (ten tenant) } }

/-- R312. -/
def engineAssignCmd : Cmd :=
  { kind := .staged, steward := true
    check := fun f _ => layout f.payload 68 [(65, decide (p8 f.payload 65 ≤ 1)), (66, zeroAt f.payload 66 2)]
    apply := fun f s =>
      let p := f.payload
      let es := assignEngines p
      let held := s.heldBy es (p8 p 64)
      if p8 p 65 = 0 ∧ held ≠ [] then .error .busy
      else .ok ((s.each held State.deleteInstance).each es fun s e => s.assignEngine e (p8 p 64))
    final := fun f s => receiverActive (p8 f.payload 64) s
    keys := fun p => assignEngines p
    without := clearMask 64 }

/-! ## Images (R302 to R304, R313, R318) -/

/-- The fields of an image file's header. -/
def imageMode (b : Bytes) : Nat := p8 b 16
def imageKey (b : Bytes) : Nat := p8 b 17
def imageParamLen (b : Bytes) : Nat := p16 b 44

/-- R302: whether a file is an image of so many bytes. -/
def imageOk (b : Bytes) (len : Nat) : Bool :=
  let code := p32 b 20
  let data := p32 b 24
  let entry (i : Nat) : Nat := p32 b (32 + 4 * i)
  b.length == len && decide (128 ≤ len ∧ len ≤ 98432) && part b 0 4 == [0x46, 0x4C, 0x49, 0x4D] && p16 b 4 == 1 && p16 b 6 == 1
    && decide (1 ≤ p32 b 8) && decide (p8 b 16 ≤ 2) && decide (p8 b 17 ≤ 8) && zeroAt b 18 2 && inRange 4 code 65536
    && code % 4 == 0 && decide (data ≤ 32768) && decide (data ≤ p32 b 28 ∧ p32 b 28 ≤ 32768) && len == 128 + code + data
    && decide (entry 0 < code) && decide (entry 1 < code) && (if p8 b 16 = 1 then decide (entry 2 < code) else entry 2 == 0)
    && decide (p16 b 44 ≤ 256) && decide (p16 b 46 ≤ 4096) && decide (p16 b 48 ≤ 4096) && inRange 8 (p16 b 50) 4096
    && decide (1000 ≤ p32 b 52) && zeroAt b 56 8

/-- R303: a customer image verifies under an enrolled key. -/
def State.imageSigned (s : State) (b : Bytes) : Bool :=
  match aget s.keys (imageKey b) with
  | some key => inRange 1 (imageKey b) 8 && ed25519Verify key (b.take 64 ++ b.drop 128) (part b 64 64)
      && decide (0x10000 ≤ p32 b 8)
  | none => false

def State.image (s : State) (slot : Nat) : Option ImageSlot := aget s.images slot

/-- R304: a live instance runs from a slot. -/
def State.slotLive (s : State) (slot : Nat) : Bool := s.insts.any fun x => x.2.state == 1 && !x.2.deleted && x.2.imageSlot == slot && !x.2.measure

/-- R313: the rights on a slot: it is free, or the tenant's. -/
def State.slotOf (s : State) (f : Frame) (slot : Nat) : Bool := ((s.image slot).map fun x => x.owner == f.tenant).getD true

/-- Bytes written over the staging copy at a block. -/
def stageBlock (l : List (Nat × Bytes)) (off : Nat) (b : Bytes) : List (Nat × Bytes) :=
  aset l off (b ++ ((aget l off).getD []).drop b.length)

/-- The staging copy as a file of so many bytes; shorter where a part was never loaded. -/
def stagedFile (l : List (Nat × Bytes)) (len : Nat) : Bytes :=
  ((List.range ((len + 4095) / 4096)).foldl (fun b i =>
    if b.length = 4096 * i then b ++ (aget l (4096 * i)).getD [] else b) []).take len

/-- Work done as it is executed: its entry is complete at once. -/
def State.doneAtOnce (s : State) (f : Frame) (opcode units : Nat) : Except Reply (Nat × State) := do
  let (j, s) ← s.startWork f opcode units
  .ok (j, s.completeAll j)

/-- 4 KiB blocks of a length. -/
def blocksOf (n : Nat) : Nat := (n + 4095) / 4096

def notLive (slot : Nat) (s : State) : Except Reply Unit := require (!s.slotLive slot) (refuse .busy)

/-- R313. -/
def imageLoadCmd : Cmd :=
  { kind := .immediate, rights := fun f s => s.slotOf f (p8 f.payload 0)
    check := fun f s => do
      let p := f.payload
      require (inRange 9 p.length 4104) (badParam headerField)
      fields [(0, inRange 16 (p8 p 0) 63), (1, zeroAt p 1 3), (4, p32 p 4 % 4096 == 0 && decide (p32 p 4 + p.length - 8 ≤ 98432))]
      notLive (p8 p 0) s
    run := fun f s => do
      let p := f.payload
      let (j, s) ← s.doneAtOnce f 0x0802 1
      let x := (s.image (p8 p 0)).getD { owner := f.tenant }
      .ok ({ journal := some j },
        { s with images := aset s.images (p8 p 0) { x with staging := stageBlock x.staging (p32 p 4) (p.drop 8) } }) }

/-- R313: IMAGE_VERIFY. -/
def imageVerifyCmd : Cmd :=
  { kind := .immediate
    rights := fun f s => !inRange 16 (p8 f.payload 0) 63 || ((s.image (p8 f.payload 0)).map fun x => x.owner == f.tenant).getD false
    check := fun f s => do
      let p := f.payload
      layout p 8 [(0, inRange 16 (p8 p 0) 63), (1, zeroAt p 1 3)]
      let file := stagedFile ((s.image (p8 p 0)).map (·.staging)).toList.flatten (p32 p 4)
      require (imageOk file (p32 p 4)) (badParam 4)
      require (s.imageSigned file) (refuse .noRights)
      notLive (p8 p 0) s
    run := fun f s => do
      let p := f.payload
      let (j, s) ← s.doneAtOnce f 0x0803 (blocksOf (p32 p 4))
      .ok ({ journal := some j }, { s with images := amod s.images (p8 p 0) fun x =>
        { x with image := stagedFile x.staging (p32 p 4), staging := [], usable := true, keyRevoked := false } }) }

/-- R313: IMAGE_DELETE. -/
def imageDeleteCmd : Cmd :=
  { kind := .immediate
    rights := fun f s =>
      f.tenant == 0 || !inRange 16 (p8 f.payload 0) 63 || ((s.image (p8 f.payload 0)).map fun x => x.owner == f.tenant).getD false
    check := fun f s => do
      layout f.payload 4 [(0, inRange 16 (p8 f.payload 0) 63), (1, zeroAt f.payload 1 3)]
      notLive (p8 f.payload 0) s
    run := fun f s => do
      let (j, s) ← s.doneAtOnce f 0x0804 (blocksOf ((s.image (p8 f.payload 0)).map (·.image.length)).toList.sum)
      .ok ({ journal := some j }, { s with images := adel s.images (p8 f.payload 0) }) }

/-- R317. -/
def engineKeyEnrollCmd : Cmd :=
  { kind := .immediate, steward := true
    check := fun f s => do
      let p := f.payload
      layout p 36 [(0, inRange 1 (p8 p 0) 8), (1, decide (p8 p 1 ≤ 1)), (2, zeroAt p 2 2), (4, p8 p 1 == 1 || zeroAt p 4 32)]
      require (!s.images.any fun x => imageKey x.2.image == p8 p 0 && !x.2.image.isEmpty && s.slotLive x.1) (refuse .busy)
    run := fun f s => do
      let p := f.payload
      let (j, s) ← s.doneAtOnce f 0x0808 1
      if p8 p 1 = 1 then
        .ok ({ journal := some j }, { s with keys := aset s.keys (p8 p 0) (BitVec.ofNat 256 (leNat (part p 4 32))) })
      else
        .ok ({ journal := some j },
          { s with keys := adel s.keys (p8 p 0)
                   images := s.images.map fun x =>
                     if !x.2.image.isEmpty && imageKey x.2.image == p8 p 0 then (x.1, { x.2 with usable := false, keyRevoked := true })
                     else x }) }

/-- R318: the entry of a slot: the library's in slots 0 to 7, reserved slots empty. -/
def State.imageEntry (s : State) (slot : Nat) : Bytes :=
  if slot < 8 then
    w8 slot ++ w8 2 ++ w8 0 ++ w8 0 ++ w32 (slot + 1) ++ w32 (Config.libraryVersion slot).toNat
      ++ w32 (Config.libraryLength slot).toNat
  else
    match s.image slot with
    | some x =>
      let state := if x.usable then 2 else if x.keyRevoked then 3 else 1
      w8 slot ++ w8 state ++ w8 x.owner.val ++ w8 (imageKey x.image) ++ w32 (p32 x.image 8) ++ w32 (p32 x.image 12)
        ++ w32 x.image.length
    | none => w8 slot ++ zeros 15

def imageListCmd : Cmd :=
  { kind := .readback, check := noPayload, run := fun _ s => answer ((List.range 64).map s.imageEntry).flatten s }

/-! ## REDUCER_CONFIG (R298, R314) -/

/-- The inputs of a payload: entries that are not of kind 0. -/
def inputsOf (p : Bytes) : List InstInput :=
  ((List.range 4).map fun i => ({ kind := p8 p (8 + 4 * i), index := p16 p (10 + 4 * i) } : InstInput)).filter (·.kind != 0)

/-- R292: the fields of one input entry. -/
def inputFields (p : Bytes) (i : Nat) : List (Nat × Bool) :=
  let o := 8 + 4 * i
  let lim := match p8 p o with
    | 0 => 1 | 1 => 128 | 2 => 128 | 3 => 132 | _ => 1024
  [(o, decide (p8 p o ≤ 4)), (o + 1, zeroAt p (o + 1) 1), (o + 2, decide (p16 p (o + 2) < lim))]

/-- R298: the parameter block of a library reducer at an offset. -/
def libraryFields (slot : Nat) (p : Bytes) (o : Nat) : List (Nat × Bool) :=
  match slot with
  | 3 => [(o, inRange 1000 (p64 p o) 2400000000000), (o + 8, p32 p (o + 8) == 0 || inRange 4096 (p32 p (o + 8)) 16777216)]
  | 4 => [(o, inRange 10 (p8 p o) 90), (o + 1, decide (p8 p (o + 1) ≤ 1)), (o + 2, zeroAt p (o + 2) 2)]
  | 5 => [(o, decide (p8 p o ≤ 2)), (o + 1, zeroAt p (o + 1) 1), (o + 2, inRange 16 (p16 p (o + 2)) 1016 && p16 p (o + 2) % 8 == 0)
    , (o + 4, gateMsOk (p32 p (o + 4))), (o + 16, inRange 1 (p64 p (o + 16)) (2 ^ 62))]
  | 6 => [(o, inRangeI (-2048) (s16 p o) 2047), (o + 2, decide (p16 p (o + 2) ≤ 255))]
  | 7 => [(o, decide (p8 p o ≤ 2)), (o + 1, zeroAt p (o + 1) 3), (o + 4, gateMsOk (p32 p (o + 4)))]
  | _ => []

/-- R10, R298: the reserved bytes of a library reducer's parameter block at an offset, as far as the payload holds them. -/
def libraryReserved (slot : Nat) (p : Bytes) (o : Nat) : List (Nat × Bool) :=
  (match slot with
    | 4 => [(o + 2, zeroAt p (o + 2) 2)]
    | 5 => [(o + 1, zeroAt p (o + 1) 1)]
    | 7 => [(o + 1, zeroAt p (o + 1) 3)]
    | _ => []).filter fun e => decide (e.1 < p.length)

/-- R298: parameter bytes and mode of a library slot. -/
def libraryParams (slot : Nat) : Nat := ([0, 0, 0, 12, 4, 24, 4, 8][slot]?).getD 0
def libraryMode (slot : Nat) : Nat := if slot = 5 ∨ slot = 7 then 1 else 0

/-- The parameter length and mode of the image in a slot. -/
def State.slotParams (s : State) (slot : Nat) : Nat :=
  if slot < 16 then libraryParams slot else imageParamLen ((s.image slot).map (·.image)).toList.flatten
def State.slotMode (s : State) (slot : Nat) : Nat :=
  if slot < 16 then libraryMode slot else imageMode ((s.image slot).map (·.image)).toList.flatten
def State.slotUsable (s : State) (slot : Nat) : Bool := decide (slot < 16) || ((s.image slot).map (·.usable)).getD false

/-- R298: a fitted frequency is below half the output rate of the first input's ring. -/
def State.belowNyquist (s : State) (p : Bytes) : Bool :=
  match inputsOf p with
  | i :: _ => (i.kind != 1 && i.kind != 2) || decide (p64 p 48 * 2 ^ (s.chan i.index).reduction.k < 2500000000000)
  | [] => true

/-- R314: the fields of REDUCER_CONFIG. -/
def reducerFields (p : Bytes) (s : State) : List (Nat × Bool) :=
  let make := p8 p 2 == 1
  [(0, decide (p16 p 0 < 1024)), (2, decide (p8 p 2 ≤ 1))
  , (3, (inRange 3 (p8 p 3) 7 || inRange 16 (p8 p 3) 63) && (!make || s.slotUsable (p8 p 3)))
  , (4, decide (p8 p 4 ≤ 7) || p8 p 4 == 255), (5, inRange 1 (p8 p 5) 64), (6, inRange 2 (p8 p 6) 8)
  , (7, decide (p8 p 7 ≤ 7) || p8 p 7 == 255)]
  ++ (List.range 4).flatMap (inputFields p)
  ++ [(20, !make || !(inputsOf p).isEmpty), (24, inRange 100 (p32 p 24) 1000000), (28, inRange 1 (p16 p 28) 64)
    , (30, decide (p16 p 30 ≤ 256) && (!make || p16 p 30 == s.slotParams (p8 p 3))), (32, zeroAt p 32 16)]
  ++ (if make then libraryFields else libraryReserved) (p8 p 3) p 48
  ++ (if make ∧ p8 p 3 = 3 then [(48, s.belowNyquist p)] else [])

/-- The stook of an input's ring. -/
def State.inputStook (s : State) (i : InstInput) : Nat := (i.ring.map s.ringStook).getD 0

/-- R296, R300, R314: the instance a payload describes. -/
def reducerOf (f : Frame) (s : State) (node : Nat) (engines : List Nat) : Instance :=
  let p := f.payload
  let slot := p8 p 3
  let image := if slot < 16 then [] else ((s.image slot).map (·.image)).toList.flatten
  { owner := f.tenant, imageSlot := slot, reducerId := if slot < 16 then BitVec.ofNat 32 (slot + 1) else BitVec.ofNat 32 (p32 image 8)
    mode := s.slotMode slot, gateMs := if slot = 5 ∨ slot = 7 then p32 p 52 else 1000, unitUs := p32 p 24, inputs := inputsOf p, engines, node
    shedFactor := p8 p 6
    resultStook := if p8 p 7 = 255 then s.inputStook ((inputsOf p).head?.getD ⟨0, 0⟩) else p8 p 7, resultPages := p16 p 28
    resultMax := if slot < 16 then 4096 else p16 image 50, partialLen := if slot < 16 then 4096 else p16 image 46
    stateLen := p16 image 48, maxUnitCycles := if slot < 16 then max 1000 (Config.libraryUnitCycles slot).toNat else p32 image 52
    params := part p 48 (p16 p 30), image }

/-- R314. A fit is held to the rate its stage leaves the channel; a stage that leaves too low a rate is refused as one that asks for a ring that is
not there (R298; DESIGN CHOICE, log entry 249). -/
def reducerConfigCmd : Cmd :=
  { kind := .staged
    rights := fun f s => s.slotOf f (p8 f.payload 3) || p8 f.payload 2 != 1
    check := fun f s => do
      let p := f.payload
      require (decide (48 ≤ p.length) && p.length == 48 + p16 p 30) (badParam headerField)
      fields (reducerFields p s)
    apply := fun f s =>
      let p := f.payload
      let i := p16 p 0
      if !s.instanceFree f i then .error .notOwnerState
      else if p8 p 2 = 0 then .ok (s.deleteInstance i)
      else if !((inputsOf p).all (s.ownsInput f.tenant.val i) && s.slotUsable (p8 p 3)) then .error .notOwnerState
      else do
        let (node, es) ← s.takeGroup f.tenant.val i (p8 p 4) (p8 p 5)
        .ok ((s.addInstance f 0x0805 i (reducerOf f s node es)).initEngines i)
    final := fun f s =>
      let p := f.payload
      if p8 p 2 = 0 then .ok ()
      else if !(inputsOf p).all s.hasInput then .error .notOwnerState
      else if p8 p 3 = 3 ∧ !s.belowNyquist p then .error .notOwnerState
      else .ok ()
    keys := fun p => [p16 p 0] }

/-! ## Readbacks (R315, R316) and ENGINE_RESTORE (R318) -/

/-- R315: the state of an engine. -/
def State.engineState (s : State) (e : Nat) : Nat :=
  let y := s.engine e
  if y.retired then 4 else if s.nodeOut (engineNode e) then 5 else if y.slow then 3 else if y.running.isSome then 2
  else if s.engineOwner e ≠ 0 ∨ !(s.instancesOf e).isEmpty then 1 else 0

/-- R315: `v` is the number of errors corrected since the engine last retired, which no row tells (log entry 248). -/
def State.engineStatus (s : State) (e : Nat) (v : U32) : Bytes :=
  let y := s.engine e
  w16 e ++ w8 (s.engineState e) ++ w8 (s.engineOwner e) ++ w16 (((s.instancesOf e).head?.map (· % 1024)).getD 0xFFFF)
    ++ w8 (engineNode e) ++ w8 (engineSheaf e) ++ w64 y.unitsDone.toNat ++ w32 y.reissued.toNat ++ w32 (y.eccCorrected + v).toNat
    ++ w32 (medianNat y.times * 8 / 5) ++ w32 0

def engineStatusGetCmd : Cmd :=
  { kind := .readback, rights := fun f s => ownerOrSteward f (ownerOf (p16 f.payload 0) 512 s.engineOwner)
    check := fun f _ => layout f.payload 4 [(0, decide (p16 f.payload 0 < 512)), (2, zeroAt f.payload 2 2)]
    run := fun f s =>
      let (v, s) := s.free
      answer (s.engineStatus (p16 f.payload 0) (v.setWidth 32)) s }

/-- R286: the node-local index of an engine. -/
def localIndex (e : Nat) : Nat := e / 32 * 4 + e % 4

/-- R316. -/
def State.reducerStatus (s : State) (i : Nat) : Bytes :=
  match (s.formUnits i).liveInst i with
  | some x =>
    w16 i ++ w8 x.state ++ w8 x.imageSlot ++ w32 x.reducerId.toNat ++ w64 (maskOf 64 (x.engines.map localIndex)).toNat
      ++ w8 x.node ++ zeros 3 ++ w64 x.unitsDone.toNat ++ w32 x.unitsPoisoned.toNat
      ++ w32 (x.units.filter fun u => !u.done).length ++ w64 x.results.toNat ++ zeros 4
  | none => w16 i ++ zeros 46

def reducerStatusGetCmd : Cmd :=
  { kind := .readback
    rights := fun f s => ownerOrSteward f ((s.liveInst (p16 f.payload 0)).map (·.owner.val))
    check := fun f _ => layout f.payload 4 [(0, decide (p16 f.payload 0 < 1024)), (2, zeroAt f.payload 2 2)]
    run := fun f s => answer (s.reducerStatus (p16 f.payload 0)) s }

/-- R309, R318. -/
def engineRestoreCmd : Cmd :=
  { kind := .staged, steward := true
    check := fun f s => do
      layout f.payload 4 [(0, decide (p16 f.payload 0 < 512)), (2, zeroAt f.payload 2 2)]
      require (s.power.opState == .maintenance) (refuse .notOwnerState)
    apply := fun f s =>
      let e := p16 f.payload 0
      if !(s.engine e).retired then .ok s
      else if (s.engine e).selfTested then .ok (s.modEngine e fun y => { y with retired := false })
      else .error .degraded
    keys := fun p => [p16 p 0] }

end Sys2Proof.Machine
end

