-- ==== Sys2Proof/Machine/Winnow.lean ====
section
/-! DEFINITION. Winnow (chapter 10): pieces and blocks, the coder, the lanes, and how an archive job's items reach them. -/

namespace Sys2Proof.Machine

/-! ## The coder (R359, R362 to R365) -/

/-- R359: the element width of a class, bits. -/
def classWidth (cls : Nat) : Nat :=
  if cls = 1 then 12 else if cls = 2 then 16 else if cls = 3 then 24 else if cls = 4 then 40 else 64

/-- R359: the elements of a block's input. -/
def blockElements (cls unit : Nat) (bs : Bytes) : List Nat :=
  let words := ((List.range (bs.length / unit)).map fun i => leNat (part bs (i * unit) unit))
  if cls = 1 ∧ unit = 3 then words.flatMap fun w => [w % 4096, w / 4096] else words.map (· % 2 ^ classWidth cls)

/-- R364: the prediction at an order from the elements before. -/
def predict (order x1 x2 x3 : Nat) : Int :=
  if order = 0 then 0
  else if order = 1 then x1
  else if order = 2 then 2 * (x1 : Int) - x2
  else 3 * (x1 : Int) - 3 * (x2 : Int) + x3

/-- R364: the mapped residuals of elements at an order; `n` elements came before, the last three of them `x1`, `x2`, `x3`. -/
def residuals (w order : Nat) : Nat → Nat → Nat → Nat → List Nat → List Nat
  | _, _, _, _, [] => []
  | n, x1, x2, x3, x :: l =>
    let e := signed w (((x : Int) - predict (min n order) x1 x2 x3).emod ((2 : Int) ^ w)).toNat
    let m := if 0 ≤ e then (2 * e).toNat else (-2 * e - 1).toNat
    m :: residuals w order (n + 1) x x1 x2 l

/-- Bits of a number, least significant first. -/
def bitsLsb : Nat → Nat → List Bool
  | 0, _ => []
  | n + 1, v => (v % 2 == 1) :: bitsLsb n (v / 2)

/-- R365: the Rice parameter for a running sum and count, counted up from `k`. -/
def riceK (w a nn : Nat) : Nat → Nat → Nat
  | 0, k => k
  | fuel + 1, k => if nn * 2 ^ k < a ∧ k < w - 1 then riceK w a nn fuel (k + 1) else k

/-- R365: the code of mapped residuals from a running sum and count. -/
def riceCode (w : Nat) : Nat → Nat → List Nat → List Bool
  | _, _, [] => []
  | a, nn, m :: l =>
    let k := riceK w a nn 64 0
    let q := m / 2 ^ k
    let (bits, a) :=
      if q < 24 then (List.replicate q true ++ [false] ++ bitsLsb k (m % 2 ^ k), (a + m) % 2 ^ 32)
      else (List.replicate 24 true ++ bitsLsb w m, (a + 24 * 2 ^ k) % 2 ^ 32)
    bits ++ (if nn + 1 = 32 then riceCode w (a / 2) 16 l else riceCode w a (nn + 1) l)

/-- R365: bits packed from bit 0 of byte 0 upward, the last byte padded with zero bits. -/
def packBits : Nat → List Bool → Bytes
  | 0, _ => []
  | _, [] => []
  | fuel + 1, bs =>
    BitVec.ofNat 8 ((bs.take 8).foldr (fun b v => 2 * v + boolNat b) 0) :: packBits fuel (bs.drop 8)

/-- R364, R365: the coded body of elements at an order. -/
def codeAt (w order k0 : Nat) (xs : List Nat) : Bytes :=
  let bits := riceCode w (2 ^ k0 % 2 ^ 32) 1 (residuals w order 0 0 0 0 xs)
  packBits (bits.length + 1) bits

/-- R364: the shortest of orders 1, 2 and 3, the lowest order on equal length. -/
def codeBest (w k0 : Nat) (xs : List Nat) : Nat × Bytes :=
  let c1 := codeAt w 1 k0 xs
  let c2 := codeAt w 2 k0 xs
  let c3 := codeAt w 3 k0 xs
  if c1.length ≤ c2.length ∧ c1.length ≤ c3.length then (1, c1)
  else if c2.length ≤ c3.length then (2, c2) else (3, c3)

/-- R362: header and body of a block. -/
def blockBytes (type cls order k0 : Nat) (input body : Bytes) : Bytes :=
  w8 type ++ w8 cls ++ w8 order ++ w8 k0 ++ w16 (input.length - 1) ++ zeros 2 ++ w32 body.length ++ w32 (crc32c input).toNat ++ body

/-- R363, R364: a block as encoded at an initial Rice parameter: its type and its bytes. -/
def encodeBlock (k0 : Nat) (b : WinnowBlock) : Nat × Bytes :=
  if b.cls = 0 then (1, blockBytes 1 0 0 0 b.input b.input)
  else
    let (order, body) := codeBest (classWidth b.cls) k0 (blockElements b.cls b.unit b.input)
    if b.input.length ≤ body.length then (2, blockBytes 2 b.cls 0 0 b.input b.input)
    else (0, blockBytes 0 b.cls order k0 b.input body)

/-! ## The decoder (R358, R365, R366) -/

/-- The number of leading true bits, at most so many, and the bits behind them. -/
def leadingOnes : Nat → List Bool → Nat × List Bool
  | n + 1, true :: l => ((leadingOnes n l).1 + 1, (leadingOnes n l).2)
  | _, l => (0, l)

/-- A number from bits, least significant first. -/
def ofBits (l : List Bool) : Nat := l.foldr (fun b v => 2 * v + boolNat b) 0

/-- R365: the mapped residuals of so many elements from a running sum and count; none where the bits run out. -/
def riceDecode (w : Nat) : Nat → Nat → Nat → List Bool → Option (List Nat)
  | 0, _, _, _ => some []
  | n + 1, a, nn, bits =>
    let k := riceK w a nn 64 0
    let (q, rest) := leadingOnes 24 bits
    let len := if q < 24 then k else w
    let rest := if q < 24 then rest.drop 1 else rest
    if rest.length < len then none
    else
      let v := ofBits (rest.take len)
      let m := if q < 24 then q * 2 ^ k + v else v
      let a := (if q < 24 then a + m else a + 24 * 2 ^ k) % 2 ^ 32
      ((if nn + 1 = 32 then riceDecode w n (a / 2) 16 (rest.drop len) else riceDecode w n a (nn + 1) (rest.drop len))).map (m :: ·)

/-- R364: elements from their mapped residuals at an order. -/
def unpredict (w order : Nat) : Nat → Nat → Nat → Nat → List Nat → List Nat
  | _, _, _, _, [] => []
  | n, x1, x2, x3, m :: l =>
    let e : Int := if m % 2 = 0 then (m / 2 : Nat) else -((m / 2 + 1 : Nat) : Int)
    let x := ((predict (min n order) x1 x2 x3 + e).emod ((2 : Int) ^ w)).toNat
    x :: unpredict w order (n + 1) x x1 x2 l

/-- R359: elements laid out again as the input had them: samples and words extended by their sign, packed samples two in three bytes. -/
def elementBytes (cls : Nat) (packed : Bool) : List Nat → Bytes
  | [] => []
  | x :: l =>
    if cls = 1 ∧ packed then
      match l with
      | y :: l => w8 (x % 256) ++ w8 (x / 256 + 16 * (y % 16)) ++ w8 (y / 16) ++ elementBytes cls packed l
      | [] => []
    else leInt (if cls = 3 then 3 else if cls = 4 ∨ cls = 5 then 8 else 2) (signed (classWidth cls) x) ++ elementBytes cls packed l

/-- R359: the elements of so many input bytes of a class. -/
def elementCount (cls : Nat) (packed : Bool) (len : Nat) : Nat :=
  if cls = 1 ∧ packed then len / 3 * 2 else len / (if cls = 3 then 3 else if cls = 4 ∨ cls = 5 then 8 else 2)

/-- R358, R366: the input of a stored block; none where its body does not decode. -/
def decodeBlock (packed : Bool) (b : Bytes) : Option Bytes :=
  let len := p16 b 4 + 1
  let body := b.drop 16
  if p8 b 0 ≠ 0 then some (body.take len)
  else
    let w := classWidth (p8 b 1)
    (riceDecode w (elementCount (p8 b 1) packed len) (2 ^ p8 b 3 % 2 ^ 32) 1 (body.flatMap fun x => (List.range 8).map fun i => x.getLsbD i)).map fun ms =>
      elementBytes (p8 b 1) packed (unpredict w (p8 b 2) 0 0 0 0 ms)

/-- R358: a stored block decodes to what its check word was taken over. -/
def blockSound (packed : Bool) (b : Bytes) : Bool :=
  match decodeBlock packed b with
  | some x => (crc32c x).toNat == p32 b 12
  | none => false

/-- What a lane made of bytes: those that were meant, with its faults, each a place and what is wrong there. -/
def withFaults (b : Bytes) (faults : List (Nat × Byte)) : Bytes :=
  faults.foldl (fun b f => b.set f.1 (b.getD f.1 0 ^^^ f.2)) b

/-- R366: whether a stored block passes: it decodes, or was copied, to its input byte for byte, and its check word is that of the input. -/
def blockPasses (packed : Bool) (input b : Bytes) : Bool :=
  decodeBlock packed b == some input && p32 b 12 == (crc32c input).toNat

/-! ## Pieces (R359, R360) -/

/-- Class and bytes per element, or per group, of a payload in a data format. -/
def payloadClass (format : Nat) : Nat × Nat :=
  if format = 0 then (1, 2) else if format = 2 then (1, 3) else if format = 4 then (3, 3) else if format = 5 then (4, 8) else (2, 2)

/-- R359, R360: the pieces of a record: header, whole elements of the payload, trailer. -/
def Record.pieces (r : Record) : List (Nat × Nat × Bytes) :=
  let (cls, unit) := payloadClass r.dataFormat
  let whole := r.payload.length / unit * unit
  [(0, 1, r.header), (cls, unit, r.payload.take whole), (0, 1, r.bytes.drop (128 + whole))]

/-! ## Jobs as consumers (R382, R361) -/

def State.job (s : State) (k : Nat) : Option Job := aget s.granary.jobs k

/-- R382: the ring of an input. -/
def jobRing (kind index : Nat) : RingId :=
  if kind = 1 then .record (Fin.ofNat 128 index) else if kind = 2 then .circular (Fin.ofNat 128 index)
  else if kind = 3 then .stamps (Fin.ofNat 132 index) else resultRing index

def Job.ring (j : Job) : RingId := jobRing j.inputKind j.inputIndex

def jobConsumer (k : Nat) : Consumer := .job (Fin.ofNat 1024 k)

/-- Hand a block to the lanes. -/
def State.pushBlock (s : State) (k cls unit : Nat) (input : Bytes) : State :=
  match s.job k with
  | some j =>
    if input.isEmpty then s
    else
      (s.modWinnow fun w => { w with ready := w.ready ++ [{ job := k, cls, unit, index := j.blocks, input }] }).modJob k fun j =>
        { j with blocks := j.blocks + 1 }
  | none => s

/-- R361: the open block of a job ends; without one nothing happens. -/
def State.flushJob (s : State) (k : Nat) : State :=
  match s.job k with
  | some j => (s.pushBlock k j.openClass j.openUnit j.open_).modJob k fun j => { j with open_ := [] }
  | none => s

/-- R361: bytes of a piece enter the open block; whole blocks end. -/
def State.fillBlock (s : State) (k cls unit born : Nat) (bs : Bytes) : State :=
  match s.job k with
  | some j =>
    let limit := s.winnow.blockBytes / unit * unit
    let cs := chunks limit (j.open_.length + bs.length) (j.open_ ++ bs)
    let full := cs.filter fun c => c.length == limit
    let rest := (cs.filter fun c => c.length != limit).flatten
    let since := if j.open_.isEmpty || !full.isEmpty then born else j.openSince
    (s.each full fun s c => s.pushBlock k cls unit c).modJob k fun j =>
      { j with open_ := rest, openClass := cls, openUnit := unit, openSince := since, raw := j.raw ++ bs }
  | none => s

/-- The complete items of a job's ring that it has neither released nor taken, oldest first. -/
def State.jobItems (s : State) (k : Nat) (j : Job) : List Item :=
  (s.ring j.ring).items.filter fun i => i.complete && !i.releasedBy.contains (jobConsumer k) && !j.taken.contains i.id

/-- The VT second an item of a span job belongs to (R382). -/
def Item.second (i : Item) : Nat :=
  match i.body with
  | .stamps f _ => f.sec
  | _ => i.sec

/-- R382: the start of the span of a second. -/
def spanOf (spanS sec : Nat) : Nat := sec / max spanS 1 * max spanS 1

/-- R382: a job takes a record whole: its pieces become blocks. -/
def State.takeRecord (s : State) (k : Nat) (i : Item) (r : Record) : State :=
  let s := s.modJob k fun j =>
    { j with recordId := some r.recordId, taken := [i.id], firstVt := r.firstVt, lastVt := r.lastVt, genFirst := r.genFirst
             genLast := r.genLast, raw := [], laid := [], words := [], parts := [], storedLen := 0, target := none, damaged := [], ended := false }
  let s := s.each r.pieces fun s p => (s.fillBlock k p.1 p.2.1 s.clock p.2.2).flushJob k
  s.modJob k fun j => { j with ended := true }

/-- VT80 of the start of a second. -/
def secondVt80 (sec : Nat) : BitVec 80 := vt80 (vtSecond (BitVec.ofNat 48 sec))

/-- R382: a span record begins with the record_id its span took. -/
def State.beginSpan (s : State) (k start : Nat) : State :=
  match s.job k with
  | some j =>
    let have_ := (j.spans.find? fun e => e.1 == start).map (·.2)
    let (id, s) := match have_ with
      | some id => (some id, s)
      | none => match s.takeRecordId with
        | some (id, s) => (some id, s)
        | none => (none, s)
    match id with
    | some id =>
      s.modJob k fun j =>
        { j with recordId := some id, span := start, spans := j.spans.filter fun e => start < e.1, taken := [], raw := []
                 laid := [], words := [], parts := [], storedLen := 0, target := none, damaged := [], ended := false, genFirst := s.jr.generation
                 firstVt := secondVt80 start, lastVt := secondVt80 (start + j.spanS) }
    | none => s
  | none => s

/-- Bytes of an item of a span job with its class and element size. -/
def Item.spanPiece (i : Item) : Nat × Nat × Bytes :=
  match i.body with
  | .stamps _ es => (5, 8, stampBytes es)
  | b => (0, 1, b.bytes)

/-- Take an item into the span record. -/
def State.takeIntoSpan (s : State) (k : Nat) (i : Item) : State :=
  let p := i.spanPiece
  let s := s.fillBlock k p.1 p.2.1 i.born p.2.2
  s.modJob k fun j => { j with genFirst := if j.taken.isEmpty then i.genFirst else j.genFirst, genLast := i.generation
                               taken := j.taken ++ [i.id] }

/-- R382: whether the span of a job is over: a later span has begun in the ring, or its source is complete to the end. -/
def State.spanOver (s : State) (k : Nat) (j : Job) : Bool :=
  match s.jobItems k j with
  | i :: _ => spanOf j.spanS i.second != j.span
  | [] => j.inputKind == 3 && decide ((j.span + j.spanS) * 2 ^ 48 ≤ vtNat (s.source j.inputIndex).completeTo)

/-- R382: the next item of a job, or the end of its span record. -/
def State.feedStep (s : State) (k : Nat) : State :=
  match s.job k with
  | some j =>
    if j.ended then s
    else if j.inputKind ≤ 2 then
      match s.jobItems k j with
      | i :: _ =>
        (match i.body with
         | .record r => s.takeRecord k i r
         | _ => s)
      | [] => s
    else if j.recordId.isSome && s.spanOver k j then (s.flushJob k).modJob k fun j => { j with ended := true }
    else
      match s.jobItems k j with
      | i :: _ =>
        let s := if j.recordId.isSome then s else s.beginSpan k (spanOf j.spanS i.second)
        if ((s.job k).bind (·.recordId)).isSome then s.takeIntoSpan k i else s
      | [] => s
  | none => s

/-- Take every item that has come. -/
def State.feedJob (s : State) (k : Nat) : State :=
  match s.job k with
  | some j => (List.range ((s.jobItems k j).length + 1)).foldl (fun s _ => s.feedStep k) s
  | none => s

/-! ## Lanes (R356, R357, R387) -/

def State.wlane (s : State) (l : Nat) : WinnowLane := vget s.winnow.lanes l
def State.modWlane (s : State) (l : Nat) (f : WinnowLane → WinnowLane) : State :=
  s.modWinnow fun w => { w with lanes := vmod w.lanes l f }

/-- The lanes in service. -/
def State.lanesUp (s : State) : List Nat := (List.range 4).filter fun l => (s.wlane l).state == .inService

/-- R387: the block served next: of the next job after the one served last, in turn. -/
def Winnow.nextBlock (w : Winnow) : Option WinnowBlock :=
  let after := (w.ready.filter fun b => w.lastJob < b.job).map (·.job)
  match (if after.isEmpty then w.ready.map (·.job) else after).min? with
  | some k => w.ready.find? fun b => b.job == k
  | none => none

/-- R367: the next lane in service after a lane, in turn. -/
def State.nextLane (s : State) (l : Nat) : Option Nat := ((s.lanesUp.filter (l < ·)) ++ s.lanesUp).head?

/-- R357, R367: the lane a ready block goes to: the lowest-numbered idle one in service, or, for a copy made again, the one after the lane where it
failed, once that is idle. -/
def State.laneFor (s : State) (b : WinnowBlock) : Option Nat :=
  match b.after with
  | none => s.lanesUp.find? fun l => (s.wlane l).block.isNone
  | some l => (s.nextLane l).filter fun n => (s.wlane n).block.isNone

/-- R357, R387: give the next ready block that a lane is free for to its lane. -/
def State.dispatchOne (s : State) : State :=
  match ({ s.winnow with ready := s.winnow.ready.filter fun b => (s.laneFor b).isSome }).nextBlock with
  | some b => match s.laneFor b with
    | some l =>
      (s.modWlane l fun x => { x with block := some b, bytesIn := x.bytesIn + BitVec.ofNat 64 b.input.length }).modWinnow fun w =>
        { w with ready := w.ready.erase b, lastJob := b.job }
    | none => s
  | none => s

def State.dispatchBlocks (s : State) : State := (List.range 4).foldl (fun s _ => s.dispatchOne) s

/-- Every job takes what has come, and idle lanes take blocks. -/
def State.serveJobs (s : State) : State :=
  (s.each (s.granary.jobs.map (·.1)) State.feedJob).dispatchBlocks

end Sys2Proof.Machine
end

