-- ==== Sys2Proof/Machine/Granary.lean ====
section
/-! DEFINITION. The Granary (chapter 11) and what Winnow hands it: cassettes, dies, the catalogue, archive jobs, and the rows of both
chapters. -/

namespace Sys2Proof.Machine

/-! ## Geometry (R375, R376, R397) -/

/-- R375: the cassette of a module die, and the number of a die on its channel. -/
def dieCassette (die : Nat) : Nat := die / 64
def dieRow (die : Nat) : Nat := die % 8

/-- The dies of a cassette. -/
def cassetteDies (c : Nat) : List Nat := (List.range 64).map (64 * c + ·)

def State.die (s : State) (d : Nat) : Die := vget s.granary.dies d

/-- R389, R397: whether a die takes new stripes. -/
def Die.takes (d : Die) : Bool := !d.failed && !d.benched

/-- R376: the size of a block in a mode, bytes. -/
def blockSize (tlc : Bool) : Nat := if tlc then 48 * 1048576 else 16 * 1048576

/-- R376: rated erase cycles. -/
def ratedErase (tlc : Bool) : Nat := if tlc then 3000 else 30000

/-- R379, R397: the dies of a row that take new stripes, in channel order. -/
def State.rowDies (s : State) (c row : Nat) : List Nat := (cassetteDies c).filter fun d => dieRow d == row && (s.die d).takes

/-- R379, R397: data members of the stripes of a die row: one member holds parity; a row with fewer than 4 members takes no stripe. -/
def State.rowData (s : State) (c row : Nat) : Nat :=
  let m := (s.rowDies c row).length
  if m < 4 then 0 else m - 1

/-- R376, R397: the user capacity of a cassette now, bytes. -/
def State.capacity (s : State) (c : Nat) : Nat :=
  ((List.range 8).map (s.rowData c)).sum * 2100 * blockSize (s.cassette c).tlc

/-! ## The catalogue (R401) -/

/-- R401. -/
def CatEntry.bytes (e : CatEntry) : Bytes :=
  w64 e.recordId.toNat ++ w8 e.tenant.val ++ [e.inputKind] ++ w16 e.source.toNat ++ w16 e.job.toNat
    ++ w8 (boolNat e.prot + 2 * boolNat e.damaged + 4 * boolNat e.offline + 8 * boolNat e.copied) ++ w8 e.cassette.val
    ++ vt80Bytes e.firstVt ++ vt80Bytes e.lastVt ++ w32 e.genFirst.toNat ++ w32 e.genLast.toNat ++ w64 e.rawLen.toNat
    ++ w64 e.storedLen.toNat ++ w32 e.firstStripe.toNat

/-- Insert a record, by record_id, behind those of the same one. -/
def insertRecord : List ArchRecord → ArchRecord → List ArchRecord
  | [], r => [r]
  | x :: l, r => if r.entry.recordId < x.entry.recordId then r :: x :: l else x :: insertRecord l r

def State.modCatalogue (s : State) (f : List ArchRecord → List ArchRecord) : State :=
  s.modGranary fun g => { g with catalogue := f g.catalogue }

/-- Change the entries that hold a property. -/
def State.modEntries (s : State) (which : CatEntry → Bool) (f : CatEntry → CatEntry) : State :=
  s.modCatalogue fun l => l.map fun r => if which r.entry then { r with entry := f r.entry } else r

/-- The entry of a record: the one whose cassette is there before others. -/
def State.archived (s : State) (id : U48) : Option ArchRecord :=
  match s.granary.catalogue.find? fun r => r.entry.recordId == id && !r.entry.offline with
  | some r => some r
  | none => s.granary.catalogue.find? fun r => r.entry.recordId == id

/-- R400: the catalogue journal is checkpointed to the cassette. -/
def State.checkpoint (s : State) (c : Nat) : State :=
  s.modCassette c fun x => if x.powered then { x with changes := 0, checkpointAt := s.clock } else x

/-- R400: a change of the catalogue of a cassette enters its journal, which is checkpointed at every 4,096. -/
def State.catChange (s : State) (c : Nat) : State :=
  let s := s.modCassette c fun x => { x with changes := x.changes + 1 }
  if 4096 ≤ (s.cassette c).changes then s.checkpoint c else s

/-- R411, R386: delete records; their damage entries go with them. -/
def State.deleteRecords (s : State) (which : CatEntry → Bool) : State :=
  let gone := (s.granary.catalogue.filter fun r => which r.entry).map (·.entry)
  let s := s.modGranary fun g =>
    { g with catalogue := g.catalogue.filter fun r => !which r.entry
             damage := g.damage.filter fun d => !gone.any fun e => e.recordId == d.recordId && e.cassette.val == d.cassette }
  s.each gone fun s e => s.catChange e.cassette.val

/-- R395: new damaged extents of a record. -/
def State.addDamage (s : State) (id : U48) (extents : List (Nat × Nat)) (cause : Nat) : State :=
  match s.archived id with
  | some r =>
    let c := r.entry.cassette.val
    let known := s.granary.damage.filter fun d => d.recordId == id
    let fresh := extents.filter fun e => !known.any fun d => d.offset.toNat == e.1 && d.length.toNat == e.2
    if fresh.isEmpty then s
    else
      let s := (s.modEntries (fun e => e == r.entry) fun e => { e with damaged := true }).catChange c
      let s := s.modGranary fun g =>
        { g with damage := g.damage ++ fresh.map fun e =>
            { recordId := id, offset := BitVec.ofNat 64 e.1, length := BitVec.ofNat 32 e.2, foundSec := s.time.vtSec, cause
              cassette := c } }
      s.raise 0x543 (w48 id.toNat ++ w16 fresh.length) [r.entry.tenant.val]
  | none => s

/-! ## Codewords (R375, R381, R396) -/

/-- R382: the stream of a record on the media: its catalogue entry and its blocks. -/
def laidEnd (l : List LaidBlock) : Nat := 64 + (l.map (·.size.stored)).sum
def laidRaw (l : List LaidBlock) : Nat := (l.map (·.size.input)).sum

/-- R381: the codewords numbered from `n` on, as many as `count`, in write sequence. -/
def codewords (l : List LaidBlock) (seq : U64) (n count : Nat) : List Codeword :=
  (List.range count).map fun i =>
    { seq := seq + BitVec.ofNat 64 i
      header := (l.find? fun b => b.at_ / 4096 == n + i).map fun b => (b.at_ % 4096, b.raw) }

/-- R381: the codewords of a job's record that its stream has filled are written, the last one as well once the record is whole. -/
def State.writeWords (s : State) (k : Nat) (whole : Bool) : State :=
  match s.job k with
  | some j =>
    let upTo := if whole then (laidEnd j.laid + 4095) / 4096 else laidEnd j.laid / 4096
    let count := upTo - j.words.length
    (s.modJob k fun j => { j with words := j.words ++ codewords j.laid s.granary.writeSeq j.words.length count }).modGranary fun g =>
      { g with writeSeq := g.writeSeq + BitVec.ofNat 64 count }
  | none => s

/-- R396: the extent of a record that the loss of one of its codewords damages. -/
def ArchRecord.extent (r : ArchRecord) (word : Nat) : Nat × Nat :=
  let a := 4096 * word
  let b := a + 4096
  let touched := r.laid.filter fun x => decide (x.at_ < b ∧ a < x.at_ + x.size.stored)
  match touched with
  | [] => (0, 0)
  | x :: _ =>
    if touched.length = 1 ∧ x.size.plain ∧ x.at_ + 16 ≤ a then
      let off := a - (x.at_ + 16)
      (x.raw + off, min 4096 (x.size.input - off))
    else
      let stop := ((r.laid.find? fun y => decide (b ≤ y.at_)).map (·.raw)).getD (laidRaw r.laid)
      (x.raw, stop - x.raw)

/-! ## Stripes (R379, R388, R397) -/

/-- The blocks of a die that stripes hold. -/
def Cassette.blocksOn (x : Cassette) (d : Nat) : List Nat := x.stripes.flatMap fun t => (t.members.filter (·.1 == d)).map (·.2)

/-- R388: the free blocks of a die. -/
def State.freeBlocks (s : State) (d : Nat) : List Nat :=
  let held := (s.cassette (dieCassette d)).blocksOn d
  (List.range 2800).filter fun b => !held.contains b && !(s.die d).bad.contains b

/-- R388: the erase count of a block. -/
def Die.eraseCount (x : Die) (b : Nat) : Nat := (aget x.erases b).getD 0

/-- The block of a list with the lowest erase count, the lowest number on a tie. -/
def Die.leastErased (x : Die) (l : List Nat) : Option Nat :=
  l.foldl (fun best b => match best with
    | some a => if x.eraseCount b < x.eraseCount a then some b else some a
    | none => some b) none

/-- R379: the member of a stripe that holds parity. -/
def Stripe.parity (t : Stripe) : Option (Nat × Nat) := t.members[t.number % max t.members.length 1]?

/-- R379, R397: the stripes a die row can still form: each needs a free block on 4 of its dies. -/
def State.rowStripes (s : State) (c row : Nat) : Nat :=
  let free := (s.rowDies c row).map fun d => (s.freeBlocks d).length
  ((free.filter fun n => decide (4 ≤ (free.filter (n ≤ ·)).length)).foldl max 0)

/-- R383, R386: the free stripes of a cassette. -/
def State.freeStripes (s : State) (c : Nat) : Nat := ((List.range 8).map (s.rowStripes c)).sum

/-- R379, R388, R397: a new stripe is opened, on a die row the spec leaves open; without a free block on 4 dies of the row none is. -/
def State.newStripe (s : State) (c : Nat) : State :=
  let (v, s) := s.free
  let rows := (List.range 8).filter fun r => decide (0 < s.rowStripes c r)
  let members := ((rows[v.toNat % max rows.length 1]?).toList.flatMap (s.rowDies c)).filterMap fun d =>
    ((s.die d).leastErased (s.freeBlocks d)).map fun b => (d, b)
  s.modCassette c fun x =>
    if members.length < 4 then { x with openStripe := none }
    else
      { x with stripes := x.stripes ++ [{ number := x.nextStripe, members, size := (members.length - 1) * blockSize x.tlc }]
               openStripe := some x.nextStripe, nextStripe := x.nextStripe + 1 }

/-- The stripe being written that still has room. -/
def Cassette.open_ (x : Cassette) : Option Stripe := x.stripes.find? fun t => some t.number == x.openStripe && decide (t.used < t.size)

/-- R379: so many bytes are written to a cassette, stripe after stripe: where they lie. -/
def State.writeStripes (s : State) (c : Nat) : Nat → Nat → List (Nat × Nat) × State
  | 0, _ => ([], s)
  | _, 0 => ([], s)
  | fuel + 1, n =>
    let s := if (s.cassette c).open_.isSome then s else s.newStripe c
    match (s.cassette c).open_ with
    | some t =>
      let k := min n (t.size - t.used)
      let s := s.modCassette c fun x => { x with stripes := x.stripes.map fun y => if y.number = t.number then { y with used := y.used + k } else y }
      let r := s.writeStripes c fuel (n - k)
      ((t.number, k) :: r.1, r.2)
    | none => ([], s)

/-- R379, R416: bytes are written to a cassette, counted as a job's or as a copy. -/
def State.writeBytes (s : State) (c n : Nat) (copy : Bool) : List (Nat × Nat) × State :=
  let r := s.writeStripes c (n / (3 * blockSize false) + 2) n
  (r.1, r.2.modCassette c fun x =>
    { x with writes := (x.writes.filter fun e => decide (s.clock < e.1 + 86400 * ticksPerSec)) ++ [(s.clock, n, copy)] })

/-- The bytes of a list of parts that lie in a stripe. -/
def partBytes (l : List (Nat × Nat)) (n : Nat) : Nat := ((l.filter (·.1 == n)).map (·.2)).sum

/-- The live bytes of a stripe: those of sealed records and of records in progress. -/
def State.liveBytes (s : State) (c n : Nat) : Nat :=
  ((s.granary.catalogue.filter fun r => r.entry.cassette.val == c).map fun r => partBytes r.parts n).sum
    + ((s.granary.jobs.filter fun j => (j.2.target.map (·.val)) == some c).map fun j => partBytes j.2.parts n).sum

/-- R401: an entry states the first stripe of its record. -/
def ArchRecord.placed (r : ArchRecord) : ArchRecord :=
  match r.parts with
  | e :: _ => { r with entry := { r.entry with firstStripe := BitVec.ofNat 32 e.1 } }
  | [] => r

/-- What of a list of parts lies in a stripe is written anew. -/
def State.moveParts (s : State) (c n : Nat) (l : List (Nat × Nat)) : List (Nat × Nat) × State :=
  l.foldl (fun acc e =>
    if e.1 = n then
      let r := acc.2.writeBytes c e.2 true
      (acc.1 ++ r.1, r.2)
    else (acc.1 ++ [e], acc.2)) ([], s)

/-- Whether bytes of a block can be written now: the open stripe has room, or a stripe is free. -/
def State.hasStripe (s : State) (c : Nat) : Bool := (s.cassette c).open_.isSome || decide (0 < s.freeStripes c)

/-- R388, R389, R392: the live data of a stripe are copied into new ones, where stripes are free. -/
def State.moveStripe (s : State) (c n : Nat) : State :=
  if s.freeStripes c = 0 then s else
  let s := s.modCassette c fun x => { x with openStripe := if x.openStripe = some n then none else x.openStripe }
  let cat := s.granary.catalogue.foldl (fun (acc : List ArchRecord × State) r =>
    if r.entry.cassette.val = c ∧ partBytes r.parts n ≠ 0 then
      let p := acc.2.moveParts c n r.parts
      (acc.1 ++ [{ r with parts := p.1 }.placed], p.2)
    else (acc.1 ++ [r], acc.2)) ([], s)
  let jobs := cat.2.granary.jobs.foldl (fun (acc : Assoc Job × State) e =>
    if (e.2.target.map (·.val)) = some c then
      let p := acc.2.moveParts c n e.2.parts
      (acc.1 ++ [(e.1, { e.2 with parts := p.1 })], p.2)
    else (acc.1 ++ [e], acc.2)) ([], cat.2)
  jobs.2.modGranary fun g => { g with catalogue := cat.1, jobs := jobs.1 }

/-- The stripe of a cassette that holds a block of a die. -/
def Cassette.stripeOf (x : Cassette) (d block : Nat) : Option Stripe := x.stripes.find? fun t => t.members.contains (d, block)

/-- R389, R392: the data of a block's stripe move. -/
def State.moveBlock (s : State) (d block : Nat) : State :=
  match (s.cassette (dieCassette d)).stripeOf d block with
  | some t => s.moveStripe (dieCassette d) t.number
  | none => s

/-- R388: a block is erased: it leaves its stripe where nothing of that is live. -/
def State.eraseBlock (s : State) (d block : Nat) : State :=
  let c := dieCassette d
  let s := s.modDie d fun x => { x with erases := aset x.erases block (x.eraseCount block + 1) }
  match (s.cassette c).stripeOf d block with
  | some t =>
    if s.liveBytes c t.number ≠ 0 ∨ (s.cassette c).openStripe = some t.number then s
    else s.modCassette c fun x => { x with stripes := (x.stripes.map fun y =>
      if y.number = t.number then { y with members := y.members.filter (· != (d, block)) } else y).filter (!·.members.isEmpty) }
  | none => s

/-- The stripe of a list with the largest of a measure, the first of equals. -/
def bestStripe (f : Stripe → Nat) (l : List Stripe) : Option Stripe :=
  l.foldl (fun best t => match best with
    | some b => if f b < f t then some t else some b
    | none => some t) none

/-- R389: the stripe with live data and most members on failed dies. -/
def State.exposedStripe (s : State) (c : Nat) : Option Stripe :=
  let lost (t : Stripe) : Nat := (t.members.filter fun m => (s.die m.1).failed).length
  bestStripe lost ((s.cassette c).stripes.filter fun t => decide (0 < lost t ∧ 0 < s.liveBytes c t.number))

/-- R388: where a die's free pool is below 10 % of its reserve, the closed stripe with the smallest live share. -/
def State.sparseStripe (s : State) (c : Nat) : Option Stripe :=
  if (cassetteDies c).any fun d => (s.die d).takes && decide ((s.freeBlocks d).length < 70) then
    let gain (t : Stripe) : Nat := 1000000 - s.liveBytes c t.number * 1000000 / max t.size 1
    bestStripe gain ((s.cassette c).stripes.filter fun t =>
      some t.number != (s.cassette c).openStripe && decide (0 < s.liveBytes c t.number ∧ s.liveBytes c t.number < t.size))
  else none

/-- R388: the least-erased written block of a die whose erase counts spread too far. -/
def State.unevenBlock (s : State) (c : Nat) : Option (Nat × Nat) :=
  (cassetteDies c).findSome? fun d =>
    let x := s.die d
    let counts := (List.range 2800).map x.eraseCount
    if (if (s.cassette c).tlc then 100 else 1000) < counts.foldl max 0 - counts.foldl min (counts.headD 0) then
      (x.leastErased ((s.cassette c).blocksOn d)).map fun b => (d, b)
    else none

/-- R388, R389: what Glean moves on its own, a stripe of each kind at a step (log entry 68). -/
def State.gleanMoves (s : State) (c : Nat) : State :=
  if (s.cassette c).stripes.isEmpty then s
  else
    let s := match s.exposedStripe c with
      | some t => s.moveStripe c t.number
      | none => s
    let s := match s.sparseStripe c with
      | some t => s.moveStripe c t.number
      | none => s
    match s.unevenBlock c with
    | some e => s.moveBlock e.1 e.2
    | none => s

/-! ## Space and quotas (R383, R386) -/

/-- R386: stored bytes as charged, in units of 16 KiB. -/
def charged (n : Nat) : Nat := (n + 16383) / 16384 * 16384

/-- R386: what is charged against a tenant's archive space, the records of its jobs in progress included. -/
def State.archiveCharge (s : State) (tenant : Nat) : Nat :=
  ((s.granary.catalogue.filter fun r => r.entry.tenant == ten tenant).map fun r => charged r.entry.storedLen.toNat).sum
    + ((s.granary.jobs.filter fun j => j.2.owner == ten tenant && j.2.recordId.isSome).map fun j => charged j.2.storedLen).sum

/-- Stored bytes on a cassette. -/
def State.usedBytes (s : State) (c : Nat) : Nat :=
  ((s.granary.catalogue.filter fun r => r.entry.cassette.val == c && !r.entry.offline).map fun r => r.entry.storedLen.toNat).sum
    + ((s.granary.jobs.filter fun j => (j.2.target.map (·.val)) == some c).map fun j => j.2.storedLen).sum

def State.freeBytes (s : State) (c : Nat) : Nat := s.capacity c - s.usedBytes c

/-- Whether a cassette takes new records. -/
def State.takesRecords (s : State) (c : Nat) : Bool :=
  (s.cassette c).state == .inService && (s.cassette c).retireJournal.isNone

/-- R383: the stripes a record may still take on a cassette in service, those the records of a refitted cassette hold left out. -/
def State.stripesLeft (s : State) (c : Nat) : Nat :=
  if s.takesRecords c then min (s.freeStripes c) (s.freeBytes c / (7 * blockSize (s.cassette c).tlc)) else 0

/-- R388: closed stripes in which no sealed record remains, which wait for their erase. -/
def State.deadStripe (s : State) (c : Nat) : Bool :=
  (s.cassette c).stripes.any fun t => some t.number != (s.cassette c).openStripe && s.liveBytes c t.number == 0

/-- R383, R386: whether a cassette has room for so many bytes: within its capacity, in the open stripe, a free one, or one about to be erased. -/
def State.hasRoom (s : State) (c n : Nat) : Bool := decide (n ≤ s.freeBytes c) && (s.hasStripe c || s.deadStripe c)

/-- R383: the cassette a record goes to that needs so many bytes at first. -/
def State.pickCassette (s : State) (j : Job) (n : Nat) : Option (Fin 2) :=
  let can c := s.takesRecords c && s.hasRoom c n
  let first := if j.cassette ≤ 1 then j.cassette else if s.stripesLeft 0 < s.stripesLeft 1 then 1 else 0
  if can first then some (Fin.ofNat 2 first) else if can (1 - first) then some (Fin.ofNat 2 (1 - first)) else none

/-- R386: a job waits; the event comes once until it seals a record. -/
def State.holdJob (s : State) (k : Nat) : State :=
  match s.job k with
  | some j =>
    let s := if j.fullRaised then s else s.raise 0x540 (w16 k) [j.owner.val]
    s.modJob k fun j => { j with fullRaised := true, holding := true, stallSince := if j.holding then j.stallSince else s.clock }
  | none => s

/-- R386, policy 1: the oldest sealed unprotected record of a tenant on a cassette. -/
def State.oldestUnprotected (s : State) (tenant c : Nat) : Option CatEntry :=
  (s.granary.catalogue.find? fun r => r.entry.tenant == ten tenant && r.entry.cassette.val == c && !r.entry.prot
    && !r.entry.offline).map (·.entry)

/-- R386: whether so many more bytes of a job's record fit on a cassette and in its tenant's quota. -/
def State.fits (s : State) (j : Job) (c n : Nat) : Bool :=
  s.hasRoom c n
    && decide (s.archiveCharge j.owner.val - charged j.storedLen + charged (j.storedLen + n)
      ≤ (s.tenant j.owner.val).archiveGib * 1073741824)

/-- R386, policy 1: delete records until the job's next bytes fit. -/
def State.reclaim (s : State) (j : Job) (c n : Nat) : Nat → State
  | 0 => s
  | fuel + 1 =>
    if s.fits j c n then s
    else match s.oldestUnprotected j.owner.val c with
      | some e => (s.deleteRecords fun x => x == e).reclaim j c n fuel
      | none => s

/-- R383, R386: write the next block of a job in its turn; false where there is none, the job waits, or a stripe's erase is awaited. -/
def State.placeBlock (s : State) (k : Nat) : Bool × State :=
  match s.job k with
  | some j =>
    match aget j.finished j.blocksOut with
    | some size =>
      let n := size.stored
      let target := match j.target with
        | some c => if s.takesRecords c.val then some c else none
        | none => match s.pickCassette j n with
          | some c => some c
          | none => if j.fullPolicy = 1 then s.pickCassette j 0 else none
      match target with
      | some c =>
        let s := if j.fullPolicy = 1 then s.reclaim j c.val n s.granary.catalogue.length else s
        if s.fits j c.val n ∧ !s.hasStripe c.val then (false, s)
        else if s.fits j c.val n then
          let s := s.modJob k fun j =>
            { j with target := some c, storedLen := j.storedLen + n, finished := adel j.finished j.blocksOut
                     blocksOut := j.blocksOut + 1, holding := false
                     laid := j.laid ++ [{ at_ := laidEnd j.laid, raw := laidRaw j.laid, size }] }
          let (parts, s) := (s.writeWords k false).writeBytes c.val n false
          (true, s.modJob k fun j => { j with parts := j.parts ++ parts })
        else (false, s.holdJob k)
      | none => (false, s.holdJob k)
    | none => (false, s)
  | none => (false, s)

def State.placeBlocks (s : State) (k : Nat) : Nat → State
  | 0 => s
  | fuel + 1 =>
    let (more, s) := s.placeBlock k
    if more then s.placeBlocks k fuel else s

/-- Jobs take items, lanes take blocks, blocks that wait for room are written where there is room now, and jobs wait where no lane or no
cassette is in service (R386). On a power failure no new block is taken (R403). -/
def State.serveArchive (s : State) : State :=
  if s.power.opState = .powerFail then s else
  let s := s.serveJobs
  s.each (s.granary.jobs.map (·.1)) fun s k =>
    match s.job k with
    | some j =>
      let s := s.placeBlocks k (j.finished.length + 1)
      if (s.lanesUp.isEmpty || !(s.takesRecords 0 || s.takesRecords 1)) && (j.recordId.isSome || !(s.jobItems k j).isEmpty) then
        s.holdJob k
      else s
    | none => s

/-- The blocks of a job leave the lanes and the queue unwritten. -/
def State.dropBlocks (s : State) (k : Nat) : State :=
  s.modWinnow fun w =>
    { w with ready := w.ready.filter (·.job != k)
             lanes := vmodAll w.lanes fun _ x => if (x.block.map (·.job)) == some k then { x with block := none } else x }

/-- A job gives up the record in progress; its items stay in the ring (R385). -/
def State.restartRecord (s : State) (k : Nat) : State :=
  (s.dropBlocks k).modJob k fun j =>
    { j with taken := [], recordId := none, ended := false, raw := [], open_ := [], blocksOut := j.blocks, finished := [], laid := [], words := [], parts := []
             storedLen := 0, target := none, damaged := [], holding := false }

/-- R383, R405: a cassette takes no more records: those in progress on it begin anew. -/
def State.restartJobsOn (s : State) (c : Nat) : State :=
  s.each ((s.granary.jobs.filter fun j => (j.2.target.map (·.val)) == some c).map (·.1)) State.restartRecord

/-- A job ends (R385, R408): complete when its owner deletes it, partial with remainder 2 otherwise. -/
def State.endJob (s : State) (k : Nat) (complete : Bool) : State :=
  match s.job k with
  | some j =>
    let s := s.dropBlocks k
    let s := s.modRing j.ring (·.deregister (jobConsumer k))
    let s := if complete then s.completeEntry j.journal else s.partialEntry j.journal 2
    s.modGranary fun g => { g with jobs := adel g.jobs k }
  | none => s

/-- Jobs that take their items from a ring end. -/
def State.endJobsOn (s : State) (r : RingId) : State :=
  s.each ((s.granary.jobs.filter fun j => j.2.ring == r).map (·.1)) fun s k => s.endJob k false

/-! ## Sealing (R384, R402) -/

/-- R384: whether the record of a job can be sealed: every block written, its generation recorded. -/
def State.sealable (s : State) (j : Job) : Bool :=
  j.ended && j.recordId.isSome && j.blocksOut == j.blocks && decide (0 ≤ modDiff s.jr.recGeneration j.genLast)

/-- Release so many items of a ring for a job. -/
def State.releaseTaken (s : State) (k : Nat) (j : Job) : State :=
  s.modRing j.ring fun q => { q with items := q.items.map fun i =>
    if (j.taken.contains i.id) && !i.releasedBy.contains (jobConsumer k) then { i with releasedBy := i.releasedBy ++ [jobConsumer k] }
    else i }

/-- R384: seal the record of a job. -/
def State.sealJob (s : State) (k : Nat) : State :=
  match s.job k with
  | some j =>
    if !s.sealable j then s
    else
      let s := s.writeWords k true
      let words := ((s.job k).map (·.words)).getD []
      let c : Fin 2 := j.target.getD 0
      let id := j.recordId.getD 0
      let e : CatEntry :=
        { recordId := id, tenant := j.owner, inputKind := BitVec.ofNat 8 j.inputKind, source := BitVec.ofNat 16 j.inputIndex
          job := BitVec.ofNat 16 k, prot := j.protect, damaged := false, offline := false, copied := false, cassette := c
          firstVt := j.firstVt, lastVt := j.lastVt, genFirst := j.genFirst, genLast := j.genLast
          rawLen := BitVec.ofNat 64 j.raw.length, storedLen := BitVec.ofNat 64 j.storedLen
          firstStripe := 0 }
      let r : ArchRecord := { entry := e, content := some j.raw, laid := j.laid, words, parts := j.parts }
      let s := (s.modCatalogue fun l => insertRecord l r.placed).catChange c.val
      let s := s.releaseTaken k j
      let s := s.addUnits j.journal 1
      let s := s.modJob k fun j =>
        { j with taken := [], recordId := none, ended := false, raw := [], laid := [], words := [], parts := [], storedLen := 0, target := none, damaged := []
                 fullRaised := false, holding := false }
      if j.damaged.isEmpty then s
      else
        let (v, s) := s.free
        s.addDamage id j.damaged (v.toNat % 4)
  | none => s

def execGranaryRecordSeal (t : Nat) (job : Fin 1024) (s : State) : Host.Outcome State Fault Refusal :=
  .next (State.settle s (((s.advance t).serveArchive.sealJob job.val).serveArchive))

/-! ## Winnow rows -/

/-- R361: flush_ms after the first byte of an open block. -/
def effectWinnowFlushTimer (job : Fin 1024) (s : State) : State :=
  let s := s.serveArchive
  match s.job job.val with
  | some j =>
    if j.open_ ≠ [] ∧ j.openSince + ticksOfMs s.winnow.flushMs ≤ s.clock then (s.flushJob job.val).serveArchive else s
  | none => s

def execWinnowFlushTimer (t : Nat) (job : Fin 1024) (s : State) : Host.Outcome State Fault Refusal :=
  .next (State.settle s (effectWinnowFlushTimer job (s.advance t)))

/-- R368: a lane with 4 mismatches within 1 h is taken out; its block runs again on another lane. -/
def State.laneMismatch (s : State) (l : Nat) : State :=
  let s := s.modWlane l fun x =>
    { x with mismatches := x.mismatches + 1
             recent := s.clock :: x.recent.filter fun c => decide (s.clock ≤ c + 3600 * ticksPerSec) }
  if 4 ≤ (s.wlane l).recent.length ∧ (s.wlane l).state = .inService then
    (s.modWlane l fun x => { x with state := .faulty, selfTested := false, recent := [] }).raise 0x532 (w8 l)
  else s

/-- R357, R363, R366: a verified block leaves its lane. -/
def State.blockLeaves (s : State) (l : Nat) (b : WinnowBlock) (type : Nat) (bytes : Bytes) : State :=
  let s := s.modWlane l fun x => { x with block := none }
  let s := s.modWinnow fun w =>
    { w with bytesIn := w.bytesIn + BitVec.ofNat 64 b.input.length, bytesOut := w.bytesOut + BitVec.ofNat 64 bytes.length
             incompressible := if type = 2 then w.incompressible + 1 else w.incompressible }
  s.modJob b.job fun j => { j with finished := aset j.finished b.index ⟨bytes.length, b.input.length, type != 0⟩ }

/-- R362, R363, R367: the type and the bytes of a block as a lane stores it: encoded at an initial Rice parameter, or copied raw as it has to be. -/
def WinnowBlock.stored (b : WinnowBlock) (k0 : Nat) : Nat × Bytes :=
  match b.copyAs with
  | some type => (type, blockBytes type b.cls 0 0 b.input b.input)
  | none => encodeBlock k0 b

/-- R367: a block that failed waits first in the queue, to be run again. -/
def State.blockAgain (s : State) (l : Nat) (b : WinnowBlock) : State :=
  (s.modWlane l fun x => { x with block := none }).modWinnow fun w => { w with ready := b :: w.ready }

/-- R367: a block failed its verification in a lane. -/
def State.blockFails (s : State) (l : Nat) (b : WinnowBlock) : State :=
  (s.raise 0x531 (w8 l ++ zeros 1 ++ w16 b.job ++ w32 b.index) ((s.job b.job).map (·.owner.val)).toList).laneMismatch l

/-- R366 to R368: a lane verifies what it stored of a block. What passes leaves. A lane taken out runs the block on another; a raw copy that fails is
made again on the next lane; a coded block that fails is stored raw, which is verified in its turn. -/
def State.verifyBlock (s : State) (l : Nat) (b : WinnowBlock) (type : Nat) (bytes : Bytes) (mismatch : BlockFaults) : State :=
  let packed := b.unit == 3 && b.cls == 1
  let taken (s' : State) : Bool := (s.wlane l).state == .inService && (s'.wlane l).state != .inService
  if blockPasses packed b.input (withFaults bytes mismatch.stored) then s.blockLeaves l b type bytes
  else
    let s1 := s.blockFails l b
    if taken s1 then s1.blockAgain l b
    else if type ≠ 0 then s1.blockAgain l { b with copyAs := some type, after := some l }
    else
      let raw := blockBytes 3 b.cls 0 0 b.input b.input
      if blockPasses packed b.input (withFaults raw mismatch.copy) then s1.blockLeaves l b 3 raw
      else
        let s2 := s1.blockFails l b
        s2.blockAgain l { b with copyAs := some 3, after := some l }

/-- R366, R367: a lane is done with its block; the operand says what it got wrong in the block it stored, and in the raw copy of a coded block
that failed. -/
def effectWinnowBlockDone (lane : Fin 4) (mismatch : BlockFaults) (s : State) : State :=
  let s := s.serveArchive
  match (s.wlane lane.val).block with
  | some b =>
    let (v, s) := s.free
    let (type, bytes) := b.stored (v.toNat % classWidth b.cls)
    (s.verifyBlock lane.val b type bytes mismatch).serveArchive
  | none => s

def execWinnowBlockDone (t : Nat) (lane : Fin 4) (mismatch : BlockFaults) (s : State) : Host.Outcome State Fault Refusal :=
  .next (State.settle s (effectWinnowBlockDone lane mismatch (s.advance t)))

/-- R358, R396: a decoded block whose check fails is damaged over its whole input. -/
def execWinnowReadDecode (t : Nat) (_lane : Fin 4) (recordId : U48) (offset : Nat) (packed : Bool) (block : Bytes) (s : State) :
    Host.Outcome State Fault Refusal :=
  let s1 := s.advance t
  .next (State.settle s (if blockSound packed block then s1 else s1.addDamage recordId [(offset, p16 block 4 + 1)] 1))

/-! ## Flash rows (R378 to R398) -/

/-- R391: the mean erase count of the user blocks of a cassette. -/
def Cassette.meanErase (x : Cassette) : Nat := x.eraseTotal / 134400

/-- R391: a worn cassette raises its event once and becomes read-only at its rated count; new records go to the other. -/
def State.wearCheck (s : State) (c : Nat) : State :=
  let x := s.cassette c
  let percent := x.meanErase * 100 / ratedErase x.tlc
  let s := if 80 ≤ percent ∧ !x.wornRaised then
      (s.modCassette c fun x => { x with wornRaised := true }).raise 0x546 (w8 c ++ w8 percent)
    else s
  if percent < 100 then s
  else if x.state = .inService then (s.modCassette c fun x => { x with worn := true, state := .readOnly }).restartJobsOn c
  else s.modCassette c fun x => { x with worn := true }

/-- R397: a die whose median program time exceeds twice the cassette's is benched. -/
def State.benchCheck (s : State) (d : Nat) : State :=
  let c := dieCassette d
  let x := s.die d
  if x.benched || x.failed || decide (x.times.length < 64) || decide ((s.cassette c).times.length < 256) then s
  else if 2 * medianNat (s.cassette c).times < medianNat x.times then
    (s.modDie d fun x => { x with benched := true, benchTimes := s.clock :: x.benchTimes, times := [] }).raise 0x545 (w8 d)
  else s

/-- R389: the failed dies of a cassette. -/
def State.failedDies (s : State) (c : Nat) : Nat := ((cassetteDies c).filter fun i => (s.die i).failed).length

/-- R389: a block of a die is retired, its stripe's data completed in a new one; a die with more than 140 is failed, a cassette that loses more
than 8 dies as well (R404). -/
def State.badBlock (s : State) (d block : Nat) : State :=
  let c := dieCassette d
  if (s.die d).bad.contains block then s else
  let s := (s.modDie d fun x => { x with badBlocks := x.badBlocks + 1, bad := block :: x.bad }).moveBlock d block
  if 140 < (s.die d).badBlocks ∧ !(s.die d).failed then
    let s := (s.modDie d fun x => { x with failed := true }).raise 0x544 (w8 d)
    if 8 < s.failedDies c then
      (s.modCassette c fun x => { x with state := .failed }).restartJobsOn c
    else s
  else s

/-- The key of a block in the table of page reads. -/
def blockKey (die block : Nat) : Nat := 2800 * die + block

/-- R388, R389, R391, R397: a program or an erase ends. -/
def effectGranaryProgramDone (die : Fin 128) (block : Fin 2800) (erase ok : Bool) (micros : Nat) (s : State) : State :=
  let d := die.val
  let c := dieCassette d
  if !ok then (s.badBlock d block.val).serveArchive
  else if erase then (((s.eraseBlock d block.val).modCassette c fun x => { x with eraseTotal := x.eraseTotal + 1 }).wearCheck c).serveArchive
  else
    let s := s.modCassette c fun x =>
      { x with times := lastN 256 (x.times ++ [micros]), reads := adel x.reads (blockKey d block.val) }
    (s.modDie d fun x => { x with times := lastN 64 (x.times ++ [micros]) }).benchCheck d

def execGranaryProgramDone (t : Nat) (die : Fin 128) (block : Fin 2800) (erase ok : Bool) (micros : Nat) (s : State) :
    Host.Outcome State Fault Refusal :=
  .next (State.settle s (effectGranaryProgramDone die block erase ok micros (s.advance t)))

/-- R390: page reads of a block are counted; a block read too often goes to the head of Glean's queue. -/
def State.countReads (s : State) (d block pages : Nat) : State :=
  s.modCassette (dieCassette d) fun x =>
    let key := blockKey d block
    let n := (aget x.reads key).getD 0
    let limit := if x.tlc then 20000 else 50000
    { x with reads := aset x.reads key (n + pages)
             gleanQueue := if n < limit ∧ limit ≤ n + pages then key :: x.gleanQueue else x.gleanQueue }

/-- R379: the dies of a codeword's parity group: those of its stripe's other members. -/
def State.groupDies (s : State) (d block : Nat) : List Nat :=
  match (s.cassette (dieCassette d)).stripeOf d block with
  | some t => (t.members.map (·.1)).filter (· != d)
  | none => []

/-- R380, R389: whether a codeword or another of its parity group lies on a failed die. -/
def State.dieLost (s : State) (d block : Nat) (group : List (Fin 128 × Bool)) : Bool :=
  (group.map (·.1.val) ++ s.groupDies d block).any fun m => (s.die m).failed

/-- R380: a codeword is rebuilt where every other one of its parity group is corrected and lies on no failed die. -/
def State.rebuilds (s : State) (d block : Nat) (group : List (Fin 128 × Bool)) : Bool := group.all (·.2) && !s.dieLost d block group

/-- R378, R380, R394, R395: a codeword is read. What a failed die makes impossible to rebuild is damage of cause 3 (DESIGN CHOICE, log entry
263). -/
def effectGranaryRead (id : U48) (die : Fin 128) (block : Fin 2800) (outcome : CodewordOutcome) (s : State) : State :=
  let d := die.val
  let s := s.countReads d block.val 1
  match outcome with
  | .uncorrectable word off len group =>
    if s.rebuilds d block.val group then
      ((s.modCassette (dieCassette d) fun x => { x with repaired := x.repaired + 1 }).moveBlock d block.val).raise 0x542 (w48 id.toNat)
        ((s.archived id).map (·.entry.tenant.val)).toList
    else
    let extent := match s.archived id with
      | some r => if r.laid.isEmpty then (off, len) else r.extent word
      | none => (off, len)
    if extent.2 = 0 then s else s.addDamage id [extent] (if (s.die d).failed || s.dieLost d block.val group then 3 else 0)
  | _ => s

def execGranaryRead (t : Nat) (recordId : U48) (die : Fin 128) (block : Fin 2800) (outcome : CodewordOutcome) (s : State) :
    Host.Outcome State Fault Refusal :=
  .next (State.settle s (effectGranaryRead recordId die block outcome (s.advance t)))

/-- R388 to R390, R392: Glean has read a block, page by page; it is refreshed where it needs to be, and Glean moves on. A pass ends when Glean comes back below
the block it read last. -/
def effectGleanBlockScrub (die : Fin 128) (block : Fin 2800) (worstBits : Nat) (shifted : Bool) (s : State) : State :=
  let c := dieCassette die.val
  let key := blockKey die.val block.val
  let s := s.countReads die.val block.val (if (s.cassette c).tlc then 3072 else 1024)
  let s := if shifted || decide (s.granary.refreshBits ≤ worstBits) then
      (s.moveBlock die.val block.val).modCassette c fun x => { x with reads := adel x.reads key }
    else s
  (s.gleanMoves c).modCassette c fun x =>
    let queued := x.gleanQueue.contains key
    if queued then { x with gleanQueue := x.gleanQueue.erase key }
    else { x with scrubbed := key, scrubPassAt := if key ≤ x.scrubbed then s.clock else x.scrubPassAt }

def execGleanBlockScrub (t : Nat) (die : Fin 128) (block : Fin 2800) (worstBits : Nat) (shifted : Bool) (s : State) :
    Host.Outcome State Fault Refusal :=
  .next (State.settle s (effectGleanBlockScrub die block worstBits shifted (s.advance t)))

/-- R400. -/
def execCatalogueCheckpoint (t : Nat) (cassette : Fin 2) (s : State) : Host.Outcome State Fault Refusal :=
  .next (State.settle s ((s.advance t).checkpoint cassette.val))

/-- R398: whether a die was ever benched three times within 30 days; its bench times are held newest first. -/
def benchedThrice : List Nat → Bool
  | a :: b :: c :: l => decide (a ≤ c + 30 * 86400 * ticksPerSec) || benchedThrice (b :: c :: l)
  | _ => false

/-- R398: a benched die whose trials are within 1.5 times the cassette's median returns, unless it was benched three times within 30
days. -/
def effectBenchTrial (die : Fin 128) (medianMicros : Nat) (s : State) : State :=
  s.modDie die.val fun x =>
    if x.benched && decide (2 * medianMicros ≤ 3 * medianNat (s.cassette (dieCassette die.val)).times) && !benchedThrice x.benchTimes then
      { x with benched := false } else x

def execBenchTrial (t : Nat) (die : Fin 128) (medianMicros : Nat) (s : State) : Host.Outcome State Fault Refusal :=
  .next (State.settle s (effectBenchTrial die medianMicros (s.advance t)))

/-- R386, policy 2: the items that wait are released unarchived. -/
def effectArchiveStallTimeout (job : Fin 1024) (s : State) : State :=
  let k := job.val
  let s := s.serveArchive
  match s.job k with
  | some j =>
    if j.fullPolicy = 2 ∧ j.holding ∧ j.stallSince + ticksOfMs j.stallMs ≤ s.clock then
      let n := j.taken.length + (s.jobItems k j).length
      let s := s.releaseTaken k { j with taken := j.taken ++ (s.jobItems k j).map (·.id) }
      let s := (s.restartRecord k).modJob k fun j => { j with skipped := j.skipped + BitVec.ofNat 32 n }
      if j.skippedSec = some s.time.vtSec then s
      else (s.modJob k fun j => { j with skippedSec := some s.time.vtSec }).raise 0x541 (w16 k ++ zeros 2 ++ w32 n) [j.owner.val]
    else s
  | none => s

def execArchiveStallTimeout (t : Nat) (job : Fin 1024) (s : State) : Host.Outcome State Fault Refusal :=
  .next (State.settle s (effectArchiveStallTimeout job (s.advance t)))

/-! ## Cassettes (R404 to R406, R414, R415, R644) -/

/-- The records of a cassette go offline. -/
def State.recordsOffline (s : State) (c : Nat) : State := s.modEntries (fun e => e.cassette.val == c) fun e => { e with offline := true }

/-- R404, R415: a formatted cassette is in service, or read-only when it is worn. -/
def Cassette.enter (x : Cassette) : Cassette := { x with state := if x.worn then .readOnly else .inService }

/-- R644: both PRESENT contacts of a slot make. -/
def effectCassetteInsert (cassette : Fin 2) (s : State) : State :=
  s.modCassette cassette.val fun x => if x.present then x else { x with present := true, insertedAt := s.clock }

def execCassetteInsert (t : Nat) (cassette : Fin 2) (s : State) : Host.Outcome State Fault Refusal :=
  .next (State.settle s (effectCassetteInsert cassette (s.advance t)))

/-- R404: the records a cassette brings; those of a cassette last retired here come back online, others pass to the Steward. -/
def State.bringRecords (s : State) (c : Fin 2) (same : Bool) (l : List CatEntry) : State :=
  s.each l fun s e =>
    let old := s.granary.catalogue.find? fun r => same && r.entry.recordId == e.recordId && r.entry.offline
    let s := s.modCatalogue fun q => q.filter fun r => !(same && r.entry.recordId == e.recordId && r.entry.offline)
    let s := s.modGranary fun g => { g with damage := g.damage.map fun d =>
      if old.isSome && d.recordId == e.recordId then { d with cassette := c.val } else d }
    s.modCatalogue fun q => insertRecord q
      { entry := { e with cassette := c, offline := false, tenant := if same then e.tenant else 0 }
        content := old.bind (·.content), laid := (old.map (·.laid)).getD [], words := (old.map (·.words)).getD [] }

/-- R389, R401: a cassette that was not last retired here brings dies of its own; its stripes are numbered on from those of its records. -/
def State.freshDies (s : State) (c : Nat) : State := s.each (cassetteDies c) fun s d => s.modDie d fun _ => {}

/-- R404, R597: a slot is powered and the identity block is read; after a full restart a cassette that stayed is as it was (R400). -/
def effectCassettePowerOn (cassette : Fin 2) (identity : CassetteIdentity) (s : State) : State :=
  let c := cassette.val
  let x := s.cassette c
  if !x.present || x.powered || x.state != .absent || decide (s.clock < x.insertedAt + ticksOfMs 500) || s.time.lockCount == 0 then s
  else
    let back (e : CatEntry) : CatEntry := { e with offline := false }
    let again : CassetteState → Cassette → Cassette := fun st y =>
      if st = .scanning then { y with state := .scanning } else if st = .formatting then { y with state := .unformatted } else y.enter
    let fresh : Cassette := { present := true, powered := true, insertedAt := x.insertedAt, scrubPassAt := s.clock, checkpointAt := s.clock }
    match identity, x.resume with
    | .known _ true _ _ _, some st =>
      let s := if st = .scanning then s else s.modEntries (fun e => e.cassette == cassette) back
      (s.modCassette c fun y => { again st y with powered := true, resume := none, scrubPassAt := s.clock, checkpointAt := s.clock }).serveArchive
    | .blank, _ => (s.freshDies c).modCassette c fun _ => { fresh with state := .unformatted }
    | .unreadable, _ => (s.freshDies c).modCassette c fun _ => { fresh with state := .failed }
    | .known clean same tlc worn records, _ =>
      let x : Cassette :=
        { fresh with tlc, worn, eraseTotal := (Config.cassetteErase c).toNat * 134400
                     nextStripe := (records.map fun e => e.firstStripe.toNat + 1).foldl max 0 }
      let s := (if same then s else s.freshDies c).bringRecords cassette same records
      if 8 < s.failedDies c then s.modCassette c fun _ => { x with state := .failed }
      else if clean then (s.modCassette c fun _ => x.enter).serveArchive
      else ((s.modCassette c fun _ => { x with state := .scanning }).recordsOffline c).serveArchive

def execCassettePowerOn (t : Nat) (cassette : Fin 2) (identity : CassetteIdentity) (s : State) :
    Host.Outcome State Fault Refusal :=
  .next (State.settle s (effectCassettePowerOn cassette identity (s.advance t)))

/-- R405: a cassette is removed. -/
def effectCassetteRemove (cassette : Fin 2) (s : State) : State :=
  let c := cassette.val
  let x := s.cassette c
  if !x.present then s
  else
    let quiet := x.state == .absent || x.state == .unformatted || x.state == .retired
    let s := s.recordsOffline c
    let s := s.withEntry x.formatJournal fun s j => s.partialEntry j 1
    let s := s.withEntry (x.evacuation.map (·.1)) fun s j => s.partialEntry j 1
    let s := s.withEntry x.retireJournal fun s j => s.partialEntry j 1
    let s := s.modCassette c fun _ => {}
    let s := if quiet then s else s.raise 0x547 (w8 c ++ w8 0)
    (s.restartJobsOn c).serveArchive

def execCassetteRemove (t : Nat) (cassette : Fin 2) (s : State) : Host.Outcome State Fault Refusal :=
  .next (State.settle s (effectCassetteRemove cassette (s.advance t)))

/-- R404: the catalogue of a cassette removed without retirement is rebuilt, and its records come online; torn records are damaged, in extents
the spec does not state. -/
def effectCassetteScanDone (cassette : Fin 2) (torn : List U48) (s : State) : State :=
  let c := cassette.val
  if (s.cassette c).state ≠ .scanning then s
  else
    let s := s.each torn fun s id =>
      let (a, s) := s.free
      let (b, s) := s.free
      s.addDamage id [(a.toNat, b.toNat % 2 ^ 32)] 2
    ((s.modCassette c Cassette.enter).modEntries (fun e => e.cassette.val == c) fun e => { e with offline := false }).serveArchive

def execCassetteScanDone (t : Nat) (cassette : Fin 2) (torn : List U48) (s : State) : Host.Outcome State Fault Refusal :=
  .next (State.settle s (effectCassetteScanDone cassette torn (s.advance t)))

/-- R414: a cassette is formatted: every record on it is gone, its dies are no longer benched. -/
def effectCassetteFormatDone (cassette : Fin 2) (s : State) : State :=
  let c := cassette.val
  let x := s.cassette c
  match x.state, x.formatJournal with
  | .formatting, some j =>
    let s := (s.deleteRecords fun e => e.cassette == cassette && !e.offline).completeAll j
    let s := s.each (cassetteDies c) fun s d => s.modDie d fun y => { y with benched := false, benchTimes := [], times := [] }
    let s := s.modCassette c fun x =>
      { x with state := .inService, tlc := x.formatTlc, formatJournal := none, eraseTotal := x.eraseTotal + 134400
               times := [], reads := [], gleanQueue := [], worn := false, stripes := [], openStripe := none, nextStripe := 0, writes := [] }
    (s.wearCheck c).serveArchive
  | _, _ => s

def execCassetteFormatDone (t : Nat) (cassette : Fin 2) (s : State) : Host.Outcome State Fault Refusal :=
  .next (State.settle s (effectCassetteFormatDone cassette (s.advance t)))

/-- R406: the entries an evacuation copies. -/
def State.evacuees (s : State) (c : Nat) (all : Bool) : List CatEntry :=
  (s.granary.catalogue.filter fun r => r.entry.cassette.val == c && !r.entry.offline && (all || r.entry.prot)).map (·.entry)

/-- R406: whether a copy of a record fits in its owner's quota, the record it replaces included. -/
def State.copyInQuota (s : State) (e : CatEntry) : Bool :=
  decide (s.archiveCharge e.tenant.val ≤ (s.tenant e.tenant.val).archiveGib * 1073741824)

/-- R381, R406: a record copied as stored has its codewords written anew. -/
def State.rewritten (s : State) (r : ArchRecord) : ArchRecord :=
  { r with words := codewords r.laid s.granary.writeSeq 0 r.words.length }

/-- R406: copy records, as stored, to the other cassette while there is room; how many were copied. -/
def State.copyRecords (s : State) (c : Nat) : List CatEntry → Nat → Nat × State
  | [], n => (n, s)
  | e :: l, n =>
    let o := 1 - c
    if s.takesRecords o && decide (e.storedLen.toNat ≤ s.freeBytes o ∧ e.storedLen.toNat < s.freeStripes o * (3 * blockSize (s.cassette o).tlc)) && s.copyInQuota e then
      let s := (s.modCatalogue fun l => l.map fun r => if r.entry == e then s.rewritten r else r).modGranary fun g =>
        { g with writeSeq := g.writeSeq + BitVec.ofNat 64 ((s.archived e.recordId).map (·.words.length)).toList.sum }
      let (parts, s) := s.writeBytes o e.storedLen.toNat true
      let s := (s.modCatalogue fun l => l.map fun r =>
        if r.entry == e then { r with entry := { e with cassette := Fin.ofNat 2 o, copied := true }, parts }.placed else r).catChange o
      let s := s.modGranary fun g => { g with damage := g.damage.map fun d =>
        if d.recordId == e.recordId && d.cassette == c then { d with cassette := o } else d }
      s.copyRecords c l (n + 1)
    else s.copyRecords c l n

/-- R406: the evacuation copy completes. -/
def effectEvacuationDone (cassette : Fin 2) (s : State) : State :=
  let c := cassette.val
  match (s.cassette c).evacuation with
  | some (j, all) =>
    let (n, s) := s.copyRecords c (s.evacuees c all) 0
    ((s.addUnits j n).completeEntry j).modCassette c fun x => { x with evacuation := none }
  | none => s

def execEvacuationDone (t : Nat) (cassette : Fin 2) (s : State) : Host.Outcome State Fault Refusal :=
  .next (State.settle s (effectEvacuationDone cassette (s.advance t)))

/-- R415: retirement completes: a checkpoint, the slot unpowered, the records left offline; records in progress go to the other
cassette. -/
def effectCassetteRetireDone (cassette : Fin 2) (s : State) : State :=
  let c := cassette.val
  match (s.cassette c).retireJournal with
  | some j =>
    let s := (s.checkpoint c).completeAll j
    let s := s.modCassette c fun x => { x with state := .retired, powered := false, retireJournal := none }
    let s := s.recordsOffline c
    (s.restartJobsOn c).serveArchive
  | none => s

def execCassetteRetireDone (t : Nat) (cassette : Fin 2) (s : State) : Host.Outcome State Fault Refusal :=
  .next (State.settle s (effectCassetteRetireDone cassette (s.advance t)))

/-- R357, R370: the blocks in lanes complete, and those that wait follow them (log entry 226). -/
def State.runLanes (s : State) : Nat → State
  | 0 => s
  | n + 1 =>
    let s := s.each (List.range 4) fun s l =>
      match (s.wlane l).block with
      | some b =>
        let (v, s) := s.free
        let (type, bytes) := encodeBlock (v.toNat % classWidth b.cls) b
        s.blockLeaves l b type bytes
      | none => s
    s.dispatchBlocks.runLanes n

/-- R370, R403: on a power failure open blocks are flushed, blocks in lanes complete, and records whose bytes are all written and whose
generation is recorded are sealed. -/
def State.archivePowerFail (s : State) : State :=
  let ks := s.granary.jobs.map (·.1)
  let s := s.each ks State.flushJob
  let s := s.runLanes (s.winnow.ready.length + 1)
  let s := s.each ks fun s k => s.placeBlocks k ((s.job k).map (·.finished.length + 1)).toList.sum
  s.each ks State.sealJob

end Sys2Proof.Machine
end

