-- ==== Sys2Proof/Machine/GranaryCmds.lean ====
section
/-! DEFINITION. The commands of chapters 10 and 11 (R371 to R374, R407 to R416). -/

namespace Sys2Proof.Machine

/-! ## Winnow (R371 to R374) -/

/-- R372, R368: a lane that was taken out returns only after its self-test. -/
def winnowConfigCmd : Cmd :=
  { kind := .staged, steward := true
    check := fun f _ =>
      let p := f.payload
      layout p 12 [(0, decide (p8 p 0 ≤ 15)), (1, zeroAt p 1 3), (4, inRange 4096 (p32 p 4) 65536), (8, inRange 1 (p32 p 8) 60000)]
    apply := fun f s =>
      let p := f.payload
      let en := p8 p 0
      let bad := (List.range 4).any fun l => en.testBit l && (s.wlane l).state == .faulty && !(s.wlane l).selfTested
      if bad then .error .degraded
      else
        let s := s.each (List.range 4) fun s l => s.modWlane l fun x =>
          { x with state := if en.testBit l then .inService else if x.state = .faulty then .faulty else .disabled }
        .ok (s.modWinnow fun w => { w with laneEnable := BitVec.ofNat 4 en, blockBytes := p32 p 4, flushMs := p32 p 8 })
    keys := fun _ => [0] }

/-- R373: the jobs a flush names. -/
def State.flushJobs (s : State) (f : Frame) : List Nat :=
  if p16 f.payload 0 = 0xFFFF then (s.granary.jobs.filter fun j => j.2.owner == f.tenant).map (·.1) else [p16 f.payload 0]

/-- R369, R373. -/
def winnowFlushCmd : Cmd :=
  { kind := .schedulable
    rights := fun f s => match s.job (p16 f.payload 0) with
      | some j => j.owner == f.tenant
      | none => true
    check := fun f s => layout f.payload 4
      [(0, p16 f.payload 0 == 0xFFFF || (s.job (p16 f.payload 0)).isSome), (2, zeroAt f.payload 2 2)]
    run := fun f s =>
      let s := s.serveArchive
      .ok ({}, (s.each (s.flushJobs f) State.flushJob).serveArchive) }

/-- R374. -/
def WinnowState.code : WinnowState → Nat
  | .inService => 0 | .disabled => 1 | .faulty => 2

def State.winnowStatus (s : State) : Bytes :=
  w8 (maskOf 4 s.lanesUp).toNat ++ w8 s.winnow.laneEnable.toNat ++ zeros 2 ++ w32 s.winnow.blockBytes ++ w32 s.winnow.flushMs
    ++ w32 s.winnow.incompressible.toNat ++ w64 s.winnow.bytesIn.toNat ++ w64 s.winnow.bytesOut.toNat
    ++ (List.range 4).flatMap fun l =>
      let x := s.wlane l
      w8 l ++ w8 x.state.code ++ zeros 2 ++ w32 x.mismatches.toNat ++ w64 x.bytesIn.toNat

def winnowStatusGetCmd : Cmd :=
  { kind := .readback, check := noPayload, run := fun _ s => answer s.winnowStatus s }

/-! ## Granary (R407) -/

/-- R2, R407: a cassette is fitted, or every Granary command is refused. -/
def fitted (s : State) : Except Reply Unit :=
  require ((s.cassette 0).present || (s.cassette 1).present) (refuse .degraded)

def CassetteState.code : CassetteState → Nat
  | .absent => 0 | .unformatted => 1 | .formatting => 2 | .inService => 3 | .readOnly => 4 | .evacuating => 5 | .retired => 6
  | .scanning => 7 | .failed => 8

/-- R416: the records of a cassette that are there. -/
def State.onCassette (s : State) (c : Nat) : List CatEntry :=
  (s.granary.catalogue.filter fun r => r.entry.cassette.val == c && !r.entry.offline).map (·.entry)

/-- R416: write amplification over the last 24 h, in 0.01: bytes written, copies included, to bytes the jobs wrote; where they wrote none and
copies were made it has no stated value. -/
def State.writeAmp (s : State) (x : Cassette) : Nat :=
  let l := x.writes.filter fun e => decide (s.clock < e.1 + 86400 * ticksPerSec)
  let mine := ((l.filter fun e => !e.2.2).map (·.2.1)).sum
  let all := (l.map (·.2.1)).sum
  if mine ≠ 0 then min 65535 (all * 100 / mine) else if all = 0 then 100 else (Config.freeValue s.freeCtr).toNat % 65536

/-- R416: one cassette entry. -/
def State.cassetteEntry (s : State) (c : Nat) : Bytes :=
  let x := s.cassette c
  let dies := (cassetteDies c).map s.die
  w8 c ++ w8 x.state.code ++ w8 (boolNat x.tlc) ++ w8 (dies.filter (·.benched)).length ++ w8 (dies.filter (·.failed)).length ++ zeros 3
    ++ w64 (if x.powered then s.capacity c else 0) ++ w64 (if x.powered then s.freeBytes c else 0) ++ w32 x.meanErase
    ++ w32 (ratedErase x.tlc) ++ w16 (if x.powered then min 65535 ((s.clock - x.scrubPassAt) / (86400 * ticksPerSec)) else 0)
    ++ w16 (s.writeAmp x) ++ w64 (s.onCassette c).length ++ w32 ((s.onCassette c).filter (·.damaged)).length

def granaryStatusGetCmd : Cmd :=
  { kind := .readback
    check := fun f s => do
      noPayload f s
      fitted s
    run := fun _ s =>
      answer (w64 s.granary.catalogue.length ++ w64 s.granary.nextRecordId ++ s.cassetteEntry 0 ++ s.cassetteEntry 1)
        { s with freeCtr := s.freeCtr + 1 } }

/-! ## Jobs (R408) -/

/-- R382, R408: the owner of the ring of an input. -/
def State.inputOwner (s : State) (kind index : Nat) : Option Nat :=
  if kind = 1 ∨ kind = 2 then ownerOf index 128 s.chanOwner
  else if kind = 3 then ownerOf index 132 s.sourceOwner
  else if kind = 4 then (s.inst index).map (·.owner.val)
  else none

/-- R382: whether the ring of an input is there in the mode its kind asks. -/
def State.inputThere (s : State) (kind index : Nat) : Bool :=
  let mode := (s.chan index).capture.mode
  if kind = 1 then mode == 1 || mode == 5
  else if kind = 2 then mode == 2 || mode == 3
  else if kind = 3 then s.streamEnabled index
  else ((s.inst index).map fun x => x.state == 1).getD false

/-- R385, R408: create a job with its journal entry. -/
def State.createJob (s : State) (f : Frame) : Except Status State :=
  let p := f.payload
  match s.newEntry (s.workEntry f.tenant.val f.seq 0x0B02 0) with
  | some (j, s) =>
    let job : Job :=
      { owner := f.tenant, inputKind := p8 p 3, inputIndex := p16 p 4, cassette := p8 p 6, protect := p8 p 7 == 1
        fullPolicy := p8 p 8, spanS := p32 p 12, stallMs := p32 p 16, journal := j }
    let s := s.modGranary fun g => { g with jobs := aset g.jobs (p16 p 0) job }
    .ok (s.modRing job.ring (·.register (jobConsumer (p16 p 0))))
  | none => .error .exhausted

def archiveJobConfigCmd : Cmd :=
  { kind := .staged
    rights := fun f s =>
      let p := f.payload
      (match s.job (p16 p 0) with
       | some j => j.owner == f.tenant
       | none => true)
      && (p8 p 2 != 1 || (match s.inputOwner (p8 p 3) (p16 p 4) with
        | some o => o == f.tenant.val
        | none => true))
    check := fun f s => do
      let p := f.payload
      let lim := if p8 p 3 = 3 then 132 else if p8 p 3 = 4 then 1024 else 128
      let span := p32 p 12
      layout p 32 [(0, decide (p16 p 0 < 1024)), (2, decide (p8 p 2 ≤ 1)), (3, inRange 1 (p8 p 3) 4), (4, decide (p16 p 4 < lim))
        , (6, decide (p8 p 6 ≤ 1) || p8 p 6 == 255), (7, decide (p8 p 7 ≤ 1)), (8, decide (p8 p 8 ≤ 2)), (9, zeroAt p 9 3)
        , (12, if p8 p 3 ≤ 2 then span == 0 else inRange 1 span 86400 && 86400 % span == 0), (16, inRange 10 (p32 p 16) 60000)
        , (20, zeroAt p 20 12)]
      fitted s
    apply := fun f s =>
      let p := f.payload
      let k := p16 p 0
      match s.job k with
      | some j =>
        if j.owner ≠ f.tenant then .error .notOwnerState
        else if p8 p 2 = 0 then .ok (s.endJob k true) else (s.endJob k true).createJob f
      | none =>
        if p8 p 2 = 0 then .ok s
        else if s.inputOwner (p8 p 3) (p16 p 4) ≠ some f.tenant.val then .error .notOwnerState
        else s.createJob f
    final := fun f s =>
      let p := f.payload
      if p8 p 2 = 0 then .ok ()
      else if s.inputOwner (p8 p 3) (p16 p 4) = some f.tenant.val && s.inputThere (p8 p 3) (p16 p 4) then .ok ()
      else .error .notOwnerState
    keys := fun p => [p16 p 0] }

/-! ## Records (R409 to R412) -/

/-- R409 to R411: whether a tenant may see a record; the Steward sees all. -/
def sees (f : Frame) (e : CatEntry) : Bool := f.tenant == 0 || e.tenant == f.tenant

/-- The owner of a named record, or the Steward. -/
def recordRights (f : Frame) (s : State) (id : Nat) : Bool :=
  match s.archived (BitVec.ofNat 48 id) with
  | some r => sees f r.entry
  | none => true

def archiveReadCmd : Cmd :=
  { kind := .immediate, rights := fun f s => recordRights f s (p64 f.payload 4)
    check := fun f s => do
      let p := f.payload
      layout p 44 ([(0, decide (p8 p 0 ≤ 2)), (1, zeroAt p 1 3), (4, decide (p64 p 4 < 2 ^ 48)), (12, inRange 1 (p32 p 12) 1024)
        , (16, zeroAt p 16 8)] ++ destFields f s (p8 p 0) 24)
      fitted s
      require (decide ((s.transfers.filter fun t => t.archive && t.tenant == f.tenant).length < 8)) (refuse .busy)
    run := fun f s => do
      let p := f.payload
      let ids := (((s.granary.catalogue.map (·.entry)).filter fun e => sees f e && decide (p64 p 4 ≤ e.recordId.toNat)).map
        (·.recordId.toNat)).take (p32 p 12)
      let (j, s) ← s.startWork f 0x0B03 ids.length
      .ok ({ journal := some j }, s.openTransfer (s.newTransfer f j 0 (p8 p 0) 24 true ids)) }

/-- R410: whether the span of a record overlaps an interval of VT seconds. -/
def State.overlaps (s : State) (e : CatEntry) (from_ to_ : Nat) : Bool :=
  decide (s.vt80Units e.firstVt / 2 ^ 48 ≤ to_) && decide (from_ ≤ s.vt80Units e.lastVt / 2 ^ 48)

def archiveListCmd : Cmd :=
  { kind := .readback
    check := fun f s => do
      let p := f.payload
      layout p 32 [(0, decide (p16 p 0 < 1024) || p16 p 0 == 0xFFFF), (2, decide (p8 p 2 ≤ 4)), (3, zeroAt p 3 1)
        , (4, inRange 1 (p32 p 4) 64), (8, decide (p64 p 8 < 2 ^ 48)), (16, decide (p64 p 16 < 2 ^ 48)), (24, decide (p64 p 24 < 2 ^ 48))]
      fitted s
    run := fun f s =>
      let p := f.payload
      let l := ((s.granary.catalogue.map (·.entry)).filter fun e =>
        sees f e && (p16 p 0 == 0xFFFF || e.source.toNat == p16 p 0) && (p8 p 2 == 0 || e.inputKind.toNat == p8 p 2)
          && decide (p64 p 8 < e.recordId.toNat) && s.overlaps e (p64 p 16) (p64 p 24)).take (p32 p 4)
      answer (w32 l.length ++ zeros 4 ++ (l.map CatEntry.bytes).flatten) s }

/-- R411: the records a retention command acts on; those of an absent cassette are left as they are. -/
def retains (f : Frame) (e : CatEntry) : Bool :=
  let p := f.payload
  sees f e && !e.offline && decide (p64 p 0 ≤ e.recordId.toNat ∧ e.recordId.toNat < p64 p 0 + p32 p 8)

def archiveRetainCmd : Cmd :=
  { kind := .immediate
    check := fun f s => do
      let p := f.payload
      layout p 16 [(0, decide (p64 p 0 < 2 ^ 48)), (8, inRange 1 (p32 p 8) 65536), (12, decide (p8 p 12 ≤ 2)), (13, zeroAt p 13 3)]
      fitted s
    run := fun f s => do
      let action := p8 f.payload 12
      let n := (s.granary.catalogue.filter fun r => retains f r.entry).length
      let (j, s) ← s.doneAtOnce f 0x0B05 n
      let s :=
        if action = 0 then s.deleteRecords (retains f)
        else
          let cs := ((s.granary.catalogue.filter fun r => retains f r.entry).map fun r => r.entry.cassette.val)
          (s.modEntries (retains f) fun e => { e with prot := action == 1 }).each cs State.catChange
      .ok ({ journal := some j }, s.serveArchive) }

/-- R412. -/
def Damage.bytes (d : Damage) : Bytes :=
  w64 d.recordId.toNat ++ w64 d.offset.toNat ++ w32 d.length.toNat ++ w64 d.foundSec.toNat ++ w8 d.cause ++ w8 d.cassette ++ zeros 2

def damageListGetCmd : Cmd :=
  { kind := .readback, rights := fun f s => p64 f.payload 0 == 0 || recordRights f s (p64 f.payload 0)
    check := fun f s => do
      let p := f.payload
      layout p 16 [(0, decide (p64 p 0 < 2 ^ 48)), (12, inRange 1 (p16 p 12) 64), (14, zeroAt p 14 2)]
      fitted s
    run := fun f s =>
      let p := f.payload
      let mine (d : Damage) : Bool :=
        if p64 p 0 = 0 then ((s.archived d.recordId).map fun r => r.entry.tenant == f.tenant).getD false
        else d.recordId.toNat == p64 p 0
      let l := s.granary.damage.filter mine
      answer (w32 l.length ++ zeros 4 ++ (((l.drop (p32 p 8)).take (p16 p 12)).map Damage.bytes).flatten) s }

/-- R413. -/
def gleanConfigCmd : Cmd :=
  { kind := .staged, steward := true
    check := fun f s => do
      let p := f.payload
      layout p 4 [(0, inRange 1 (p8 p 0) 90), (1, zeroAt p 1 1), (2, inRange 16 (p16 p 2) 120)]
      fitted s
    apply := fun f s => .ok (s.modGranary fun g => { g with scrubDays := p8 f.payload 0, refreshBits := p16 f.payload 2 })
    keys := fun _ => [0] }

/-! ## Cassettes (R414, R415) -/

/-- R414. -/
def cassetteFormatCmd : Cmd :=
  { kind := .immediate, steward := true
    check := fun f s => do
      let p := f.payload
      let x := s.cassette (p8 p 0)
      let needs := x.state == .inService || x.state == .readOnly || !(s.onCassette (p8 p 0)).isEmpty
      let open_ := x.state == .inService || x.state == .readOnly || x.state == .unformatted || x.state == .failed
      layout p 4 [(0, decide (p8 p 0 ≤ 1)), (1, decide (p8 p 1 ≤ 1)), (2, !(open_ && needs) || p8 p 2 == 0xA5), (3, zeroAt p 3 1)]
      fitted s
      require open_ (refuse .notOwnerState)
    run := fun f s => do
      let c := p8 f.payload 0
      let (j, s) ← s.startWork f 0x0B08 64
      let s := s.modCassette c fun x => { x with state := .formatting, formatJournal := some j, formatTlc := p8 f.payload 1 == 1 }
      .ok ({ journal := some j }, (s.restartJobsOn c).serveArchive) }

/-- R415, R406. -/
def cassetteEvacuateCmd : Cmd :=
  { kind := .immediate, steward := true
    check := fun f s => do
      let p := f.payload
      layout p 4 [(0, decide (p8 p 0 ≤ 1)), (1, decide (p8 p 1 ≤ 1)), (2, zeroAt p 2 2)]
      fitted s
      let x := s.cassette (p8 p 0)
      require (x.state == .inService || x.state == .readOnly) (refuse .notOwnerState)
      require ((s.cassette 0).evacuation.isNone && (s.cassette 1).evacuation.isNone) (refuse .busy)
    run := fun f s => do
      let c := p8 f.payload 0
      let all := p8 f.payload 1 == 1
      let (j, s) ← s.startWork f 0x0B09 (s.evacuees c all).length
      let s := s.modCassette c fun x => { x with state := .evacuating, evacuation := some (j, all) }
      .ok ({ journal := some j }, (s.restartJobsOn c).serveArchive) }

/-- R415. -/
def cassetteRetireCmd : Cmd :=
  { kind := .immediate, steward := true
    check := fun f s => do
      let p := f.payload
      layout p 4 [(0, decide (p8 p 0 ≤ 1)), (1, decide (p8 p 1 ≤ 1)), (2, zeroAt p 2 2)]
      fitted s
      let x := s.cassette (p8 p 0)
      if p8 p 1 = 0 then
        require (x.state == .inService || x.state == .readOnly || x.state == .evacuating) (refuse .notOwnerState)
        require (x.evacuation.isNone && x.retireJournal.isNone) (refuse .busy)
      else require (x.state == .retired && x.present) (refuse .notOwnerState)
    run := fun f s =>
      let c := p8 f.payload 0
      if p8 f.payload 1 = 0 then do
        let (j, s) ← s.startWork f 0x0B0A 1
        .ok ({ journal := some j }, s.modCassette c fun x => { x with retireJournal := some j })
      else do
        let (j, s) ← s.doneAtOnce f 0x0B0A 1
        let s := s.modCassette c fun x => { x.enter with powered := true }
        .ok ({ journal := some j }, (s.modEntries (fun e => e.cassette.val == c) fun e => { e with offline := false }).serveArchive) }

end Sys2Proof.Machine
end

