-- ==== Sys2Proof/WellFormed.lean ====
section
/-! DEFINITION. Which commands can come from outside: what the types of the operands do not say by themselves. -/

namespace Sys2Proof

/-- R451, R503: a source: an IPv4 address has 32 bits; the service port has neither address nor port. -/
def Source.wf (s : Source) : Bool :=
  (s.v6 || decide (s.ip.toNat < 2 ^ 32)) && (s.via != .service || (!s.v6 && s.ip == 0 && s.port == 0))

/-- R458: a frame that has passed its framing carries at most 8,192 bytes of payload. -/
def Frame.wf (f : Frame) : Bool := f.src.wf && decide (f.payload.length ≤ 8192)

/-- R47: the coded fields of an IRIG frame. -/
def IrigFrame.wf (f : IrigFrame) : Bool :=
  decide (1 ≤ f.coded.month ∧ f.coded.month ≤ 12 ∧ 1 ≤ f.coded.day ∧ f.coded.day ≤ 31 ∧ f.coded.hour ≤ 23 ∧ f.coded.minute ≤ 59
    ∧ f.coded.second ≤ 60)

/-- R131: a measured window names the nine slices and 16 sub-bands. -/
def WindowEstimate.wf (e : WindowEstimate) : Bool := e.terms.length == 9 && e.bands.length == 16

/-- R132: a block gives an estimate of each phase. -/
def BlockEstimates.wf (e : BlockEstimates) : Bool := e.phases.length == 8

/-- The conversions a row brings are some. -/
def SampleData.wf (d : SampleData) : Bool := !d.raw.isEmpty

/-- R332: the ports a controller serves: its own two sheaf ports and every module-wide port. -/
def servesPort (k port : Nat) : Bool := decide (16 ≤ port) || port / 2 == k

/-- R323, R332: a request offered to a controller. -/
def DramRequest.wf (k : Nat) (r : DramRequest) : Bool := servesPort k r.port.val && !r.low && !r.written

/-- R319, R343: what a training found for a lane. -/
def LaneTraining.wf (l : LaneTraining) : Bool :=
  decide (l.readVref.toNat ≤ 15 ∧ l.readDelay.toNat ≤ 127 ∧ l.writeDelay.toNat ≤ 127 ∧ l.readEye.toNat ≤ 128 ∧ l.writeEye.toNat ≤ 128)

/-- R543: the strobes of a run in order, one sample each. -/
def pinsWf (l : List PinSample) : Bool := (l.zip (l.drop 1)).all fun p => decide (p.1.v < p.2.v)

/-- A command that can come from outside. -/
def Instr.wf : Instr → Bool
  | .hello f | .commitAt f | .commitCancel f | .stageDiscard f | .stageGet f | .journalQuery f | .journalList f | .responseReplay f
  | .identityGet f | .timeGet f | .timebaseConfig f | .timeSet f | .leapSchedule f | .timeAlign f | .timeConvert f | .holdoverForce f
  | .leapTableGet f | .channelConfig f | .comparatorConfig f | .channelStatusGet f | .delayTableGet f | .rotationConfig f
  | .sliceSubstitute f | .calConfig f | .calChannelConfig f | .calRun f | .calStatusGet f | .calSetGet f | .calLogGet f
  | .triggerRouteConfig f | .armTrigger f | .softTrigger f | .triggerStatusGet f | .trigOutConfig f | .routeAssign f | .tillerLoad f
  | .tillerControl f | .rachisConfig f | .rachisStatusGet f | .rachisSend f | .rachisQuench f | .captureConfig f | .reductionConfig f
  | .accumConfig f | .armCapture f | .captureStatusGet f | .recordFetch f | .stampConfig f | .tiConfig f | .armStamps f
  | .awnStatusGet f | .measureConfig f | .engineAssign f | .imageLoad f | .imageVerify f | .imageDelete f | .reducerConfig f
  | .engineStatusGet f | .reducerStatusGet f | .engineKeyEnroll f | .engineRestore f | .imageList f | .dramStatusGet f
  | .dramPortStatsGet f | .dramQosConfig f | .dramConfig f | .dramMapConfig f | .dramIsolate f | .dramErrorLogGet f | .winnowConfig f
  | .winnowFlush f | .winnowStatusGet f | .granaryStatusGet f | .archiveJobConfig f | .archiveRead f | .archiveList f
  | .archiveRetain f | .damageListGet f | .gleanConfig f | .cassetteFormat f | .cassetteEvacuate f | .cassetteRetire f | .portConfig f
  | .portStatusGet f | .streamConfig f | .streamStart f | .streamStop f | .streamLeaseRenew f | .streamStatusGet f | .quench f
  | .tenantConfig f | .tenantStatusGet f | .channelAssign f | .pageGrant f | .eventSubscribe f | .eventAck f | .eventQuery f
  | .sweepStatusGet f | .drillSegmentLoad f | .drillConfig f | .drillControl f | .drillStatusGet f | .probeConfig f
  | .probeProfileLoad f | .probeStatusGet f | .loopbackSet f | .selfTestRun f | .testResultGet f | .unitIsolate f
  | .testSourceConfig f | .powerStatusGet f | .housekeepingConfig f | .housekeepingGet f | .operatingStateSet f
  | .powerFailReportGet f | .firmwareLoad f | .firmwareActivate f | .moduleReset f => f.wf
  | .badCommandFrame _ src _ => src.wf
  | .registerWrite _ addr _ => addr.toNat % 4 == 0
  | .icmpEcho _ _ v6 ip _ => v6 || decide (ip.toNat < 2 ^ 32)
  | .vtSecondBoundary ovr => decide (ovr.map (·.1)).Nodup
  | .irigFrame _ f => f.wf
  | .ensembleWindowEnd _ _ e => e.wf
  | .calBlockEnd _ _ _ e => e.block.wf && e.window.bands.length == 16
  | .calRunWindowEnd _ w => w.ests.all fun e => e.2.wf
  | .awnCheckDone _ _ _ taps verns => taps.length == 64 && verns.length == 100
  | .segmentEnd _ _ d | .circularDone _ _ d | .blockRecordEnd _ _ d | .earFifoFull _ _ d => d.wf
  | .accumRecordAdd _ _ _ raw => !raw.isEmpty
  | .digitalTriggerFire _ _ h => h.data.wf
  | .dramReadReturn _ k l clocks banks beats => l.all (DramRequest.wf k.val) && clocks.length == banks.length && beats.length == 8
  | .patrolScrubRead _ _ beats => beats.length == 8
  | .dramTrainingDone _ _ l => l.length == 10 && l.all LaneTraining.wf
  | .dramTempRead _ _ v => decide (-40 ≤ v ∧ v ≤ 125)
  | .drillRunStart _ l => pinsWf l
  | _ => true

end Sys2Proof
end

