-- ==== Sys2Proof/Machine/Schedule.lean ====
section
/-! DEFINITION. The scheduling of a DRAM controller (R320, R328, R334 to R338, R342): addresses, acceptance, the write queue, urgency, the
choice among waiting requests, row hits, and neighbour refresh. -/

namespace Sys2Proof.Machine

/-! ## Addresses (R320, R328) -/

/-- R328: the parity of the bits of an address under a mask. -/
def parityBit (a m : BitVec 34) : Nat := (bitsOf (a &&& m)).length % 2

/-- The number whose bits are the parities under masks, bit 0 first. -/
def parityField (a : BitVec 34) : List (BitVec 34) → Nat
  | [] => 0
  | m :: l => parityBit a m + 2 * parityField a l

/-- R328: bank group, bank, column and row of a controller address. -/
def Dram.place (x : Dram) (a : BitVec 34) : Nat × Nat × Nat × Nat :=
  (parityField a x.bgMask, parityField a x.baMask, a.toNat / 128 % 4 + 4 * (a.toNat / 2 ^ 14 % 16), a.toNat / 2 ^ 18)

/-- R320: the module page of a controller address. -/
def dramPage (k : Nat) (a : BitVec 34) : Nat := 8192 * k + a.toNat / 2097152

/-- The bank of a controller address among the 32, and its row. -/
def Dram.bankOf (x : Dram) (a : BitVec 34) : Nat := 4 * (x.place a).1 + (x.place a).2.1
def rowOf (a : BitVec 34) : Nat := a.toNat / 2 ^ 18

/-! ## Acceptance and the write queue (R336, R338) -/

/-- R338: two requests of one source. -/
def sameSource (a b : DramRequest) : Bool := a.port == b.port && a.source == b.source

/-- R336: the writes of the write queue. -/
def Dram.writes (x : Dram) : List DramRequest := x.waiting.filter (·.write)

/-- R319, R323, R336: whether a write covers the transfer of a request: a write moves a whole access, a write-back its transfer alone. -/
def requestCovers (w r : DramRequest) : Bool :=
  w.write && (if w.low then w.addr.toNat / 64 == r.addr.toNat / 64 else w.addr.toNat / 128 == r.addr.toNat / 128)

/-- R323: a request is accepted. A write overtakes the write-backs of what it covers that still wait, and the reads of it that are under way
are written back no more. -/
def Dram.enter (x : Dram) (r : DramRequest) : Dram :=
  if r.low && x.writes.any (requestCovers · r) then x
  else
    let stays (o : DramRequest) : Bool := !(o.low && requestCovers r o)
    { x with waiting := x.waiting.filter stays ++ [r], offered := x.offered.filter stays
             issued := x.issued.map fun o => if requestCovers r o then { o with written := true } else o }

/-- R336, R338: at a clock the requests offered are accepted, each source in its order; a write waits while the write queue holds 64, and what its
source issued after it waits too, from its own acceptance on. -/
def Dram.accept (x : Dram) (c : Nat) : Dram :=
  x.offered.foldl (fun x r =>
    if c < r.at_ then { x with offered := x.offered ++ [r] }
    else if x.offered.any (sameSource r) || (r.write && decide (64 ≤ x.writes.length)) then
      { x with offered := x.offered ++ [{ r with at_ := c + 1 }] }
    else x.enter r) { x with offered := [] }

/-- R336: a read that finds its data in the write queue; its source's older reads go first, and its source's later writes are not for it (R338). -/
def Dram.fromQueue (x : Dram) (r : DramRequest) : Bool :=
  let older := x.waiting.takeWhile (· != r)
  !r.write && (x.writes.any fun w => requestCovers w r && (!sameSource w r || older.contains w))
    && !(older.any fun o => sameSource o r && !o.write)

/-- R336: a batch of writes begins. -/
def Dram.startBatch (x : Dram) : Dram :=
  let n := x.writes.length
  if x.batch = 0 ∧ 16 ≤ n ∧ (48 ≤ n ∨ n = x.waiting.length) then { x with batch := 16 } else x

/-! ## Urgency (R334) -/

/-- R334: the wait of a request at a clock, in fifths of a nanosecond. -/
def requestWait (r : DramRequest) (c : Nat) : Nat := (c - r.at_) * 8

/-- R334: the level of a wait against a target, ns. -/
def urgency (wait targetNs : Nat) : Nat :=
  let l := 5 * targetNs
  if 9 * l ≤ 10 * wait then 3 else if 3 * l ≤ 4 * wait then 2 else if l ≤ 2 * wait then 1 else 0

/-- R323, R334: the level of a request at a clock. -/
def requestLevel (r : DramRequest) (ports : List DramPort) (c : Nat) : Nat :=
  if r.low then 0 else urgency (requestWait r c) (((ports[r.port.val]?).map (·.targetNs)).getD 0)

/-- R334, R354: a request of a port is answered at a clock. -/
def answered (ports : List DramPort) (r : DramRequest) (c : Nat) : List DramPort :=
  if r.low then ports
  else lmod ports r.port.val fun p =>
    { p with late := if 5 * p.targetNs < requestWait r c then p.late + 1 else p.late
             maxWaitNs := BitVec.ofNat 32 (max p.maxWaitNs.toNat (min (requestWait r c / 5) (2 ^ 32 - 1))) }

/-- R336: at a clock reads are answered from the write queue. -/
def Dram.answerQueued (x : Dram) (ports : List DramPort) (c : Nat) : Dram × List DramPort :=
  x.waiting.foldl (fun y r =>
    if y.1.fromQueue r then
      ({ y.1 with waiting := y.1.waiting.erase r, bytesServed := y.1.bytesServed + 64 }, answered y.2 r c)
    else y) (x, ports)

/-! ## The choice (R335) -/

/-- Whether a request finds its row open. -/
def Dram.hit (x : Dram) (r : DramRequest) : Bool := vget x.openRow (x.bankOf r.addr) == some (rowOf r.addr)

/-- R338: no older request of its source has to go first: reads among reads, writes after both. -/
def Dram.inOrder (x : Dram) (r : DramRequest) : Bool :=
  !((x.waiting.takeWhile (· != r)).any fun o => sameSource o r && (r.write || !o.write))

/-- R335, R336: whether a request may be issued at a clock: its bank's timing allows it, and a write belongs to a batch or is at level 3. -/
def Dram.mayIssue (x : Dram) (ports : List DramPort) (c : DramClock) (r : DramRequest) : Bool :=
  let b := x.bankOf r.addr
  c.banks.getLsbD b && decide (vget x.bankBusy b ≤ c.at_) && x.inOrder r
    && (!r.write || decide (0 < x.batch) || requestLevel r ports c.at_ == 3)

/-- Whether two requests want different rows of one bank. -/
def Dram.otherRow (x : Dram) (r o : DramRequest) : Bool := x.bankOf o.addr == x.bankOf r.addr && rowOf o.addr != rowOf r.addr

/-- R335: the requests that can be issued at a clock; a row that was closed for a waiting request stays closed while such a request can be
issued. -/
def Dram.candidates (x : Dram) (ports : List DramPort) (c : DramClock) : List DramRequest :=
  let l := x.waiting.filter (x.mayIssue ports c)
  l.filter fun r => !(vget x.closed (x.bankOf r.addr) == some (rowOf r.addr) && l.any (x.otherRow r))

/-- The order of lists of numbers. -/
def lexLt : List Nat → List Nat → Bool
  | a :: l, b :: m => decide (a < b) || (a == b && lexLt l m)
  | _, _ => false

/-- R335: what the choice goes by, the smaller first. -/
def Dram.rank (x : Dram) (ports : List DramPort) (c : Nat) (r : DramRequest) : List Nat :=
  [3 - requestLevel r ports c, boolNat (!x.hit r), r.at_, r.port.val]

/-- R335: the request issued at a clock; of equals the older. -/
def Dram.choose (x : Dram) (ports : List DramPort) (c : DramClock) : Option DramRequest :=
  (x.candidates ports c).foldl (fun best r => match best with
    | some b => if lexLt (x.rank ports c.at_ r) (x.rank ports c.at_ b) then some r else best
    | none => some r) none

/-! ## Issue and ACTIVATE (R342) -/

/-- R342: a row is activated; by the draw its two neighbours are refreshed, which takes the bank two row cycles and leaves it closed. -/
def Dram.activate (x : Dram) (hammerK bank row c : Nat) : Dram :=
  let g := Config.hammerNext x.generator
  let x := { x with generator := g, openRow := vset x.openRow bank (some row), hits := vset x.hits bank 0, closed := vset x.closed bank none }
  if Config.hammerDraws g hammerK then
    { x with neighbours := ([row - 1, row + 1].filter fun r => r != row && decide (r < 65536)).map fun r => (bank, r)
             bankBusy := vset x.bankBusy bank (c + 2 * Config.rowCycle), openRow := vset x.openRow bank none }
  else x

/-- R335: a row hit counts while a request to another row of its bank waits; the 16th in a row closes the row. -/
def Dram.countHit (x : Dram) (r : DramRequest) : Dram :=
  let b := x.bankOf r.addr
  let n := if x.waiting.any (x.otherRow r) then vget x.hits b + 1 else 0
  if n < 16 then { x with hits := vset x.hits b n }
  else { x with hits := vset x.hits b 0, openRow := vset x.openRow b none, closed := vset x.closed b (some (rowOf r.addr)) }

/-- R335, R342: a request is issued. -/
def Dram.issue (x : Dram) (hammerK c : Nat) (r : DramRequest) : Dram :=
  let x := if x.hit r then x.countHit r else x.activate hammerK (x.bankOf r.addr) (rowOf r.addr) c
  let x := { x with waiting := x.waiting.erase r, bytesServed := x.bytesServed + (if r.write && !r.low then 128 else 64) }
  if r.write then { x with batch := x.batch - 1 } else { x with issued := x.issued ++ [r] }

/-- R340: what a controller accepts at a clock, and, outside a refresh, what it answers from the write queue. -/
def Dram.accepts (x : Dram) (ports : List DramPort) (c : Nat) : Dram × List DramPort :=
  let x := x.accept c
  if c < x.stallUntil then (x, ports) else x.answerQueued ports c

/-- R334 to R336, R340: one DRAM clock; a refresh stalls every port. A write is answered as it is issued. -/
def dramClock (hammerK : Nat) (y : Dram × List DramPort) (c : DramClock) : Dram × List DramPort :=
  let (x, ports) := y.1.accepts y.2 c.at_
  if c.at_ < x.stallUntil then (x, ports)
  else
    let x := x.startBatch
    match x.choose ports c with
    | some r => (x.issue hammerK c.at_ r, if r.write then answered ports r c.at_ else ports)
    | none => (x, ports)

/-- R332: what happens at a controller up to the present, on the ports it serves. -/
def State.dramTraffic (s : State) (k : Nat) (a : DramTraffic) : State :=
  let x := { s.ctrl k with offered := (s.ctrl k).offered ++ a.offered.filter fun r => servesPort k r.port.val }
  let (x, ports) := (a.clocks.filter fun c => decide (c.at_ ≤ s.clock)).foldl (dramClock s.dram.hammerK) (x, s.dram.ports)
  let (x, ports) := x.accepts ports s.clock
  let s := s.modDram k fun _ => x
  { s with dram := { s.dram with ports } }

/-- R334, R354: the level of a port at the present, the highest over the controllers. -/
def State.portLevel (s : State) (p : Nat) : Nat :=
  ((List.range 8).flatMap fun k => ((s.ctrl k).waiting.filter fun r => r.port.val == p).map fun r => requestLevel r s.dram.ports s.clock).foldl max 0

/-- R323: a corrected transfer is to be written back at level 0, unless a write reaches it first (`Dram.enter`). Its port counts nothing (log
entry 64). -/
def Dram.writeBack (x : Dram) (a : BitVec 34) (c : Nat) : Dram :=
  { x with offered := x.offered ++ [{ port := 28, source := 2 ^ 32, addr := a, write := true, at_ := c, low := true }] }

/-- R340: a refresh stalls every port for 311 ns and closes the rows of all banks. -/
def Dram.refresh (x : Dram) (c : Nat) : Dram :=
  { x with stallUntil := c + ticksOfNs 311, openRow := Vector.replicate 32 none, hits := Vector.replicate 32 0
           closed := Vector.replicate 32 none }

end Sys2Proof.Machine
end

