-- ==== Sys2Proof/Machine/Dram.lean ====
section
/-! DEFINITION. The DRAM (chapter 09): errors, retirement, isolation, training, sweeps, and its commands. -/

namespace Sys2Proof.Machine

/-- An event raised on both sheaves of a stook. -/
def State.raiseStook (s : State) (k event : Nat) (p : Bytes) (named : List Nat := []) : State :=
  (s.raise (sheafEvent (2 * k) event) p named).raise (sheafEvent (2 * k + 1) event) p named

/-! ## Isolation (R345, R346) -/

/-- The VT of the last complete record of a ring that the controller accepted; without one the present (log entry 163). -/
def State.lastComplete (s : State) (r : RingId) : Vt96 :=
  match ((s.ring r).items.filter (·.complete)).getLast? with
  | some i => match i.body with
    | .record x => vtOfNat (s.vt80Units x.lastVt)
    | _ => s.now
  | none => s.now

/-- R345: the last good VT80 of a channel that the controller accepted: in modes 2 and 3 that of the last output of the record in progress. -/
def State.lastGood (s : State) (c : Nat) : Vt96 :=
  let x := s.chan c
  if x.capture.mode = 4 then vtOfNat (s.vt80Units (s.source c).lastStamp)
  else if x.capture.mode = 5 then s.lastComplete (.record (Fin.ofNat 128 c))
  else match x.openRec with
    | some r =>
      s.outputVt r (max (r.firstOut + 1) (s.streamStop { r with endSample := some (s.firstSampleAt c s.now) }) - 1)
    | none => s.lastComplete (.circular (Fin.ofNat 128 c))

/-- What of a channel lay in a DRAM that is lost, and what was on its way there. -/
def Channel.lost (x : Channel) : Channel := { x with openRec := none, ended := [], copyRec := none, copy := [], ear := [] }

/-- R345: a channel of the stook: mode 1 goes Ear-only, the other modes and the stamp stream stop. -/
def State.isolateChannel (s : State) (c : Nat) : State :=
  let x := s.chan c
  let mode := x.capture.mode
  let caught := decide (2 ≤ mode) && (x.capState == 1)
  let good := s.lastGood c
  let s := s.modChan c fun x => if mode = 1 then { x with capState := if x.capState = 1 then 4 else x.capState } else x.lost
  let s := if caught then s.stopOverflow c 2 (sheafOf c) good else s
  if (s.source c).running && !(caught && mode == 4) then
    s.raiseAt (vtOfNat (s.vt80Units (s.source c).lastStamp)) (chanEvent c 0) (w8 2 ++ w8 4 ++ w8 (sheafOf c))
  else s

/-- R345, R347: the stamp stream of a source stops without a stop word, and goes on only after ARM_STAMPS. -/
def State.dropStream (s : State) (i : Nat) : State :=
  s.modSource i fun x =>
    let y := { x with running := false, armed := false, startAtBoundary := false, queue := [], held := [] }
    if x.running then
      { y with state := 2, haltedAt := s.now, stops := x.stops ++ [(s.time.labelChanges, s.vt80Units x.lastStamp + 1, vtNat s.now)] }
    else y

/-- The stamp sources of a stook (R515). -/
def stookSources (k : Nat) : List Nat := (List.range 132).filter fun i => sourceStook i == k

/-- R345: whether an instance has an input or its results in a stook. -/
def State.instanceIn (s : State) (k : Nat) (x : Instance) : Bool :=
  x.state == 1 && (x.resultStook == k || x.inputs.any fun i => (i.ring.map s.ringStook) == some k)

/-- R325: what the reader of a poisoned transfer does; the damage is its own and meets no other reader of the item. -/
def State.poisonReader (s : State) (user : ReadUser) : State :=
  match user with
  | .engine e =>
    match s.runningUnit e.val with
    | some (k, _, u) =>
      let (v, s) := s.free
      s.poisonUnit k u.number (v.setWidth 8)
    | none => s
  | .stream i off => s.modStream i.val fun x => if x.running then { x with damage := x.damage ++ [(off, 64)] } else x
  | .transfer j off => { s with transfers := s.transfers.map fun t =>
      if t.journal = j.val ∧ !t.archive ∧ t.records ≠ [] then { t with damage := t.damage ++ [(off, 64)] } else t }
  | .archive k off => s.modJob k.val fun j => { j with damaged := j.damaged ++ [(off, 64)] }
  | .other => s

/-- R345: the outstanding requests of a controller complete as poisoned; writes it held are lost with it. -/
def State.poisonOutstanding (s : State) (k : Nat) : State :=
  let x := s.ctrl k
  let reads := (x.issued ++ x.waiting ++ x.offered).filter fun r => !r.write
  let s := s.modDram k fun x => { x with offered := [], waiting := [], issued := [], batch := 0 }
  s.each reads fun s r => s.poisonReader r.user

/-- R345: the steps of an isolation, up to the state in which the controller is left. -/
def State.isolateDram (s : State) (k cause : Nat) (left : DramState) : State :=
  let s := (s.modDram k fun x => { x with state := left, swept := false, byStage := cause == 0 }).poisonOutstanding k
  let s := s.each ((List.range 16).map (16 * k + ·)) State.isolateChannel
  let s := s.each (stookSources k) State.dropStream
  let s := s.each ((s.insts.filter fun e => s.instanceIn k e.2).map (·.1)) fun s i => s.stopInstance i 2
  let rings := s.ringIds.filter fun r => s.ringStook r == k
  let s := s.each rings fun s r => s.stopStreamsOn r 5
  let s := s.each rings State.endJobsOn
  let s := s.each rings fun s r => s.modRing r fun q => { q with items := [], waiting := false }
  let gone := s.transfers.filter fun t => !t.archive && stookOf t.channel == k
  let s := s.each gone fun s t => s.partialEntry t.journal 1
  let s := { s with transfers := s.transfers.filter fun t => t.archive || stookOf t.channel != k }
  let s := (s.raiseStook k 7 (w8 k ++ w8 cause)).noteEntry 0x0906 (BitVec.ofNat 32 (k + 256 * cause)) s.time.vtSec
  s.logDram (s.dramEntry 4 k)

/-! ## Reads (R322 to R327) -/

/-- R324, R345: a corrected transfer of a lane: a lane with 256 of them within 60 s is marked, a second marked lane isolates. -/
def State.dramCorrected (s : State) (k : Nat) (lane : Fin 10) : State :=
  let s := s.modDram k fun x =>
    { x with corrected := x.corrected + 1
             lanes := vmod x.lanes lane.val fun y =>
               { y with recent := (s.clock :: y.recent.filter fun c => decide (s.clock ≤ c + 60 * ticksPerSec)).take 256 } }
  let x := s.ctrl k
  if x.marked.getLsbD lane.val || decide ((vget x.lanes lane.val).recent.length < 256) then s
  else
    let second := x.marked != 0
    let s := s.modDram k fun x =>
      { x with marked := setBit x.marked lane.val true, state := if x.state = .inService then .exposed else x.state }
    let s := s.raiseStook k 9 (w8 k ++ w8 lane.val)
    let s := s.logDram { s.dramEntry 1 k with lane := BitVec.ofNat 8 lane.val }
    if second then s.isolateDram k 3 .isolated else s

/-- R326: a page that held an uncorrectable transfer; without an owner it is retired at once. -/
def State.markPage (s : State) (p : Nat) : State :=
  if (s.page p).retired then s
  else if (s.page p).owner = none then s.retirePage p
  else s.modPage p fun x => { x with markRetire := true }

/-- R325, R326, R345: an uncorrectable transfer. -/
def State.dramUncorrectable (s : State) (k port : Nat) (a : BitVec 34) (user : ReadUser) : State :=
  let page := dramPage k a
  let (bg, ba, col, row) := (s.ctrl k).place a
  let s := s.modDram k fun x =>
    { x with uncorrectable := x.uncorrectable + 1
             ueTimes := (s.clock :: x.ueTimes.filter fun c => decide (s.clock ≤ c + ticksPerSec)).take 16 }
  let s := s.raiseStook k 8 (w32 page ++ w8 port)
  let s := s.logDram { s.dramEntry 0 k with port := BitVec.ofNat 8 port, bankGroup := bg, bank := ba, column := col, row, page }
  let s := (s.markPage page).poisonReader user
  if 16 ≤ (s.ctrl k).ueTimes.length then s.isolateDram k 2 .isolated else s

/-- R322: what a read transfer decodes to. -/
inductive ReadResult where
  | clean
  | corrected (lane : Fin 10)
  | uncorrectable
deriving DecidableEq, Repr, Inhabited

/-- R322: the lane a beat in error names; none where the beat fails to decode, or where a marked device is known and another is in error (R324). -/
def beatLane (marked : BitVec 10) : BeatDecode → Option (Fin 10)
  | .clean => none
  | .single l => if marked = 0 ∨ marked.getLsbD l.val then some l else none
  | .failed => none

/-- R322, R324: corrected where every beat in error decodes and all name one lane. -/
def transferResult (marked : BitVec 10) (beats : List BeatDecode) : ReadResult :=
  match beats.filter (· != .clean) with
  | [] => .clean
  | b :: l =>
    match beatLane marked b with
    | some lane => if l.all fun e => beatLane marked e == some lane then .corrected lane else .uncorrectable
    | none => .uncorrectable

/-- R325: whether a controller serves requests. -/
def Dram.serves (x : Dram) : Bool := x.state == .inService || x.state == .exposed

/-- R322 to R325, R334, R340: the oldest read issued returns: it is answered, and corrected, counted or poisoned; in a refresh nothing returns. A
controller that does not serve
completes what is offered as poisoned (R345). -/
def effectDramReadReturn (k : Fin 8) (offered : List DramRequest) (clocks : List Nat) (banks : List (BitVec 32)) (beats : List BeatDecode) (s : State) :
    State :=
  if !(s.ctrl k.val).serves then s.each (offered.filter fun r => !r.write) fun s r => s.poisonReader r.user
  else
    let s := s.dramTraffic k.val { offered, clocks := clocks.zipWith DramClock.mk banks }
    if s.clock < (s.ctrl k.val).stallUntil then s
    else match (s.ctrl k.val).issued with
    | [] => s
    | r :: rest =>
      let s := s.modDram k.val fun x => { x with issued := rest }
      let s := { s with dram := { s.dram with ports := answered s.dram.ports r s.clock } }
      match transferResult (s.ctrl k.val).marked beats with
      | .clean => s
      | .corrected lane => (s.modDram k.val fun x => if r.written then x else x.writeBack r.addr s.clock).dramCorrected k.val lane
      | .uncorrectable => s.dramUncorrectable k.val r.port.val r.addr r.user

def execDramReadReturn (t : Nat) (k : Fin 8) (offered : List DramRequest) (clocks : List Nat) (banks : List (BitVec 32)) (beats : List BeatDecode)
    (s : State) : Host.Outcome State Fault Refusal :=
  .next (State.settle s (effectDramReadReturn k offered clocks banks beats (s.advance t)))

/-- R327: whether the patrol scrub may read: it begins a pass once in each scrub_hours, never in a refresh nor while the bank is occupied. -/
def Dram.patrols (x : Dram) (hours clock : Nat) : Bool :=
  x.serves && decide (x.stallUntil ≤ clock) && decide (vget x.bankBusy (x.bankOf x.scrubAddr) ≤ clock)
    && (x.scrubAddr != 0 || match x.scrubFrom with
      | some c => decide (c + hours * 3600 * ticksPerSec ≤ clock)
      | none => true)

/-- R327, R335: the patrol's read opens the row of its transfer and moves on to the next address. -/
def Dram.patrolStep (x : Dram) (hammerK clock : Nat) : Dram :=
  let a := x.scrubAddr
  let r : DramRequest := { port := 28, addr := a, at_ := clock, low := true }
  let y := if x.hit r then x else x.activate hammerK (x.bankOf a) (rowOf a) clock
  { y with scrubAddr := a + 64, scrubFrom := if a = 0 then some clock else x.scrubFrom
           scrubDoneAt := if a + 64 = 0 then clock else x.scrubDoneAt, bytesServed := x.bytesServed + 64 }

/-- R327, R337: the patrol scrub reads the next transfer of a controller, in ascending address; what the write queue covers is answered from there. -/
def effectPatrolScrubRead (k : Fin 8) (beats : List BeatDecode) (s : State) : State :=
  if !(s.ctrl k.val).patrols s.dram.scrubHours s.clock then s
  else
    let a := (s.ctrl k.val).scrubAddr
    let queued := (s.ctrl k.val).writes.any (requestCovers · { port := 28, addr := a, at_ := s.clock })
    let s := s.modDram k.val (·.patrolStep s.dram.hammerK s.clock)
    if queued then s
    else match transferResult (s.ctrl k.val).marked beats with
      | .clean => s
      | .corrected lane => (s.modDram k.val fun x => x.writeBack a s.clock).dramCorrected k.val lane
      | .uncorrectable => s.dramUncorrectable k.val 0xFF a .other

def execPatrolScrubRead (t : Nat) (k : Fin 8) (beats : List BeatDecode) (s : State) : Host.Outcome State Fault Refusal :=
  .next (State.settle s (effectPatrolScrubRead k beats (s.advance t)))

/-! ## Refresh (R340) -/

/-- R340: a refresh of a controller. -/
def execDramRefresh (t : Nat) (k : Fin 8) (s : State) : Host.Outcome State Fault Refusal :=
  let s1 := s.advance t
  .next (State.settle s (s1.modDram k.val fun x => x.refresh s1.clock))

/-- R340: the refresh interval of a controller, ns. -/
def Dram.refi (x : Dram) : Nat := if x.hot then 1950 else 3900

/-- R340: the highest device temperature, read every 1 ms. -/
def effectDramTempRead (k : Fin 8) (temp : Int) (s : State) : State :=
  let was := (s.ctrl k.val).hot
  let s := s.modDram k.val fun x => { x with temp, hot := if 85 < temp then true else if temp ≤ 80 then false else x.hot }
  if (s.ctrl k.val).hot = was then s else s.raiseStook k.val 10 (w16 (s.ctrl k.val).refi)

def execDramTempRead (t : Nat) (k : Fin 8) (temp : Int) (s : State) : Host.Outcome State Fault Refusal :=
  .next (State.settle s (effectDramTempRead k temp (s.advance t)))

/-! ## Training (R343, R344, R347) -/

/-- R344: the write delay of a lane moves by one tap. -/
def effectDramDriftTrack (k : Fin 8) (lane : Fin 10) (up : Bool) (s : State) : State :=
  if !(s.ctrl k.val).serves then s
  else
    let d : Int := if up then 1 else -1
    let s := s.modDram k.val fun x => { x with lanes := vmod x.lanes lane.val fun y =>
      { y with drift := y.drift + d, eyes := { y.eyes with writeDelay := y.eyes.writeDelay + BitVec.ofInt 8 d } } }
    let y := vget (s.ctrl k.val).lanes lane.val
    if 16 < y.drift.natAbs && !y.driftRaised then
      (s.modDram k.val fun x => { x with lanes := vmod x.lanes lane.val fun y => { y with driftRaised := true } }).raiseStook k.val 12
        (w8 lane.val ++ leInt 1 y.drift)
    else s

def execDramDriftTrack (t : Nat) (k : Fin 8) (lane : Fin 10) (up : Bool) (s : State) : Host.Outcome State Fault Refusal :=
  .next (State.settle s (effectDramDriftTrack k lane up (s.advance t)))

/-- R343: every lane's eyes are at least 24 taps. -/
def trainingPassed (l : List LaneTraining) : Bool :=
  l.length == 10 && l.all fun e => decide (24 ≤ e.readEye.toNat ∧ 24 ≤ e.writeEye.toNat)

/-- R347: the marks that still qualify under R324. -/
def State.marksLeft (s : State) (x : Dram) : BitVec 10 :=
  if x.restoring.isNone then x.marked
  else maskOf 10 ((bitsOf x.marked).filter fun l =>
    decide (256 ≤ ((vget x.lanes l).recent.filter fun c => decide (s.clock ≤ c + 60 * ticksPerSec)).length))

/-- R342, R343, R345, R347: an attempt at training ends, which needs the root locked; it has reseeded the generator with noise (a free value, log
entry 3). The taps chosen and the eyes found are the operand (log entry 253). -/
def effectDramTrainingDone (k : Fin 8) (lanes : List LaneTraining) (s : State) : State :=
  let x := s.ctrl k.val
  if x.state ≠ .training ∨ !s.time.locked then s
  else
    let (noise, s) := s.free
    let s := s.modDram k.val fun x =>
      { x with attempts := x.attempts + 1, trainedVt := s.time.vtSec, generator := noise.setWidth 32
               lanes := vmodAll x.lanes fun i y =>
                 { y with eyes := (lanes[i]?).getD y.eyes, drift := 0, driftRaised := false } }
    if trainingPassed lanes then
      let marks := s.marksLeft x
      let s := s.modDram k.val fun x =>
        { x with marked := marks, state := if marks = 0 then .inService else .exposed, swept := false }
      if x.restoring.isSome then s.logDram (s.dramEntry 5 k.val) else s
    else if (s.ctrl k.val).attempts < 3 then s
    else
      let s := (s.raiseStook k.val 11 (w8 3)).logDram (s.dramEntry 3 k.val)
      match x.restoring with
      | some j =>
        (s.modDram k.val fun x => { x with state := .isolated, restoring := none }).notStarted j .degraded 1
      | none => s.isolateDram k.val 1 .failed

def execDramTrainingDone (t : Nat) (k : Fin 8) (lanes : List LaneTraining) (s : State) : Host.Outcome State Fault Refusal :=
  .next (State.settle s (effectDramTrainingDone k lanes (s.advance t)))

/-- R326, R347: a page of a restored controller goes back to the pool, or is retired where it is marked. -/
def State.poolPage (s : State) (p : Nat) : State :=
  let s := s.sweepForgone p
  if (s.page p).markRetire then s.retirePage p else s.setPage p {}

/-- R343, R347, R512: the sweep of a whole controller completes: every page is swept and counted, and after a restore every page is back in
the pool. -/
def effectControllerSweepDone (k : Fin 8) (s : State) : State :=
  let x := s.ctrl k.val
  if !x.serves || x.swept then s
  else
    let s := s.modDram k.val fun x => { x with swept := true }
    let others := if x.restoring.isSome then 8192 else 8192 - (s.pagesWith k.val fun p => p.sweeping).length
    let s := { s with own := { s.own with swept := s.own.swept + BitVec.ofNat 64 others } }
    match x.restoring with
    | some j =>
      let s := s.each (s.pagesWith k.val fun p => !p.retired) State.poolPage
      (s.modDram k.val fun x => { x with restoring := none, resumeDrain := true }).completeAll j
    | none => s.each (s.pagesWith k.val fun p => p.sweeping) State.pageSwept

def execControllerSweepDone (t : Nat) (k : Fin 8) (s : State) : Host.Outcome State Fault Refusal :=
  .next (State.settle s (effectControllerSweepDone k (s.advance t)))

/-- R347: at the first commit step after the sweep the Ear-only channels of a restored controller drain again. -/
def State.resumeDrains (s : State) : State :=
  s.each (List.range 8) fun s k =>
    if !(s.ctrl k).resumeDrain then s
    else
      let s := s.modDram k fun x => { x with resumeDrain := false }
      s.each ((List.range 16).map (16 * k + ·)) fun s c =>
        (s.modChan c fun x => { x with capState := if x.capState = 4 then 1 else x.capState }).drainAll c (s.chan c).ear.length

/-! ## The Chaff sweep (R509 to R512) -/

/-- R509: the channel's memories are swept: it is granted, and what was held for it takes effect. -/
def State.channelSwept (s : State) (c : Nat) : State :=
  if (s.chan c).earSweep || (s.chan c).accSweep then s
  else
    let s := s.sweepOver (s.chanOwner c) (s.chan c).sweepStep 0 1
    let s := if (s.chan c).armHeld then s.armCapture c else s
    if (s.source c).armHeld then (s.modSource c fun x => { x with armHeld := false }).armSource c else s

/-- R509, R512: a sweep completes, or cannot write. -/
def effectChaffSweepDone (what : SweepId) (ok : Bool) (s : State) : State :=
  match what with
  | .page p =>
    if !(s.page p.val).sweeping || !(s.ctrl (p.val / 8192)).serves then s
    else if ok then s.pageSwept p.val
    else s.raiseStook (p.val / 8192) 13 (w32 p.val)
  | .ear c =>
    if !(s.chan c.val).earSweep then s
    else if ok then (s.modChan c.val fun x => { x with earSweep := false }).channelSwept c.val
    else s.raise (sheafEvent (sheafOf c.val) 13) (w32 0xFFFFFFFF ++ w8 c.val)
  | .accum c =>
    if !(s.chan c.val).accSweep then s
    else if ok then (s.modChan c.val fun x => { x with accSweep := false }).channelSwept c.val
    else s.raise (sheafEvent (sheafOf c.val) 13) (w32 0xFFFFFFFF ++ w8 c.val)

def execChaffSweepDone (t : Nat) (what : SweepId) (ok : Bool) (s : State) : Host.Outcome State Fault Refusal :=
  .next (State.settle s (effectChaffSweepDone what ok (s.advance t)))

/-! ## Commands (R348 to R355) -/

def DramState.code : DramState → Nat
  | .training => 0 | .inService => 1 | .exposed => 2 | .isolated => 3 | .failed => 4

/-- R353: one lane entry. -/
def DramLane.bytes (l : Nat) (x : DramLane) : Bytes :=
  w8 l ++ [x.eyes.readEye, x.eyes.writeEye, x.eyes.readVref, x.eyes.readDelay, x.eyes.writeDelay] ++ leInt 1 x.drift ++ zeros 1

/-- R353. -/
def State.dramStatus (s : State) (k : Nat) : Bytes :=
  let x := s.ctrl k
  w8 k ++ w8 x.state.code ++ w8 (x.marked.toNat % 256) ++ w8 (boolNat x.hot) ++ leInt 1 x.temp ++ w8 s.dram.hammerK ++ w8 x.attempts
    ++ w8 (x.marked.toNat / 256) ++ w64 x.corrected.toNat ++ w64 x.uncorrectable.toNat ++ w16 (s.retiredPages k).length ++ zeros 2
    ++ w32 ((s.clock - x.scrubDoneAt) / (3600 * ticksPerSec)) ++ w64 x.trainedVt.toNat ++ w64 x.bytesServed.toNat
    ++ (List.range 10).flatMap fun l => (vget x.lanes l).bytes l

def dramStatusGetCmd : Cmd :=
  { kind := .readback, check := fun f _ => layout f.payload 4 [(0, decide (p8 f.payload 0 ≤ 7)), (1, zeroAt f.payload 1 3)]
    run := fun f s => answer (s.dramStatus (p8 f.payload 0)) s }

/-- R354. -/
def portEntry (p level : Nat) (x : DramPort) : Bytes :=
  w8 p ++ w8 level ++ zeros 2 ++ w32 x.targetNs ++ w32 x.late.toNat ++ w32 x.maxWaitNs.toNat

def dramPortStatsGetCmd : Cmd :=
  { kind := .readback, check := noPayload
    run := fun _ s => answer ((List.range 29).flatMap fun p => portEntry p (s.portLevel p) ((s.dram.ports[p]?).getD { targetNs := 0 })) s }

/-- R349. -/
def dramQosConfigCmd : Cmd :=
  { kind := .staged, steward := true
    check := fun f _ => layout f.payload 8
      [(0, decide (0 < p32 f.payload 0 ∧ p32 f.payload 0 < 2 ^ 29)), (4, inRange 100 (p32 f.payload 4) 1000000)]
    apply := fun f s => .ok { s with dram := { s.dram with
      ports := (bitsOf (BitVec.ofNat 29 (p32 f.payload 0))).foldl (fun l p => lmod l p fun x => { x with targetNs := p32 f.payload 4 }) s.dram.ports } }
    keys := fun p => bitsOf (BitVec.ofNat 29 (p32 p 0))
    without := clearMask 4 }

/-- R350. -/
def dramConfigCmd : Cmd :=
  { kind := .staged, steward := true
    check := fun f _ => layout f.payload 4 [(0, inRange 6 (p8 f.payload 0) 14), (1, inRange 1 (p8 f.payload 1) 168), (2, zeroAt f.payload 2 2)]
    apply := fun f s => .ok { s with dram := { s.dram with hammerK := p8 f.payload 0, scrubHours := p8 f.payload 1 } }
    keys := fun _ => [0] }

/-- R329: a mask sets its own base bit and no other bit of [13:0]. -/
def maskOk (v base : Nat) : Bool := decide (v < 2 ^ 34) && v % 2 ^ 14 == 2 ^ base

/-- R331: a controller is swept whole: its rings and what they held are lost, the jobs that read them begin their records anew, and its pages take
no data until the sweep is done. -/
def State.sweepController (s : State) (k : Nat) : State :=
  let rings := s.ringIds.filter fun r => s.ringStook r == k
  let jobs := (s.granary.jobs.filter fun j => rings.contains j.2.ring).map (·.1)
  let s := (s.each jobs State.restartRecord).each rings State.dropRing
  let s := s.each ((List.range 16).map (16 * k + ·)) fun s c => s.modChan c fun x => if x.capture.mode = 1 then x else x.lost
  let s := s.each (stookSources k) fun s i => s.modSource i fun x => { x with queue := [], held := [] }
  let s := s.modDram k fun x => { x with swept := false }
  s.each (s.pagesWith k fun p => !p.retired) fun s p => s.modPage p fun x => { x with sweeping := true }

/-- R351, R331: new masks; the named controllers are swept and what their rings held is lost. -/
def dramMapConfigCmd : Cmd :=
  { kind := .staged, steward := true
    check := fun f s => do
      let p := f.payload
      layout p 48 ([(0, p8 p 0 != 0), (1, zeroAt p 1 7)] ++ (List.range 3).map (fun i => (8 + 8 * i, maskOk (p64 p (8 + 8 * i)) (9 + i)))
        ++ (List.range 2).map fun i => (32 + 8 * i, maskOk (p64 p (32 + 8 * i)) (12 + i)))
      require (s.power.opState == .maintenance) (refuse .notOwnerState)
    apply := fun f s =>
      let p := f.payload
      if s.power.opState != .maintenance then .error .notOwnerState
      else .ok (s.each (bitsOf (BitVec.ofNat 8 (p8 p 0))) fun s k =>
        let s := s.modDram k fun x =>
          { x with bgMask := (List.range 3).map fun i => BitVec.ofNat 34 (p64 p (8 + 8 * i))
                   baMask := (List.range 2).map fun i => BitVec.ofNat 34 (p64 p (32 + 8 * i)) }
        s.sweepController k)
    keys := fun p => bitsOf (BitVec.ofNat 8 (p8 p 0))
    without := clearMask 1 }

/-- R352: whether the action suits the state of the controller. -/
def State.dramActionOk (s : State) (k action : Nat) : Bool :=
  let x := s.ctrl k
  if action = 0 then x.serves else x.state == .isolated || x.state == .failed

/-- R347: a restore begins: the controller trains, and its rings have no pages. -/
def State.restoreDram (s : State) (k journal : Nat) : State :=
  let s := s.each (s.ringIds.filter fun r => s.ringStook r == k) State.dropRing
  s.modDram k fun x => { x with state := .training, attempts := 0, swept := false, restoring := some journal }

/-- R352, R345, R347. -/
def dramIsolateCmd : Cmd :=
  { kind := .staged, steward := true
    check := fun f s =>
      let p := f.payload
      layout p 4 [(0, decide (p8 p 0 ≤ 7)), (1, decide (p8 p 1 ≤ 1) && s.dramActionOk (p8 p 0) (p8 p 1)), (2, zeroAt p 2 2)]
    apply := fun f s =>
      let k := p8 f.payload 0
      if !s.dramActionOk k (p8 f.payload 1) then .error .degraded
      else if p8 f.payload 1 = 0 then .ok (s.isolateDram k 0 .isolated)
      else match s.newEntry (s.workEntry f.tenant.val f.seq 0x0906 16) with
        | some (j, s) => .ok (s.restoreDram k j)
        | none => .error .exhausted
    keys := fun p => [p8 p 0] }

/-- R355. -/
def DramLogEntry.bytes (e : DramLogEntry) : Bytes :=
  w64 e.vtSecond.toNat ++ w8 e.kind ++ w8 e.controller ++ [e.lane, e.port] ++ w8 e.bankGroup ++ w8 e.bank ++ w8 e.column ++ zeros 1
    ++ w16 e.row ++ zeros 2 ++ w32 e.page ++ w32 e.count.toNat ++ w32 e.generation.toNat

def dramErrorLogGetCmd : Cmd :=
  { kind := .readback, steward := true
    check := fun f s =>
      layout f.payload 4 [(0, (aget s.dram.log (p16 f.payload 0)).isSome), (2, inRange 1 (p16 f.payload 2) 64)]
    run := fun f s =>
      answer (w16 (oldestIndex s.dram.log s.dram.logNext 1024) ++ w16 s.dram.logNext ++ zeros 4
        ++ ((logPage s.dram.log s.dram.logNext 1024 (p16 f.payload 0) (p16 f.payload 2)).map DramLogEntry.bytes).flatten) s }

end Sys2Proof.Machine
end

