-- ==== Sys2Proof/Machine/Probe.lean ====
section
/-! DEFINITION. The probe synthesizers (R546 to R555, R562 to R564): dividers, profiles, sync, gating, and their commands. -/

namespace Sys2Proof.Machine

/-! ## Frequencies and dividers (R546 to R551) -/

def Probe.buffer (x : Probe) (b : Nat) : ProfileBuffer := vget x.buffers b

/-- The points of a profile in order; none where one was never loaded. -/
def ProfileBuffer.list (b : ProfileBuffer) : Option (List ProfilePoint) := (List.range b.length).mapM fun i => aget b.points i

/-- R550: whether the points after `q` follow one another, and no sweep is faster than 0.1 % of f_i per µs. -/
def profileOk (q : ProfilePoint) : List ProfilePoint → Bool
  | [] => true
  | x :: l =>
    decide (q.offset < x.offset)
      && (!x.sweep || decide (((x.freq : Int) - q.freq).natAbs * 625000 ≤ x.freq * (x.offset - q.offset)))
      && profileOk x l

/-- R550: a whole profile. -/
def ProfileBuffer.ok (b : ProfileBuffer) : Bool :=
  match b.list with
  | some (q :: l) => q.offset == 0 && profileOk q l
  | _ => false

def ProfileBuffer.lastOffset (b : ProfileBuffer) : Nat := ((b.list.bind (·.getLast?)).map (·.offset)).getD 0

/-- R547: the lowest and highest frequency a configuration uses. -/
def Probe.span (x : Probe) (c : ProbeCfg) : Nat × Nat :=
  if c.mode = 2 then
    match (x.buffer c.buffer).list with
    | some (q :: l) => l.foldl (fun r y => (min r.1 y.freq, max r.2 y.freq)) (q.freq, q.freq)
    | _ => (c.freq, c.freq)
  else (c.freq, c.freq)

/-- R547: the largest even divider up to `2 * n` that keeps the span within the VCO's range. -/
def dividerUpTo (lo hi : Nat) : Nat → Option Nat
  | 0 => none
  | n + 1 =>
    let d := 2 * (n + 1)
    if d < 4 then none
    else if 6000000000000 ≤ lo * d ∧ hi * d ≤ 12000000000000 then some d else dividerUpTo lo hi n

def divider (r : Nat × Nat) : Option Nat := dividerUpTo r.1 r.2 512

/-- R548: the VCO span of a configuration is at most 8 %. -/
def spanOk (r : Nat × Nat) : Bool := decide (r.2 * 100 ≤ r.1 * 108)

/-- SLICE ticks of a profile's run at an instant, and the repeats completed; none before start_vt. -/
def ProbeCfg.phaseAt (c : ProbeCfg) (v : Vt96) : Option (Nat × Nat) :=
  if vtLt v c.startVt then none
  else
    let n := ((vtSub v c.startVt).toNat * ticksPerSec + 2 ^ 47) / 2 ^ 48
    some (if c.period = 0 then (n, 0) else (n % c.period, n / c.period))

/-- The point in force at an offset. -/
def pointAt (l : List ProfilePoint) (n : Nat) : Nat := (l.filter fun y => decide (y.offset ≤ n)).length - 1

/-- R550: where a profile stands at an instant: the point, the repeats, whether it sweeps to the next point. Before start_vt
it stands at point 0. -/
def Probe.standing (x : Probe) (v : Vt96) : Nat × Nat × Bool :=
  let l := ((x.buffer x.cfg.buffer).list).getD []
  match x.cfg.phaseAt v with
  | some (n, k) =>
    let i := pointAt l n
    (i, k, ((l[i + 1]?).map (·.sweep)).getD false)
  | none => (0, 0, false)

/-- R549, R550: the frequency at an instant, mHz. -/
def Probe.freqAt (x : Probe) (v : Vt96) : Nat :=
  if x.cfg.mode = 1 then x.cfg.freq
  else if x.cfg.mode = 2 then
    let l := ((x.buffer x.cfg.buffer).list).getD []
    match l[x.point]? with
    | some a =>
      match l[x.point + 1]?, x.sweeping with
      | some b, true =>
        let n := ((x.cfg.phaseAt v).map (·.1)).getD 0
        let d := min (n - a.offset) (b.offset - a.offset)
        ((a.freq : Int) + ((b.freq : Int) - a.freq) * d / (max (b.offset - a.offset) 1 : Nat)).toNat
      | _, _ => a.freq
    | none => 0
  else 0

/-! ## Phase (R552) -/

/-- The integral of the frequency along a profile from point `a` on, over its first `n` ticks, mHz × ticks. -/
def profileArea (n : Nat) (a : ProfilePoint) : List ProfilePoint → Rat
  | [] => mkRat (a.freq * (n - a.offset) : Nat) 1
  | b :: l =>
    let d := min n b.offset - a.offset
    let area : Rat := mkRat (a.freq * d : Nat) 1
      + if b.sweep then mkRat (((b.freq : Int) - a.freq) * (d * d : Nat)) (2 * (b.offset - a.offset)) else 0
    area + if n ≤ b.offset then 0 else profileArea n b l

/-- R550, R552: the same from start_vt to a tick of the run, which stands at point 0 before start_vt. -/
def Probe.area (x : Probe) (n : Int) : Rat :=
  match ((x.buffer x.cfg.buffer).list).getD [] with
  | a :: l =>
    if n < 0 then mkRat (n * a.freq) 1
    else if x.cfg.period = 0 then profileArea n.toNat a l
    else mkRat (n.toNat / x.cfg.period : Nat) 1 * profileArea x.cfg.period a l + profileArea (n.toNat % x.cfg.period) a l
  | [] => 0

/-- The tick of a profile's run at an instant, negative before start_vt. -/
def ProbeCfg.runTick (c : ProbeCfg) (v : Vt96) : Int := (vtSub v c.startVt * ticksPerSec + 2 ^ 47) / 2 ^ 48

/-- R552: cycles of the output from one clock to a later one; `v` is the VT of the earlier. -/
def Probe.cyclesOver (x : Probe) (v : Vt96) (from_ to_ : Nat) : Rat :=
  let ticks := to_ - from_
  let area : Rat := if x.cfg.mode = 1 then mkRat (x.cfg.freq * ticks : Nat) 1
    else if x.cfg.mode = 2 then
      let n := x.cfg.runTick v
      x.area (n + ticks) - x.area n
    else 0
  area / mkRat (1000 * ticksPerSec : Nat) 1

/-- R552: the phase φ of a probe at a clock. -/
def State.phaseOf (s : State) (k clock : Nat) : Rat :=
  let x := s.probe k
  x.phase + x.cyclesOver (s.vtOfTick x.phaseTick) x.phaseTick clock

/-- R552: the rising zero crossings that leave the connector after one clock and by another. -/
def State.crossings (s : State) (k from_ to_ : Nat) : Int := (s.phaseOf k to_).floor - (s.phaseOf k from_).floor

/-- R549, R551, R554: the phase so far is kept where the frequency changes; a reset still to come stands. -/
def State.foldPhase (s : State) (k : Nat) : State :=
  if s.clock ≤ (s.probe k).phaseTick then s
  else
    let p := s.phaseOf k s.clock
    s.modProbe k fun x => { x with phase := p, phaseTick := s.clock }

/-- Take the profile's standing at an instant. -/
def State.standProbe (s : State) (k : Nat) (v : Vt96) : State :=
  s.modProbe k fun x =>
    if x.cfg.mode = 2 then
      let st := x.standing v
      { x with point := st.1, cycles := BitVec.ofNat 64 st.2.1, sweeping := st.2.2 }
    else { x with point := 0, sweeping := false }

/-- R549, R551, R555: a commit gives a probe new settings. The band is kept where the new span lies within the one it was searched
for; whether it covers any other span is a free value (log entry 3). -/
def State.setProbe (s : State) (k : Nat) (c : ProbeCfg) : Except Status State :=
  let s := s.foldPhase k
  let x := s.probe k
  let r := x.span c
  if c.mode = 0 then
    let s := (s.modProbe k fun x => { x with cfg := c, locked := false, cycles := 0 }).losePhase k
    .ok ((s.gateProbe k 4).standProbe k s.now)
  else
    match divider r, (c.mode == 1 || (x.buffer c.buffer).ok) && spanOk r with
    | some d, true =>
      let vco := (r.1 * d, r.2 * d)
      let inside := decide (x.vco.1 ≤ vco.1 ∧ vco.2 ≤ x.vco.2)
      let asks := x.locked && d == x.outDiv && !inside
      let drawn := s.free
      let s := if asks then drawn.2 else s
      let keeps := x.locked && d == x.outDiv && (inside || drawn.1.getLsbD 0)
      let s := s.modProbe k fun x => { x with cfg := c, outDiv := d, vco := if inside && keeps then x.vco else vco }
      let s := s.ungateProbe k 4
      let s := if keeps then s
        else
          let s := s.modProbe k fun y =>
            { y with locked := false, relocks := if x.cfg.mode = 0 then y.relocks else y.relocks + 1 }
          (s.losePhase k).gateProbe k 2
      .ok (s.standProbe k s.now)
    | _, _ => .error .badParam

/-! ## Sync (R553, R554) -/

/-- R552, R553: a sync of the probes that enable a source: their phase is 0 at T_s, and they are gated until T_s + 50 µs. Two decided in one SLICE tick count as
one. -/
def State.syncProbes (s : State) (source tick : Nat) : State :=
  s.each (List.range 8) fun s k =>
    let x := s.probe k
    if !x.cfg.syncEnable.getLsbD source || (x.syncs != 0 && x.syncDecided == s.clock) then s
    else
      (s.gateProbe k 3).modProbe k fun y =>
        { y with phasePending := true, phase := 0, phaseTick := tick, lastSync := s.vtOfTick tick, syncTick := tick, syncDecided := s.clock, syncSource := source
                 syncs := y.syncs + 1 }

/-- R76, R553: a rising edge of SYNC. -/
def effectSyncEdge (s : State) : State :=
  let s := if s.time.snapOnSync then s.snapAt s.now else s
  s.syncProbes 0 (s.grandTick (s.clock + 125))

def execSyncEdge (t : Nat) (s : State) : Host.Outcome State Fault Refusal :=
  .next (State.settle s (effectSyncEdge (s.advance t)))

/-- R189, R553: the instant of a Rachis sync message, rounded up to a SLICE tick. -/
def effectRachisSyncInstant (s : State) : State :=
  match s.rachis.syncs with
  | v :: rest =>
    if s.tickOfVt v ≤ s.clock then (s.modRachis fun r => { r with syncs := rest }).syncProbes 1 (s.tickOfVt v) else s
  | [] => s

def execRachisSyncInstant (t : Nat) (s : State) : Host.Outcome State Fault Refusal :=
  .next (State.settle s (effectRachisSyncInstant (s.advance t)))

/-- R553, R554: 50 µs after T_s the sync gate of the probes of that sync clears, unless a Rachis sync is still to come; phase_valid
is set, at once or when the output opens. -/
def effectProbeSyncGateEnd (probe : Fin 8) (s : State) : State :=
  let x := s.probe probe.val
  if !x.gate.getLsbD 3 || decide (s.clock < x.syncTick + 31250) || !x.phasePending then s
  else
    let l := (List.range 8).filter fun k =>
      let y := s.probe k
      y.gate.getLsbD 3 && y.phasePending && y.syncTick == x.syncTick && y.syncSource == x.syncSource
    let s := s.each l fun s k =>
      let more := (s.probe k).cfg.syncEnable.getLsbD 1 && !s.rachis.syncs.isEmpty
      let s := if more then s else s.ungateProbe k 3
      s.modProbe k fun y => if y.gate = 0 then { y with phaseValid := true, phasePending := false } else y
    s.raiseAt x.lastSync 0x5FA (w8 (maskOf 8 l).toNat ++ w8 x.syncSource)

def execProbeSyncGateEnd (t : Nat) (probe : Fin 8) (s : State) : Host.Outcome State Fault Refusal :=
  .next (State.settle s (effectProbeSyncGateEnd probe (s.advance t)))

/-! ## Lock and gates (R548, R555) -/

/-- R548, R555: lock is declared; the gate causes of the probe's lock, and of the root where it is locked, clear. -/
def effectProbeLock (probe : Fin 8) (band : BitVec 7) (s : State) : State :=
  let x := s.probe probe.val
  if x.cfg.mode = 0 ∨ x.locked ∨ !s.time.locked then s
  else
    let s := (if x.phasePending then s else s.losePhase probe.val).modProbe probe.val fun y => { y with locked := true, band }
    (s.ungateProbe probe.val 2).ungateProbe probe.val 1

def execProbeLock (t : Nat) (probe : Fin 8) (band : BitVec 7) (s : State) : Host.Outcome State Fault Refusal :=
  .next (State.settle s (effectProbeLock probe band (s.advance t)))

/-- R555: the lock is lost in service. -/
def effectProbeUnlock (probe : Fin 8) (s : State) : State :=
  if !(s.probe probe.val).locked then s
  else
    let s := (s.modProbe probe.val fun y => { y with locked := false }).losePhase probe.val
    (s.raise 0x5F8 (w8 probe.val)).gateProbe probe.val 2

def execProbeUnlock (t : Nat) (probe : Fin 8) (s : State) : Host.Outcome State Fault Refusal :=
  .next (State.settle s (effectProbeUnlock probe (s.advance t)))

/-- R555: an unlocked probe searches again. -/
def effectProbeRelockRetry (probe : Fin 8) (s : State) : State :=
  s.modProbe probe.val fun x => if x.cfg.mode ≠ 0 ∧ !x.locked then { x with relocks := x.relocks + 1 } else x

def execProbeRelockRetry (t : Nat) (probe : Fin 8) (s : State) : Host.Outcome State Fault Refusal :=
  .next (State.settle s (effectProbeRelockRetry probe (s.advance t)))

/-- R552, R554, R555: with every cause cleared the output opens at the next rising zero crossing, where its phase is a whole number. -/
def effectProbeGateOpen (probe : Fin 8) (s : State) : State :=
  let x := s.probe probe.val
  if x.gate ≠ 0 ∨ x.opened ∨ !x.locked then s
  else
    let p := s.phaseOf probe.val s.clock
    let s := s.modProbe probe.val fun y =>
      { y with opened := true, openPhase := p.ceil, phaseValid := y.phaseValid || y.phasePending, phasePending := false }
    s.raise 0x5F9 (w8 probe.val ++ w8 1 ++ w8 0)

def execProbeGateOpen (t : Nat) (probe : Fin 8) (s : State) : Host.Outcome State Fault Refusal :=
  .next (State.settle s (effectProbeGateOpen probe (s.advance t)))

/-- R550: the profile reaches its next point. -/
def execProbeProfilePoint (t : Nat) (probe : Fin 8) (s : State) : Host.Outcome State Fault Refusal :=
  let s1 := s.advance t
  .next (State.settle s (s1.standProbe probe.val s1.now))

/-! ## Commands -/

/-- R562: the settings in a payload. -/
def probeCfgOf (p : Bytes) : ProbeCfg :=
  { mode := p8 p 1, syncEnable := BitVec.ofNat 2 (p8 p 2), level := s8 p 3, buffer := p8 p 4, freq := p64 p 8, startVt := vtAt p 16
    period := p64 p 28 }

/-- R562. -/
def probeConfigCmd : Cmd :=
  { kind := .staged, steward := true
    check := fun f s =>
      let p := f.payload
      let c := probeCfgOf p
      let x := s.probe (p8 p 0)
      let b := x.buffer (p8 p 4)
      let usable := c.mode != 2 || (b.ok && (divider (x.span c)).isSome && spanOk (x.span c))
      layout p 40 [(0, decide (p8 p 0 ≤ 7)), (1, decide (p8 p 1 ≤ 2)), (2, decide (p8 p 2 ≤ 3)), (3, inRangeI (-20) (s8 p 3) 12)
        , (4, decide (p8 p 4 ≤ 1) && usable), (5, zeroAt p 5 3), (8, inRange 10000000000 (p64 p 8) 3000000000000)
        , (28, p64 p 28 == 0 || (decide (p64 p 28 < 2 ^ 48) && (c.mode != 2 || decide (b.lastOffset < p64 p 28)))), (36, zeroAt p 36 4)]
    apply := fun f s => s.setProbe (p8 f.payload 0) (probeCfgOf f.payload)
    keys := fun p => [p8 p 0] }

/-- R563. -/
def probeProfileLoadCmd : Cmd :=
  { kind := .immediate, steward := true
    check := fun f s => do
      let p := f.payload
      let n := p16 p 6
      layout p (16 + 16 * n) ([(0, decide (p8 p 0 ≤ 7)), (1, decide (p8 p 1 ≤ 1)), (2, inRange 1 (p16 p 2) 4096), (4, decide (p16 p 4 ≤ 4095))
        , (6, inRange 1 n 500 && decide (p16 p 4 + n ≤ p16 p 2)), (8, zeroAt p 8 8)]
        ++ (List.range n).flatMap fun i =>
          let o := 16 + 16 * i
          [(o + 6, decide (p8 p (o + 6) ≤ 1)), (o + 7, zeroAt p (o + 7) 1), (o + 8, inRange 10000000000 (p64 p (o + 8)) 3000000000000)])
      let x := s.probe (p8 p 0)
      require (!(x.cfg.mode == 2 && x.cfg.buffer == p8 p 1)) (refuse .busy)
    run := fun f s =>
      let p := f.payload
      let point (i : Nat) : ProfilePoint := ⟨p48 p (16 + 16 * i), p8 p (22 + 16 * i) == 1, p64 p (24 + 16 * i)⟩
      .ok ({}, s.modProbe (p8 p 0) fun x =>
        { x with buffers := vmod x.buffers (p8 p 1) fun b =>
            { length := p16 p 2
              points := (List.range (p16 p 6)).foldl (fun m i => aset m (p16 p 4 + i) (point i))
                (b.points.filter fun e => decide (e.1 < p16 p 2)) } }) }

/-- R564. -/
def State.probeStatus (s : State) (k : Nat) : Bytes :=
  let x := s.probe k
  let state := if x.cfg.mode = 0 then 0 else if !x.locked then 1 else if x.opened then 2 else 3
  let freq := x.freqAt s.now
  w8 k ++ w8 state ++ w8 x.gate.toNat
    ++ w8 (boolNat x.phaseValid + 2 * boolNat x.sweeping + 4 * x.cfg.buffer) ++ w8 x.band.toNat ++ w8 0 ++ w16 x.outDiv ++ w64 freq
    ++ vt96Bytes x.lastSync ++ w16 x.point ++ w16 x.relocks.toNat ++ w64 (freq * x.outDiv) ++ w64 x.cycles.toNat ++ w32 x.syncs.toNat
    ++ zeros 12

def probeStatusGetCmd : Cmd :=
  { kind := .readback, check := fun f _ => layout f.payload 4 [(0, decide (p8 f.payload 0 ≤ 7)), (1, zeroAt f.payload 1 3)]
    run := fun f s => answer ((s.standProbe (p8 f.payload 0) s.now).probeStatus (p8 f.payload 0)) s }

end Sys2Proof.Machine
end

