-- ==== Sys2Proof/Machine/Ports.lean ====
section
/-! DEFINITION. Host ports and streams (chapter 12): links, address resolution, transfers, stream rows, and the commands. -/

namespace Sys2Proof.Machine

/-! ## Received frames (R420 to R424) -/

/-- A frame is received on a port. -/
def State.rxFrame (s : State) (port : Nat) : State := s.modPort port fun p => { p with rxFrames := p.rxFrames + 1 }

/-- Enter an address in a cache of 256 entries; the oldest entry makes room. -/
def cacheAdd (l : List (BitVec w × U48)) (ip : BitVec w) (mac : U48) : List (BitVec w × U48) :=
  lastN 256 ((l.filter fun e => e.1 != ip) ++ [(ip, mac)])

/-- R420, R422, R424. -/
def effectEthernetFrameDiscard (port : Fin 3) (why : DiscardCause) (s : State) : State :=
  (s.rxFrame port.val).modPort port.val fun p =>
    match why with
    | .commandBufferFull => { p with rxCmdDropped := p.rxCmdDropped + 1 }
    | _ => { p with rxDiscarded := p.rxDiscarded + 1 }

def execEthernetFrameDiscard (t : Nat) (port : Fin 3) (why : DiscardCause) (s : State) : Host.Outcome State Fault Refusal :=
  .next (State.settle s (effectEthernetFrameDiscard port why (s.advance t)))

/-- R423: streams and transfers whose destination a port has come to know are resolved. -/
def State.learned (s : State) (port : Nat) : State :=
  let p := s.port port
  { s with
    streams := vmodAll s.streams fun _ x => match x.cfg with
      | some c => if x.running && c.port == port && p.resolves c.v6 c.destIp then { x with resolved := true } else x
      | none => x
    transfers := s.transfers.map fun t => if t.port = port ∧ p.resolves t.v6 t.destIp then { t with resolved := true } else t }

/-- R422, R423: an ARP request for the port's address is answered, a reply enters the cache. -/
def effectArpReceive (port : Fin 3) (request : Bool) (senderIp : U32) (senderMac : U48) (targetIp : U32) (s : State) : State :=
  let s := s.rxFrame port.val
  let c := (s.port port.val).cfg
  if !c.ipMode.getLsbD 0 || c.ip4 == 0 then s.modPort port.val fun p => { p with rxDiscarded := p.rxDiscarded + 1 }
  else if request then
    if targetIp = c.ip4 then
      s.queueControl port.val { destIp := senderIp.setWidth 128, carried := .arp senderMac, bytes := arpPacket port.val c 2 senderMac senderIp }
    else s
  else (s.modPort port.val fun p => { p with arp := cacheAdd p.arp senderIp senderMac }).learned port.val

def execArpReceive (t : Nat) (port : Fin 3) (request : Bool) (senderIp : U32) (senderMac : U48) (targetIp : U32) (s : State) :
    Host.Outcome State Fault Refusal :=
  .next (State.settle s (effectArpReceive port request senderIp senderMac targetIp (s.advance t)))

/-- R422, R423: a neighbour solicitation for an address of the port is answered, one without a sender (duplicate address detection) to all nodes;
an advertisement enters the cache. -/
def effectNdpReceive (port : Fin 3) (solicitation : Bool) (senderIp : BitVec 128) (senderMac : U48) (targetIp : BitVec 128)
    (s : State) : State :=
  let s := s.rxFrame port.val
  let c := (s.port port.val).cfg
  if !c.ipMode.getLsbD 1 then s.modPort port.val fun p => { p with rxDiscarded := p.rxDiscarded + 1 }
  else if solicitation then
    if (targetIp == c.ip6 && c.ip6 != 0) || targetIp == linkLocal port.val then
      let dest : BitVec 128 := if senderIp = 0 then 0xFF020000000000000000000000000001 else senderIp
      s.queueControl port.val
        { v6 := true, destIp := dest, carried := .icmp targetIp
          bytes := icmpMessage true targetIp dest 136 (beBytes 4 (if senderIp = 0 then 0x20000000 else 0x60000000) ++ ipBytes true targetIp ++ beBytes 1 2
            ++ beBytes 1 1 ++ macBytes (Config.mac port.val)) }
    else s
  else (s.modPort port.val fun p => { p with ndp := cacheAdd p.ndp targetIp senderMac }).learned port.val

def execNdpReceive (t : Nat) (port : Fin 3) (solicitation : Bool) (senderIp : BitVec 128) (senderMac : U48)
    (targetIp : BitVec 128) (s : State) : Host.Outcome State Fault Refusal :=
  .next (State.settle s (effectNdpReceive port solicitation senderIp senderMac targetIp (s.advance t)))

/-- R422: an echo request is answered, at most 1,000 per second, by the address of the sender's scope (log entry 265); others are discarded. -/
def effectIcmpEcho (port : Fin 3) (v6 : Bool) (senderIp : BitVec 128) (data : Bytes) (s : State) : State :=
  let s := s.rxFrame port.val
  let p := s.port port.val
  let within := p.echoTimes.filter fun c => decide (s.clock < c + ticksPerSec)
  if !p.cfg.ipMode.getLsbD (boolNat v6) || (!v6 && p.cfg.ip4 == 0) || decide (1000 ≤ within.length) then
    s.modPort port.val fun p => { p with rxDiscarded := p.rxDiscarded + 1 }
  else
    let own := if !v6 then p.cfg.ip4.setWidth 128
      else if p.cfg.ip6 = 0 ∨ isLinkLocal senderIp then linkLocal port.val else p.cfg.ip6
    (s.modPort port.val fun p => { p with echoTimes := s.clock :: within }).queueControl port.val
      { v6, destIp := senderIp, carried := .icmp own, bytes := icmpMessage v6 own senderIp (if v6 then 129 else 0) data }

def execIcmpEcho (t : Nat) (port : Fin 3) (v6 : Bool) (senderIp : BitVec 128) (data : Bytes) (s : State) :
    Host.Outcome State Fault Refusal :=
  .next (State.settle s (effectIcmpEcho port v6 senderIp data (s.advance t)))

/-- R422: an entry is refreshed: the address is asked for again. -/
def effectArpCacheRefresh (port : Fin 3) (ip : U32) (s : State) : State :=
  if (s.port port.val).arp.any fun e => e.1 == ip then s.askAddress port.val false (ip.setWidth 128) else s

def execArpCacheRefresh (t : Nat) (port : Fin 3) (ip : U32) (s : State) : Host.Outcome State Fault Refusal :=
  .next (State.settle s (effectArpCacheRefresh port ip (s.advance t)))

/-! ## Links (R418, R419) -/

/-- R418: a link changes. -/
def State.setLink (s : State) (port : Nat) (up : Bool) : State :=
  if (s.port port).link = up then s
  else
    let s := s.modPort port fun p => { p with link := up, linkChanges := p.linkChanges + 1 }
    if port < 2 then s.raise 0x505 (w8 port ++ w8 (boolNat up)) else s

/-- R598, R614: the ports stay down until the root has first locked, and once the main domain has stopped. -/
def State.portsClocked (s : State) : Bool := s.time.lockCount != 0 && s.power.mainOn

/-- R440: the running streams of a port stop with a cause. -/
def State.stopPortStreams (s : State) (port cause : Nat) : State :=
  s.each (List.range 128) fun s i => if ((s.stream i).cfg.map (·.port)) = some port then s.stopStream i cause else s

/-- R418, R582: an isolated port holds its link down. -/
def effectHostLinkUp (port : Fin 2) (s : State) : State :=
  if (s.port port.val).isolated || !s.portsClocked then s else s.setLink port.val true

def execHostLinkUp (t : Nat) (port : Fin 2) (s : State) : Host.Outcome State Fault Refusal :=
  .next (State.settle s (effectHostLinkUp port (s.advance t)))

def effectHostLinkDown (port : Fin 2) (s : State) : State := (s.setLink port.val false).stopPortStreams port.val 4

def execHostLinkDown (t : Nat) (port : Fin 2) (s : State) : Host.Outcome State Fault Refusal :=
  .next (State.settle s (effectHostLinkDown port (s.advance t)))

def effectMgmtLinkChange (up : Bool) (s : State) : State := s.setLink 2 (up && s.portsClocked)

def execMgmtLinkChange (t : Nat) (up : Bool) (s : State) : Host.Outcome State Fault Refusal :=
  .next (State.settle s (effectMgmtLinkChange up (s.advance t)))

/-! ## Destinations (R423, R430) -/

def State.modTransfer (s : State) (j : Nat) (f : Transfer → Transfer) : State :=
  { s with transfers := s.transfers.map fun t => if t.journal = j then f t else t }

def State.transfer (s : State) (j : Nat) : Option Transfer := s.transfers.find? fun t => t.journal == j

/-- A transfer ends partial. -/
def State.endTransfer (s : State) (j rem : Nat) : State :=
  let s := s.partialEntry j rem
  { s with transfers := s.transfers.filter fun t => t.journal != j }

/-- R423: try again to resolve a destination: it is in the cache now, or it is asked for. -/
def effectAddressResolveRetry (who : Sender) (s : State) : State :=
  match who with
  | .stream i =>
    let x := s.stream i.val
    match x.cfg with
    | some c =>
      if !x.running || x.resolved then s
      else if (s.port c.port).resolves c.v6 c.destIp then s.modStream i.val fun x => { x with resolved := true }
      else s.askAddress c.port c.v6 ((s.port c.port).cfg.nextHop c.v6 c.destIp)
    | none => s
  | .transfer j =>
    match s.transfer j.val with
    | some x =>
      if x.resolved then s
      else if (s.port x.port).resolves x.v6 x.destIp then s.modTransfer j.val fun x => { x with resolved := true }
      else s.askAddress x.port x.v6 ((s.port x.port).cfg.nextHop x.v6 x.destIp)
    | none => s

def execAddressResolveRetry (t : Nat) (who : Sender) (s : State) : Host.Outcome State Fault Refusal :=
  .next (State.settle s (effectAddressResolveRetry who (s.advance t)))

/-- R430: a destination not resolved for 10 s. -/
def effectTransferResolveTimeout (journal : Fin 4096) (s : State) : State :=
  match s.transfer journal.val with
  | some x => if !x.resolved && decide (x.since + 10 * ticksPerSec ≤ s.clock) then s.endTransfer journal.val 1 else s
  | none => s

def execTransferResolveTimeout (t : Nat) (journal : Fin 4096) (s : State) : Host.Outcome State Fault Refusal :=
  .next (State.settle s (effectTransferResolveTimeout journal (s.advance t)))

/-! ## Transfers (R252, R346, R409, R429) -/

/-- The fragments of an item for a transfer: frame after frame until the item is sent. -/
def transferFrames (h : DataHead) (b : Bytes) (mtu : Nat) (v6 : Bool) (damage : List (Nat × Nat)) : Nat → Nat → List Bytes
  | _, 0 => []
  | off, fuel + 1 =>
    let (len, d) := fragment mtu v6 b.length off damage
    let last := decide (b.length ≤ off + len) || len == 0
    dataFrame { h with first := off == 0, last, offset := off } (blank off (part b off len) d) d
      :: (if last then [] else transferFrames { h with frameSeq := h.frameSeq + 1 } b mtu v6 damage (off + len) fuel)

/-- The bytes of an archived record this module did not write: open (log entry 27). -/
def openBytes (ctr n : Nat) : Bytes := (List.range n).map fun i => (Config.freeValue (ctr + i)).setWidth 8

/-- The item of a transfer's next record: its bytes, damage and last generation; none where it is no longer held. -/
def State.transferItem (s : State) (x : Transfer) (id : Nat) : Option (Bytes × List (Nat × Nat) × U32) :=
  if x.archive then
    match s.archived (BitVec.ofNat 48 id) with
    | some r =>
      let readable := match (s.cassette r.entry.cassette.val).state with
        | .inService | .readOnly | .evacuating => true
        | _ => false
      if r.entry.offline || !readable then none
      else
        let d := (s.granary.damage.filter fun d => d.recordId == r.entry.recordId && d.cassette == r.entry.cassette.val).map fun d =>
          (d.offset.toNat, d.length.toNat)
        some (r.content.getD (openBytes s.freeCtr r.entry.rawLen.toNat), d, r.entry.genLast)
    | none => none
  else
    let ofRing (r : Ring) := r.items.find? fun i => i.complete && i.id == id
    match ofRing (s.chan x.channel).ring, ofRing (s.chan x.channel).circ with
    | some i, _ => some (i.body.bytes, x.damage, i.generation)
    | none, some i => some (i.body.bytes, x.damage, i.generation)
    | none, none =>
      if s.drains (stookOf x.channel) then none
      else ((s.chan x.channel).ear.find? fun g => g.filled && g.record.recordId.toNat == id).map fun g =>
        (g.record.bytes, [], g.record.genLast)

/-- R346: a record sent from the Ear leaves it. -/
def State.freeEarRecord (s : State) (c id : Nat) : State :=
  if s.drains (stookOf c) then s
  else s.modChan c fun x => { x with ear := x.ear.filter fun g => g.record.recordId.toNat != id }

/-- Queue frames of a transfer on queue 1 (R425); when the last of a record of an Ear has left, the Ear gives the record up (R346). -/
def State.sendTransfer (s : State) (x : Transfer) (id : Nat) (fs : List Bytes) : State :=
  s.each ((List.range fs.length).zip fs) fun s e => s.queueData x.port 1
    { v6 := x.v6, destIp := x.destIp, destPort := x.destPort, srcPort := (s.port x.port).cfg.cmdPort, bytes := e.2
      frees := if !x.archive && e.1 + 1 == fs.length then some (x.channel, id) else none }

/-- R252, R409: a transfer ends after its last record: complete, or partial where records were skipped. -/
def State.finishTransfer (s : State) (j : Nat) : State :=
  match s.transfer j with
  | some x =>
    if x.records ≠ [] then s
    else
      let s := { s with transfers := s.transfers.filter fun t => t.journal != j }
      match aget s.jr.entries j with
      | some e => if e.done = e.total then s.completeEntry j else s.partialEntry j 3
      | none => s
  | none => s

/-- R429: the next item of a transfer is queued. -/
def effectTransferFrameSend (journal : Fin 4096) (s : State) : State :=
  let j := journal.val
  match s.transfer j with
  | some x =>
    if !x.resolved || (x.port < 2 && s.quenched) then s
    else match x.records with
      | id :: rest =>
        let s := s.modTransfer j fun x => { x with records := rest }
        let s := match s.transferItem x id with
          | some (b, d, gen) =>
            let h : DataHead :=
              { frameType := 1, tenant := x.tenant.val, journal := j, frameSeq := x.frameSeq, itemId := id, itemLen := b.length
                genLast := gen }
            let fs := transferFrames h b (s.port x.port).cfg.mtu x.v6 d 0 (b.length + 1)
            let s := s.sendTransfer x id fs
            let s := s.modTransfer j fun x => { x with frameSeq := x.frameSeq + BitVec.ofNat 32 fs.length, done := x.done + 1, damage := [] }
            let s := if x.archive then { s with freeCtr := s.freeCtr + b.length } else s
            s.addUnits j 1
          | none => s
        s.finishTransfer j
      | [] => s.finishTransfer j
  | none => s

def execTransferFrameSend (t : Nat) (journal : Fin 4096) (s : State) : Host.Outcome State Fault Refusal :=
  .next (State.settle s (effectTransferFrameSend journal (s.advance t)))

/-! ## Stream rows (R433, R434, R442, R443) -/

/-- R433: whether a frame of so many bytes keeps a stream within its rate over the last 100 µs; a frame too large for one such span waits for its
own time. -/
def State.withinRate (s : State) (x : Stream) (c : StreamCfg) (wire : Nat) : Bool :=
  let near := x.recent.filter fun e => decide (s.clock < e.1 + ticksOfUs 100)
  let sum := (near.map (·.2)).sum
  let spaced := match x.recent with
    | (t, n) :: _ => decide (t + n * 625 / c.rateLimit ≤ s.clock)
    | [] => true
  decide (sum + wire ≤ 100 * c.rateLimit) || spaced

/-- R433: a stream queues its next frame. -/
def effectStreamFrameSend (stream : Fin 128) (s : State) : State :=
  let i := stream.val
  let x := s.stream i
  match x.cfg with
  | some c =>
    if !x.running || !x.resolved || s.quenched then s
    else if c.kind = 1 then s.sendVdif i c
    else match (s.ring (s.streamRing c)).nextFor (.stream stream) with
      | some it =>
        let (len, d) := fragment (s.port c.port).cfg.mtu c.v6 it.body.bytes.length x.itemPos x.damage
        if s.withinRate x c (wireBytes (s.port c.port).cfg c.v6 (44 + len + 8 * d.length)) then s.sendFragment i c it else s
      | none => s
  | none => s

def execStreamFrameSend (t : Nat) (stream : Fin 128) (s : State) : Host.Outcome State Fault Refusal :=
  .next (State.settle s (effectStreamFrameSend stream (s.advance t)))

/-- R434: a stream that lags skips the items that are too old, or holds its ring. -/
def effectStreamLag (stream : Fin 128) (s : State) : State :=
  let i := stream.val
  let x := s.stream i
  match x.cfg with
  | some c =>
    let old := s.lagItems i c
    let old := if x.itemPos = 0 then old else old.drop 1
    if !x.running || c.lagPolicy != 0 || old.isEmpty then s
    else
      let ids := old.map (·.id)
      let s := s.modRing (s.streamRing c) fun q => { q with items := q.items.map fun it =>
        if (ids.contains it.id) then { it with releasedBy := it.releasedBy ++ [.stream stream] } else it }
      s.modStream i fun x =>
        { x with itemsSkipped := x.itemsSkipped + BitVec.ofNat 64 old.length, skippedThis := x.skippedThis + BitVec.ofNat 32 old.length
                 gap := true, damage := if x.itemPos = 0 then [] else x.damage }
  | none => s

def execStreamLag (t : Nat) (stream : Fin 128) (s : State) : Host.Outcome State Fault Refusal :=
  .next (State.settle s (effectStreamLag stream (s.advance t)))

/-- R442: a lease expires. -/
def effectStreamLeaseExpire (stream : Fin 128) (s : State) : State :=
  let x := s.stream stream.val
  if x.running && decide (x.leaseUntil ≤ s.clock) then s.stopStream stream.val 2 else s

def execStreamLeaseExpire (t : Nat) (stream : Fin 128) (s : State) : Host.Outcome State Fault Refusal :=
  .next (State.settle s (effectStreamLeaseExpire stream (s.advance t)))

/-- R443: the pin is low. -/
def effectQuenchNAssert (s : State) : State :=
  if s.quench.pin then s else ({ s with quench := { s.quench with pin := true } }).quenchAssert

def execQuenchNAssert (t : Nat) (s : State) : Host.Outcome State Fault Refusal :=
  .next (State.settle s (effectQuenchNAssert (s.advance t)))

def execQuenchNRelease (t : Nat) (s : State) : Host.Outcome State Fault Refusal :=
  let s1 := s.advance t
  .next (State.settle s { s1 with quench := { s1.quench with pin := false } })

/-! ## The status frame of a second (R439) -/

/-- R439: after a second each running stream sends its status frame; `t0` is the clock at which the second began. -/
def State.streamSecond (s : State) (sec : U48) (t0 i : Nat) : State :=
  let x := s.stream i
  match x.cfg, x.running with
  | some c, true =>
    let p := w64 sec.toNat ++ [s.tsbOver t0 (t0 + ticksPerSec)] ++ zeros 3 ++ w32 x.framesThis.toNat ++ w64 x.bytesThis.toNat ++ w32 x.skippedThis.toNat
      ++ w32 x.flaggedThis.toNat ++ w64 (if c.kind = 1 then x.firstOffsetFs.toNat else 0) ++ w32 (s.leaseLeft x) ++ zeros 4
    let wire := x.bytesThis.toNat + x.framesThis.toNat * wireBytes (s.port c.port).cfg c.v6 0
    let s := if s.quenched || !x.resolved then s
      else s.sendStream i c c.queue (dataFrame (s.controlHead i 4 48) p [])
    s.modStream i fun x =>
      { x with framesThis := 0, bytesThis := 0, skippedThis := 0, flaggedThis := 0, firstOffsetFs := 0
               rateNow := BitVec.ofNat 32 (wire / 1000000) }
  | _, _ => s

/-! ## PORT_CONFIG (R446) -/

def portCfgOf (p : Bytes) : PortCfg :=
  { ipMode := BitVec.ofNat 2 (p8 p 1), mtu := p16 p 2, vlan := p16 p 4, ctrlPcp := p8 p 6, ctrlDscp := p8 p 7
    ip4 := BitVec.ofNat 32 (beNat (part p 8 4)), prefix4 := p8 p 12, cmdPort := BitVec.ofNat 16 (p16 p 14)
    gw4 := BitVec.ofNat 32 (beNat (part p 16 4)), ip6 := BitVec.ofNat 128 (beNat (part p 20 16)), prefix6 := p8 p 36
    weights := (List.range 7).map fun i => p8 p (37 + i), gw6 := BitVec.ofNat 128 (beNat (part p 44 16)) }

/-- R423, R430: a port's addresses have changed: what is sent from it is resolved anew. -/
def State.resolveAnew (s : State) (port : Nat) : State :=
  let s := s.each (List.range 128) fun s i => match (s.stream i).cfg with
    | some c =>
      if c.port = port then s.modStream i fun x => { x with resolved := x.running && (s.port port).resolves c.v6 c.destIp } else s
    | none => s
  { s with transfers := s.transfers.map fun t =>
      if t.port = port ∧ t.resolved ∧ !(s.port port).resolves t.v6 t.destIp then { t with resolved := false, since := s.clock } else t }

/-- R446: a change of address or VLAN clears the caches and runs duplicate address detection. -/
def State.setPort (s : State) (port : Nat) (c : PortCfg) : State :=
  let o := (s.port port).cfg
  let changed := o.ip4 != c.ip4 || o.prefix4 != c.prefix4 || o.gw4 != c.gw4 || o.ip6 != c.ip6 || o.prefix6 != c.prefix6
    || o.gw6 != c.gw6 || o.vlan != c.vlan || o.ipMode != c.ipMode
  let s := s.modPort port fun p => { p with cfg := c }
  if !changed then s
  else
    let s := (s.modPort port fun p => { p with arp := [], ndp := [] }).resolveAnew port
    if c.ipMode.getLsbD 1 && c.ip6 != 0 then
      let dst := solicitedNode c.ip6
      s.queueControl port { v6 := true, destIp := dst, carried := .icmp 0, bytes := icmpMessage true 0 dst 135 (zeros 4 ++ ipBytes true c.ip6) }
    else s

def portConfigCmd : Cmd :=
  { kind := .staged, steward := true
    check := fun f _ =>
      let p := f.payload
      layout p 64 ([(0, decide (p8 p 0 ≤ 2)), (1, decide (p8 p 1 ≤ 3))
        , (2, if p8 p 0 = 2 then p16 p 2 == 1500 else inRange 1280 (p16 p 2) 9000), (4, inRange 1 (p16 p 4) 4094 || p16 p 4 == 65535)
        , (6, decide (p8 p 6 ≤ 7)), (7, decide (p8 p 7 ≤ 63)), (12, inRange 8 (p8 p 12) 30), (13, zeroAt p 13 1)
        , (14, decide (1024 ≤ p16 p 14)), (36, inRange 48 (p8 p 36) 127)]
        ++ (List.range 7).map (fun i => (37 + i, decide (1 ≤ p8 p (37 + i)))) ++ [(60, zeroAt p 60 4)])
    apply := fun f s => .ok (s.setPort (p8 f.payload 0) (portCfgOf f.payload))
    keys := fun p => [p8 p 0] }

/-- R449: `v` and `w` are the codewords RS-FEC corrected and could not correct, which no row tells (log entry 13). -/
def State.portStatus (s : State) (k : Nat) (v w : U64) : Bytes :=
  let p := s.port k
  let fec (x y : U64) : U64 := if k < 2 then x + y else 0
  let running := ((List.range 128).filter fun i => (s.stream i).running && ((s.stream i).cfg.map (·.port)) == some k).length
  w8 k ++ w8 (boolNat p.link) ++ w8 running ++ zeros 1 ++ w64 p.txFrames.toNat ++ w64 p.rxFrames.toNat ++ w64 (fec p.fecCorrected v).toNat
    ++ w64 (fec p.fecUncorrected w).toNat ++ w32 p.rxDiscarded.toNat ++ w32 p.rxCmdDropped.toNat ++ w32 (s.portRate k / 1000000)
    ++ w16 p.arp.length ++ w16 p.ndp.length ++ w32 p.linkChanges.toNat ++ w32 p.q0Peak ++ zeros 4

def portStatusGetCmd : Cmd :=
  { kind := .readback, check := fun f _ => layout f.payload 4 [(0, decide (p8 f.payload 0 ≤ 2)), (1, zeroAt f.payload 1 3)]
    run := fun f s =>
      let (v, s) := s.free
      let (w, s) := s.free
      answer (s.portStatus (p8 f.payload 0) v w) s }

/-! ## STREAM_CONFIG (R431, R438, R447) -/

def streamCfgOf (p : Bytes) : StreamCfg :=
  let v6 := p8 p 9 == 6
  { kind := p8 p 2, port := p8 p 3, input := p16 p 4, queue := p8 p 6, dscp := p8 p 7, pcp := p8 p 8, v6
    destPort := BitVec.ofNat 16 (p16 p 10), srcPort := BitVec.ofNat 16 (p16 p 12), leaseMs := p16 p 14, destIp := netIp v6 p 16
    rateLimit := p32 p 32, lagPolicy := p8 p 36, vdifBits := p8 p 37, vdifShift := p8 p 38, vdifSpf := p32 p 40
    vdifStation := p16 p 44, lagMs := p16 p 46 }

/-- R382, R431: the owner of the input of a stream. -/
def State.streamOwner (s : State) (kind index : Nat) : Option Nat :=
  s.inputOwner (if kind = 1 then 2 else if kind = 2 then 1 else kind) index

/-- R438: whether a VDIF stream is possible as a stage leaves its channel and port. -/
def State.vdifOk (s : State) (c : StreamCfg) : Bool :=
  let x := s.chan c.input
  let rate := 5000000000 / 2 ^ x.reduction.k
  decide (x.reduction.k ≤ 9) && x.dataFormat != 4 && rate % c.vdifSpf == 0 && decide (rate / c.vdifSpf ≤ 2 ^ 24)
    && decide (c.vdifBytes + 8 + (if c.v6 then 40 else 20) ≤ (s.port c.port).cfg.mtu)

/-- R431: whether the ring of a stream is there. -/
def State.streamInput (s : State) (c : StreamCfg) : Bool :=
  if c.kind = 1 then (s.chan c.input).capture.mode == 3
  else if c.kind = 2 then s.inputThere 1 c.input || s.inputThere 2 c.input
  else s.inputThere c.kind c.input

/-- Stop a stream that is replaced or deleted; a registration without a run ends too (R441). -/
def State.clearStream (s : State) (i : Nat) : State :=
  let s := s.stopStream i 6
  match (s.stream i).cfg with
  | some c => s.modRing (s.streamRing c) (·.deregister (.stream (Fin.ofNat 128 i)))
  | none => s

def streamFields (p : Bytes) : List (Nat × Bool) :=
  let kind := p8 p 2
  let lim := if kind = 3 then 132 else if kind = 4 then 1024 else 128
  let vdif := kind == 1
  [(2, inRange 1 kind 4), (3, decide (p8 p 3 ≤ 1)), (4, decide (p16 p 4 < lim)), (6, inRange 1 (p8 p 6) 7), (7, decide (p8 p 7 ≤ 63))
  , (8, decide (p8 p 8 ≤ 7)), (9, p8 p 9 == 4 || p8 p 9 == 6), (10, p16 p 10 != 0), (12, decide (1024 ≤ p16 p 12))
  , (14, inRange 10 (p16 p 14) 10000), (16, p8 p 9 == 6 || zeroAt p 20 12)
  , (32, if vdif then p32 p 32 == 0 else inRange 1 (p32 p 32) 12000), (36, decide (p8 p 36 ≤ 1))
  , (37, if vdif then p8 p 37 == 8 || p8 p 37 == 16 else p8 p 37 == 0)
  , (38, if vdif && p8 p 37 == 8 then decide (p8 p 38 ≤ 4) else p8 p 38 == 0), (39, zeroAt p 39 1)
  , (40, if vdif then p32 p 40 != 0 && p32 p 40 * p8 p 37 % 64 == 0 else p32 p 40 == 0), (44, vdif || p16 p 44 == 0)
  , (46, inRange 1 (p16 p 46) 60000), (48, zeroAt p 48 16)]

def streamConfigCmd : Cmd :=
  { kind := .staged
    rights := fun f s => p8 f.payload 1 != 1 || (match s.streamOwner (p8 f.payload 2) (p16 f.payload 4) with
      | some o => o == f.tenant.val
      | none => true)
    check := fun f _ =>
      let p := f.payload
      layout p 64 ([(0, decide (p8 p 0 < 128)), (1, decide (p8 p 1 ≤ 1))]
        ++ (if p8 p 1 = 0 then (List.range 62).map fun i => (2 + i, zeroAt p (2 + i) 1) else streamFields p))
    apply := fun f s =>
      let i := p8 f.payload 0
      let x := s.stream i
      if x.cfg.isSome ∧ x.owner ≠ f.tenant then .error .notOwnerState
      else
        let s := s.clearStream i
        if p8 f.payload 1 = 0 then .ok (s.modStream i fun x => { x with cfg := none, owner := 0 })
        else
          let c := streamCfgOf f.payload
          let fresh : Stream := if x.cfg.isNone then {} else s.stream i
          let s := s.modStream i fun _ => { fresh with cfg := some c, owner := f.tenant }
          .ok (s.modRing (s.streamRing c) (·.register (.stream (Fin.ofNat 128 i))))
    final := fun f s =>
      if p8 f.payload 1 = 0 then .ok ()
      else
        let c := streamCfgOf f.payload
        if s.streamOwner c.kind c.input ≠ some f.tenant.val then .error .notOwnerState
        else if c.kind = 1 && !s.vdifOk c then .error .badParam
        else if !s.streamInput c then .error .notOwnerState
        else .ok ()
    keys := fun p => [p8 p 0] }

/-! ## STREAM_START, STREAM_STOP, leases and QUENCH (R442, R443, R448) -/

def streamMask (p : Bytes) : List Nat := bitsOf (maskAt 128 p 0 16)

/-- A tenant owns every defined stream of a mask. -/
def ownsStreams (f : Frame) (s : State) : Bool :=
  (streamMask f.payload).all fun i => (s.stream i).cfg.isNone || (s.stream i).owner == f.tenant

/-- Streams a tenant's open stage defines. -/
def State.stagedStreams (s : State) (tenant : Nat) : List Nat :=
  (s.tenant tenant).stage.filterMap fun i => match i with
    | .streamConfig g => if p8 g.payload 1 = 1 then some (p8 g.payload 0) else none
    | _ => none

/-- R423, R442, R653: a stream starts with a new lease, its registration and its journal entry, and asks for its destination. -/
def State.startStream (s : State) (f : Frame) (i : Nat) : Except Status State :=
  let x := s.stream i
  match x.cfg with
  | none => .error .badParam
  | some c =>
    if x.running then .ok s
    else if s.streamOwner c.kind c.input ≠ some f.tenant.val || !s.streamInput c then .error .notOwnerState
    else match s.newEntry (s.workEntry f.tenant.val f.seq 0x0C04 0) with
      | none => .error .exhausted
      | some (j, s) =>
        let (epoch, idx) := s.vdifEpoch s.time.vtSec.toNat
        let s := s.modRing (s.streamRing c) (·.register (.stream (Fin.ofNat 128 i)))
        .ok ((s.modStream i fun x =>
          { x with running := true, leaseUntil := s.clock + ticksOfMs c.leaseMs, resolved := (s.port c.port).resolves c.v6 c.destIp
                   gap := false, epoch, epochIndex := idx, item := none, itemPos := 0, damage := [], journal := some j }).seek c.port c.v6 c.destIp)

def streamStartCmd : Cmd :=
  { kind := .staged, rights := ownsStreams
    check := fun f s => layout f.payload 16
      [(0, (streamMask f.payload).all fun i => (s.stream i).cfg.isSome || (s.stagedStreams f.tenant.val).contains i)]
    apply := fun f s =>
      if s.power.opState ≠ .service then .error .notOwnerState
      else if s.quenched then .error .degraded
      else (streamMask f.payload).foldl (fun acc i => match acc with
        | .ok s => s.startStream f i
        | .error e => .error e) (.ok s)
    keys := fun p => streamMask p
    without := clearMask 16 }

def streamStopCmd : Cmd :=
  { kind := .schedulable, rights := fun f s => f.tenant == 0 || ownsStreams f s
    check := fun f _ => layout f.payload 16 []
    run := fun f s => .ok ({}, s.each (streamMask f.payload) fun s i => s.stopStream i 3) }

def streamLeaseRenewCmd : Cmd :=
  { kind := .immediate
    check := fun f _ => layout f.payload 16 []
    run := fun f s =>
      .ok ({}, s.each (streamMask f.payload) fun s i =>
        let x := s.stream i
        match x.cfg with
        | some c =>
          if x.running && x.owner == f.tenant then s.modStream i fun x => { x with leaseUntil := s.clock + ticksOfMs c.leaseMs } else s
        | none => s) }

/-- R450. -/
def State.streamStatus (s : State) (i : Nat) : Bytes :=
  let x := s.stream i
  let lag := match x.cfg with
    | some c => x.running && !(s.lagItems i c).isEmpty
    | none => false
  let state := if x.cfg.isNone then 0 else if !x.running then 1 else if lag then 3 else 2
  w8 i ++ w8 state ++ w8 x.lastCause ++ w8 x.owner.val ++ w64 x.framesSent.toNat ++ w64 x.bytesSent.toNat ++ w64 x.itemsSkipped.toNat
    ++ w32 (s.leaseLeft x) ++ w32 x.rateNow.toNat ++ w8 (boolNat (x.running && !x.resolved)) ++ zeros 11

def streamStatusGetCmd : Cmd :=
  { kind := .readback
    rights := fun f s => let i := p8 f.payload 0
      f.tenant == 0 || decide (128 ≤ i) || (s.stream i).cfg.isNone || (s.stream i).owner == f.tenant
    check := fun f _ => layout f.payload 4 [(0, decide (p8 f.payload 0 < 128)), (1, zeroAt f.payload 1 3)]
    run := fun f s => answer (s.streamStatus (p8 f.payload 0)) s }

/-- R443: QUENCH on the management port. -/
def State.quenchCommand (s : State) (assert : Bool) : State :=
  if s.quench.mgmt = assert then s
  else
    let s := { s with quench := { s.quench with mgmt := assert } }
    if assert then s.quenchAssert else s

def quenchCmd : Cmd :=
  { kind := .immediate, steward := true
    check := fun f _ => layout f.payload 4 [(0, decide (p8 f.payload 0 ≤ 1)), (1, zeroAt f.payload 1 3)]
    run := fun f s => .ok ({}, s.quenchCommand (p8 f.payload 0 == 1)) }

end Sys2Proof.Machine
end

