-- ==== Sys2Proof/Machine/Tenants.lean ====
section
/-! DEFINITION. Tenants, ownership and event delivery (chapter 14): admission, the passing of channels and pages, event
pushes, and the commands 0x0D01 to 0x0D08. -/

namespace Sys2Proof.Machine

/-! ## Admission (R452, R502, R503) -/

/-- R503: whether an address lies within an entry's address and prefix. -/
def Admit.covers (a : Admit) (src : Source) : Bool :=
  if a.family = 0 then true
  else if a.family = 4 then !src.v6 && (src.ip.setWidth 32).toNat / 2 ^ (32 - a.pfx) == a.addr.toNat / 2 ^ (128 - a.pfx)
  else src.v6 && src.ip.toNat / 2 ^ (128 - a.pfx) == a.addr.toNat / 2 ^ (128 - a.pfx)

/-- The transport's bit in an admission entry (R530). -/
def transportBit : Transport → Nat
  | .host0 => 0 | .host1 => 1 | .mgmt => 2 | .service => 3

/-- R502, R503: whether a tenant is admitted on a transport and source. -/
def State.admits (s : State) (tenant : Nat) (src : Source) : Bool :=
  (tenant == 0 && src.via == .service)
    || ((s.tenant tenant).active && (s.tenant tenant).admission.any fun a =>
          a.transports.getLsbD (transportBit src.via) && (src.via == .service || a.covers src))

/-! ## Event pushes (R524, R527) -/

/-- The next entries of a queue to push, at most 32. -/
def Tenant.batch (t : Tenant) : List EventEntry := (t.queue.filter fun e => !e.pushed).take 32

/-- Entries of a batch have been pushed. -/
def Tenant.markPushed (t : Tenant) (b : List EventEntry) : Tenant :=
  { t with queue := t.queue.map fun e => if b.any fun x => x.seq == e.seq then { e with pushed := true } else e
           lastPushed := (b.getLast?.map (·.seq)).getD t.lastPushed }

/-- R524, R527: push one frame of a tenant's queue; none where it has nothing to push or must wait. -/
def State.pushFrame (s : State) (n : Nat) : Option State :=
  let t := s.tenant n
  let b := t.batch
  let frame := eventFrame n t.eventsLost b
  let pushed := s.modTenant n fun t => t.markPushed b
  if b.isEmpty then none
  else match t.eventDest with
    | .none => none
    | .udp src => if (s.port (portOf src.via)).isolated then none else some (pushed.deliver { dest := src, bytes := frame })
    | .ring =>
      let p := pad8 frame
      if ringRoom s.rings.evtProd s.rings.evtCons p.length then
        some (pushed.modRings fun r =>
          { r with ram := ringWrite r.ram evtBase (r.evtProd.toNat % 16384) p, evtProd := r.evtProd + BitVec.ofNat 15 p.length })
      else none

/-- Push frame after frame. -/
def State.pushFrames (s : State) (n : Nat) : Nat → State
  | 0 => s
  | fuel + 1 =>
    match s.pushFrame n with
    | some s => s.pushFrames n fuel
    | none => s

/-- R524: push what a tenant's queue holds; a push that finds no room in the event ring waits (R527). -/
def State.pushTenant (s : State) (n : Nat) : State :=
  if !s.power.culmUp || !(s.tenant n).active then s
  else
    let s := s.pushFrames n (s.tenant n).queue.length
    if (s.tenant n).eventDest == .ring && !(s.tenant n).batch.isEmpty && !s.rings.evtWaiting.contains (ten n) then
      s.modRings fun r => { r with evtWaiting := r.evtWaiting ++ [ten n] }
    else s

/-- R524. -/
def execEventPush (t : Nat) (tenant : Fin 256) (s : State) : Host.Outcome State Fault Refusal :=
  .next (State.settle s ((s.advance t).pushTenant tenant.val))

/-- R527: the host has freed space in the event ring: the pushes that wait go on. -/
def effectEventRingRoom (s : State) : State :=
  (s.modRings fun r => { r with evtWaiting := [] }).each (s.rings.evtWaiting.map (·.val)) State.pushTenant

def execEventRingRoom (t : Nat) (s : State) : Host.Outcome State Fault Refusal :=
  .next (State.settle s (effectEventRingRoom (s.advance t)))

/-- R13, R14, R528: a write to a summary register; bits set in the same access stay. -/
def effectEventSummaryClear (w : Fin 48) (value setNow : U32) (s : State) : State :=
  if s.power.released then { s with summary := vmod s.summary w.val fun x => (x &&& ~~~ value) ||| setNow } else s

def execEventSummaryClear (t : Nat) (w : Fin 48) (value setNow : U32) (s : State) : Host.Outcome State Fault Refusal :=
  .next (State.settle s (effectEventSummaryClear w value setNow (s.advance t)))

/-! ## TENANT_CONFIG (R500 to R506, R530) -/

/-- R530: an admission entry in a payload. -/
def admitAt (p : Bytes) (o : Nat) : Admit :=
  { transports := BitVec.ofNat 4 (p8 p o), family := p8 p (o + 1), pfx := p8 p (o + 2), addr := BitVec.ofNat 128 (beNat (part p (o + 4) 16)) }

/-- R530: the fields of an admission entry. -/
def admitFields (p : Bytes) (o : Nat) : List (Nat × Bool) :=
  let fam := p8 p (o + 1)
  [(o, decide (p8 p o ≤ 15)), (o + 1, oneOf fam [0, 4, 6])
  , (o + 2, !(fam == 4 && decide (32 < p8 p (o + 2))) && !(fam == 6 && decide (128 < p8 p (o + 2)))), (o + 3, zeroAt p (o + 3) 1)]

/-- Whether a tenant holds anything that keeps it from being deleted (R504). -/
def State.holdsResources (s : State) (t : Nat) : Bool :=
  ((List.range 128).any fun c => s.chanOwner c == t) || ((List.range 512).any fun e => s.engineOwner e == t)
    || ((List.range 32).any fun r => s.routeOwner r == t) || ((List.range 4).any fun i => s.tiOwner i == t)
    || (s.own.pages.any fun p => p.2.owner == some (ten t))
    || ((List.range 128).any fun i => (s.stream i).cfg.isSome && (s.stream i).owner == ten t)
    || (s.insts.any fun x => x.2.owner == ten t) || (s.granary.jobs.any fun j => j.2.owner == ten t)

/-- The journal entry of a pending item. -/
def Pending.entry : Pending → Nat
  | .commit _ _ j _ _ _ => j
  | .scheduled _ _ j _ => j

/-- The second of a pending item. -/
def Pending.second : Pending → U48
  | .commit s _ _ _ _ _ => s
  | .scheduled s _ _ _ => s

/-- The command sequence of a pending item. -/
def Pending.seq : Pending → U32
  | .commit _ q _ _ _ _ => q
  | .scheduled _ q _ _ => q

/-- R155, R484: the entries of calibration runs that stand in a stage of a tenant end with it. -/
def State.endRuns (s : State) (t : Nat) (l : List Instr) (st : Status) (rem : Nat) : State :=
  s.each l fun s i => match i with
    | .calRun f => s.withEntry (s.entryOf t f.seq 0x0403) fun s j => s.notStarted j st rem
    | _ => s

/-- The staged commands of a pending item. -/
def Pending.cmds : Pending → List Instr
  | .commit _ _ _ _ _ l => l
  | .scheduled _ _ _ _ => []

/-- R483, R484: a pending item of a tenant ends not started. -/
def State.endItem (s : State) (t : Nat) (st : Status) (rem : Nat) (i : Pending) : State :=
  (s.notStarted i.entry st rem).endRuns t i.cmds st rem

/-- R504: deletion of a tenant at S. -/
def State.deleteTenant (s : State) (t : Nat) : State :=
  if !(s.tenant t).active then s
  else
    let s := (s.each (s.tenant t).items fun s i => s.endItem t .done 4 i).endRuns t (s.tenant t).stage .done 4
    let s := s.modTenant t fun _ => {}
    let s := s.modRachis fun x => { x with domains := x.domains.filter fun d => d.tenant != ten t }
    let pass (r : ArchRecord) : ArchRecord := if r.entry.tenant == ten t then { r with entry := { r.entry with tenant := 0 } } else r
    s.modGranary fun g => { g with catalogue := g.catalogue.map pass }

/-- R504, R530: create a tenant, or replace its entry. -/
def State.setTenant (s : State) (p : Bytes) : State :=
  s.modTenant (p8 p 0) fun t =>
    let t : Tenant := if (t.active) then t else {}
    { t with active := true, channelMax := p16 p 4, engineMax := p16 p 6, pageMax := p32 p 8, archiveGib := p32 p 12
             streamMbps := p32 p 16, eventDepth := p16 p 20, admission := (List.range 4).map fun i => admitAt p (24 + 20 * i) }

/-- R530. -/
def tenantConfigCmd : Cmd :=
  { kind := .staged, steward := true
    check := fun f _ =>
      let p := f.payload
      let noEntry := (List.range 4).all fun i => p8 p (24 + 20 * i) == 0
      layout p 104 ([(1, decide (p8 p 1 ≤ 1) && !(p8 p 0 == 0 && p8 p 1 == 0)), (2, zeroAt p 2 2), (4, decide (p16 p 4 ≤ 128))
        , (6, decide (p16 p 6 ≤ 512)), (8, decide (p32 p 8 ≤ 65024)), (16, decide (p32 p 16 ≤ 24000))
        , (20, inRange 64 (p16 p 20) 4096), (22, zeroAt p 22 2)] ++ admitFields p 24 ++ admitFields p 44 ++ admitFields p 64
        ++ [(84, decide (p8 p 84 ≤ 15) && !(p8 p 1 == 1 && p8 p 0 != 0 && noEntry))] ++ admitFields p 84)
    apply := fun f s => .ok (if p8 f.payload 1 = 0 then s.deleteTenant (p8 f.payload 0) else s.setTenant f.payload)
    final := fun f s =>
      if p8 f.payload 1 = 0 && !(s.tenant (p8 f.payload 0)).active && s.holdsResources (p8 f.payload 0) then .error .busy else .ok ()
    keys := fun p => [p8 p 0] }

/-! ## TENANT_STATUS_GET (R534) -/

def Admit.bytes (a : Admit) : Bytes := w8 a.transports.toNat ++ w8 a.family ++ w8 a.pfx ++ w8 0 ++ beBytes 16 a.addr.toNat

/-- R530: the TENANT_CONFIG image of a tenant. -/
def State.tenantImage (s : State) (n : Nat) : Bytes :=
  let t := s.tenant n
  w8 n ++ w8 (boolNat t.active) ++ w16 0 ++ w16 t.channelMax ++ w16 t.engineMax ++ w32 t.pageMax ++ w32 t.archiveGib
    ++ w32 t.streamMbps ++ w16 t.eventDepth ++ w16 0 ++ (List.range 4).flatMap fun i => ((t.admission[i]?).getD {}).bytes

/-- R534: the status of a tenant. -/
def State.tenantStatus (s : State) (n : Nat) : Bytes :=
  let t := s.tenant n
  let owned (k : Nat) (owner : Nat → Nat) : List Nat := (List.range k).filter fun i => owner i == n
  let sweeping := (s.own.pages.filter fun p => p.2.owner == some (ten n) && p.2.sweeping).length
  w8 n ++ w8 (boolNat t.active) ++ w16 0 ++ w16 (owned 128 s.chanOwner).length ++ w16 (owned 512 s.engineOwner).length
    ++ ((List.range 8).flatMap fun k => w16 (s.pagesHeld n k)) ++ w64 (s.archiveCharge n) ++ w32 (s.tenantRate n / 1000000)
    ++ w16 t.queue.length ++ w16 0 ++ w32 t.eventsLost.toNat ++ w32 t.lastPushed.toNat ++ w32 sweeping
    ++ w32 (maskOf 32 (owned 32 s.routeOwner)).toNat ++ w8 (maskOf 8 (owned 4 s.tiOwner)).toNat ++ zeros 7 ++ s.tenantImage n

def tenantStatusGetCmd : Cmd :=
  { kind := .readback, rights := fun f _ => f.tenant == 0 || p8 f.payload 0 == f.tenant.val
    check := fun f _ => layout f.payload 4 [(1, zeroAt f.payload 1 3)]
    run := fun f s => answer (s.tenantStatus (p8 f.payload 0)) s }

/-! ## Channels (R507) -/

/-- R310, R408, R440: everything that takes its items from a ring stops. -/
def State.stopUsers (s : State) (r : RingId) : State :=
  let s := s.each ((s.insts.filter fun e => e.2.state == 1 && e.2.inputs.any fun i => i.ring == some r).map (·.1)) fun s k => s.stopInstance k 2
  (s.stopStreamsOn r 5).endJobsOn r

/-- R507: a channel passes to a new owner: its old owner's records and streams end, its rings are released, every setting
is at its default, and its memories are swept (R509). -/
def State.passChannel (s : State) (t c : Nat) : State :=
  if s.chanOwner c = t then s
  else
    let s := s.disarmSource c
    let s := s.definingChange c
    let s := s.withEntry (s.chan c).capJournal State.completeEntry
    let rings : List RingId := [.record (Fin.ofNat 128 c), .circular (Fin.ofNat 128 c), .stamps (Fin.ofNat 132 c)]
    let s := s.each rings fun s r => (s.stopUsers r).dropRing r
    let s := s.setCalChannel c true false
    let s := (s.setFrontEnd c {}).modChan c fun x =>
      { x with before := x.before.map fun b => { b with capState := 0 }, comp := {}, compFault := false, capture := {}, reduction := {}, accum := {}, capState := 0, armHeld := false
               capJournal := none, ear := [], openRec := none, ended := [], sums := [], copy := [], copyRec := none, postPhase := false
               passedFrom := some (ten (s.chanOwner c), vtSecond s.time.vtSec), markRecord := none, earSweep := true, accSweep := true, sweepStep := s.time.vtSec }
    let s := s.modSource c fun x => { x with stampEnable := false, pages := 16, queue := [], held := [] }
    let s := { s with own := { s.own with channel := vset s.own.channel c (ten t) } }
    s.sweepStarted t

/-- R531. -/
def channelAssignCmd : Cmd :=
  { kind := .staged, steward := true
    check := fun f _ => layout f.payload 20 [(17, zeroAt f.payload 17 3)]
    apply := fun f s => .ok (s.each (maskChannels f.payload) fun s c => s.passChannel (p8 f.payload 16) c)
    final := fun f s => receiverActive (p8 f.payload 16) s
    keys := maskChannels
    without := clearMask 16 }

/-! ## Pages (R508) -/

/-- R508, R531: the pages a tenant is to hold in a stook: the grants of a stage are applied together (`State.grantPages`). -/
def pageGrantCmd : Cmd :=
  { kind := .staged, steward := true
    check := fun f _ =>
      let p := f.payload
      layout p 8 [(1, decide (p8 p 1 ≤ 7)), (2, zeroAt p 2 2), (4, decide (p32 p 4 ≤ 8128))]
    apply := fun f s => if s.stookUp (p8 f.payload 1) then .ok s else .error .degraded
    final := fun f s => if p32 f.payload 4 = 0 then .ok () else receiverActive (p8 f.payload 0) s
    keys := fun p => [p8 p 0 * 8 + p8 p 1] }

/-- R508: a tenant gives up pages no ring holds, the highest-numbered first. -/
def State.takeBack (s : State) (t stook n : Nat) : Except Status State :=
  let free := s.unringed t stook
  if free.length < n then .error .busy else .ok (s.returnPages (lastN n free).reverse)

/-- R508, R509: a tenant is given pages of the pool: swept ones first, then pages still in sweep. Until a controller's first
sweep is over every page of it is in sweep (R343). -/
def State.givePages (s : State) (t stook n : Nat) : Except Status State :=
  let swept := if (s.ctrl stook).swept then s.poolSwept stook else []
  let later := s.poolSweeping stook ++ if (s.ctrl stook).swept then [] else s.poolSwept stook
  let a := swept.take n
  let b := later.take (n - a.length)
  if a.length + b.length < n then .error .exhausted
  else
    let s := s.each a fun s p => s.setPage p { owner := some (ten t) }
    .ok (s.each b fun s p =>
      (s.setPage p { s.page p with owner := some (ten t), sweeping := true, step := s.time.vtSec }).sweepStarted t)

/-- R508: the grants of the Steward's stage as (tenant, stook, count), the last for each pair: decreases before increases, in
ascending tenant order. -/
def State.grantPages (s : State) (grants : List (Nat × Nat × Nat)) : Except Status State := do
  let order := (List.range 256).flatMap fun t => grants.filter fun g => g.1 == t
  let s ← order.foldl (fun acc g => acc.bind fun s =>
    let held := s.pagesHeld g.1 g.2.1
    if g.2.2 < held then s.takeBack g.1 g.2.1 (held - g.2.2) else .ok s) (.ok s)
  order.foldl (fun acc g => acc.bind fun s =>
    let held := s.pagesHeld g.1 g.2.1
    if held < g.2.2 then s.givePages g.1 g.2.1 (g.2.2 - held) else .ok s) (.ok s)

/-! ## Events (R532, R533) -/

/-- R532. -/
def eventSubscribeCmd : Cmd :=
  { kind := .immediate, startUp := true
    check := fun f _ => layout f.payload 196 [(0, decide (p8 f.payload 0 ≤ 2)), (1, zeroAt f.payload 1 3)]
    run := fun f s =>
      let dest : EventDest :=
        if p8 f.payload 0 = 2 then .none else if p8 f.payload 0 = 1 || f.src.via == .service then .ring else .udp f.src
      .ok ({}, s.modTenant f.tenant.val fun t => { t with eventMask := maskAt 1536 f.payload 4 192, eventDest := dest }) }

/-- R519, R523: entries up to a sequence leave; the loss entry closes when that frees a slot beside the kept one (log entry 267). -/
def Tenant.ack (t : Tenant) (seq : U32) : Tenant :=
  let left := t.queue.filter fun e => decide (0 < modDiff e.seq seq)
  let frees := decide (left.length < t.queue.length) && decide (left.length + 1 < t.eventDepth)
  { t with queue := left, lostOpen := t.lostOpen && !frees }

/-- R532. -/
def eventAckCmd : Cmd :=
  { kind := .immediate, startUp := true
    check := fun f s =>
      layout f.payload 4 [(0, decide (modDiff (BitVec.ofNat 32 (p32 f.payload 0)) ((s.tenant f.tenant.val).eventSeq - 1) ≤ 0))]
    run := fun f s => .ok ({}, s.modTenant f.tenant.val fun t => t.ack (BitVec.ofNat 32 (p32 f.payload 0))) }

/-- R533. -/
def eventQueryCmd : Cmd :=
  { kind := .readback, startUp := true
    check := fun f s =>
      let p := f.payload
      layout p 8 [(0, decide (modDiff (BitVec.ofNat 32 (p32 p 0)) ((s.tenant f.tenant.val).eventSeq - 1) ≤ 0)), (4, inRange 1 (p16 p 4) 64)
        , (6, zeroAt p 6 2)]
    run := fun f s =>
      let t := s.tenant f.tenant.val
      let oldest := (t.queue.head?.map (·.seq)).getD t.eventSeq
      let l := (t.queue.filter fun e => decide (0 ≤ modDiff e.seq (BitVec.ofNat 32 (p32 f.payload 0)))).take (p16 f.payload 4)
      answer (w32 oldest.toNat ++ w16 l.length ++ w16 0 ++ (l.map (·.bytes)).flatten) s }

/-- R535: pages of a stook in sweep. -/
def State.sweepingPages (s : State) (k : Nat) : Nat :=
  if (s.ctrl k).serves && !(s.ctrl k).swept then 8192 else (s.pagesWith k fun p => p.sweeping).length

/-- R535. -/
def sweepStatusGetCmd : Cmd :=
  { kind := .readback, check := noPayload
    run := fun _ s =>
      let chans := (List.range 128).filter fun c => (s.chan c).earSweep || (s.chan c).accSweep
      answer (((List.range 8).flatMap fun k => w32 (s.sweepingPages k)) ++ w64 s.own.swept.toNat
        ++ leBytes 16 (maskOf 128 chans).toNat ++ zeros 8) s }

end Sys2Proof.Machine
end

