-- ==== Sys2Proof/Machine/Test.lean ====
section
/-! DEFINITION. Loop-backs, self-tests and isolation (chapter 16) and the commands 0x0F01 to 0x0F05. -/

namespace Sys2Proof.Machine

/-! ## Isolation (R582 to R584) -/

/-- R582: what stops with a channel: its records and its stamp stream; it is left disarmed. -/
def State.stopChannel (s : State) (c : Nat) : State :=
  let s := (s.endRecords c 2).disarmSource c
  s.modChan c fun x => { x with capState := if x.capState = 1 ∨ x.capState = 4 then 0 else x.capState, armHeld := false }

/-- R582: what stops with a sheaf: its channels, its timing inputs, its engines, which leave their groups. -/
def State.stopSheaf (s : State) (b : Nat) : State :=
  let s := s.each ((List.range 8).map (8 * b + ·)) State.stopChannel
  let s := s.each (if b = 0 then [128, 129] else if b = 15 then [130, 131] else []) State.disarmSource
  let es := (List.range 32).map (32 * b + ·)
  let s := s.each es fun s e => s.giveBackUnit e false
  let leave (x : Nat × Instance) : Nat × Instance := (x.1, { x.2 with engines := x.2.engines.filter fun e => !es.contains e })
  let s := { s with insts := s.insts.map leave }
  s.each (s.insts.map (·.1)) State.stopWithoutEngines

/-- R582: a host port's link is held down; its streams and transfers end. -/
def State.stopHostPort (s : State) (p : Nat) : State :=
  let s := (s.setLink p false).stopPortStreams p 4
  s.each ((s.transfers.filter fun t => t.port == p).map (·.journal)) fun s j => s.endTransfer j 1

/-- R582: whether a unit of a kind that can be isolated is. -/
def State.unitIsolated (s : State) (kind i : Nat) : Bool :=
  match kind with
  | 0 => (s.chan i).isolated
  | 3 => s.test.sheafIsolated.getLsbD i
  | 4 => s.nodeOut i
  | 9 => (s.port i).isolated
  | _ => (s.rport i).isolated

/-- R582: a unit is isolated, by command (cause 0) or automatically (1). -/
def State.isolateUnit (s : State) (kind i cause : Nat) : State :=
  if s.unitIsolated kind i then s
  else
    let s := match kind with
      | 0 => (s.stopChannel i).modChan i fun x => { x with isolated := true }
      | 3 => (s.stopSheaf i).modTest fun x => { x with sheafIsolated := setBit x.sheafIsolated i true }
      | 4 => { s.stopNode i with nodes := vmod s.nodes i fun x => { x with isolated := true } }
      | 9 => (s.stopHostPort i).modPort i fun x => { x with isolated := true }
      | _ => ((s.linkDown i).modRport i fun x => { x with isolated := true, fastIn := false }).refreshFast
    s.raise 0x5E2 (w8 kind ++ w8 cause ++ w16 i)

/-- R583: the loop-backs of a unit and of what it holds are cleared. -/
def State.clearLoops (s : State) (kind i : Nat) : State :=
  let part (l : Nat × Nat × Nat) : Bool :=
    (l.1 == kind && l.2.1 == i) || (kind == 0 && l.1 == 2 && l.2.1 == i)
      || (kind == 3 && (l.1 == 0 || l.1 == 2) && sourceSheaf l.2.1 == i)
  s.modTest fun x => { x with loops := x.loops.filter fun l => !part l }

/-- R582, R583: a unit returns to use. -/
def State.restoreUnit (s : State) (kind i : Nat) : State :=
  if !s.unitIsolated kind i then s
  else
    let s := match kind with
      | 0 => s.modChan i fun x => { x with isolated := false, compKnown := false }
      | 3 => s.modTest fun x => { x with sheafIsolated := setBit x.sheafIsolated i false }
      | 4 => { s with nodes := vmod s.nodes i fun _ => {} }
      | 9 => s.modPort i fun x => { x with isolated := false }
      | _ => (s.modRport i fun x => { x with isolated := false }).refreshFast
    (s.clearLoops kind i).raise 0x5E3 (w8 kind ++ w8 0 ++ w16 i)

/-- R582, R590. -/
def unitIsolateCmd : Cmd :=
  { kind := .staged, steward := true
    check := fun f s =>
      let p := f.payload
      layout p 4 [(0, oneOf (p8 p 0) [0, 3, 4, 9, 10]), (1, decide (p8 p 1 ≤ 1))
        , (2, decide (p16 p 2 < unitCount (p8 p 0)) && s.unitIsolated (p8 p 0) (p16 p 2) == (p8 p 1 == 1))]
    apply := fun f s =>
      .ok (if p8 f.payload 1 = 0 then s.isolateUnit (p8 f.payload 0) (p16 f.payload 2) 0 else s.restoreUnit (p8 f.payload 0) (p16 f.payload 2))
    final := fun f s =>
      if p8 f.payload 0 = 0 ∧ p8 f.payload 1 = 1 ∧ s.test.sheafIsolated.getLsbD (sheafOf (p16 f.payload 2)) then .error .degraded else .ok ()
    keys := fun p => [p8 p 0 * 65536 + p16 p 2] }

/-- R515, R582: a die fault isolates its sheaf at once. -/
def State.sheafFault (s : State) (b cause : Nat) : State := (s.raise (sheafEvent b 0) (w8 cause)).isolateUnit 3 b 1

def execSheafFault (t : Nat) (sheaf : Fin 16) (cause : Fin 5) (s : State) : Host.Outcome State Fault Refusal :=
  .next (State.settle s ((s.advance t).sheafFault sheaf.val cause.val))

/-- R610: a sheaf die at 115 °C. -/
def execSheafThermal (t : Nat) (sheaf : Fin 16) (s : State) : Host.Outcome State Fault Refusal :=
  .next (State.settle s ((s.advance t).sheafFault sheaf.val 1))

/-! ## Loop-backs and test sources (R566, R569, R575, R587, R588) -/

/-- R569: the depths of a unit kind; 0: none. -/
def depthsOf (kind : Nat) : Nat := ([4, 0, 1, 0, 0, 0, 3, 0, 3, 3, 3, 1, 1][kind]?).getD 0

/-- R587. -/
def loopbackSetCmd : Cmd :=
  { kind := .staged, steward := true
    check := fun f _ =>
      let p := f.payload
      layout p 8 [(0, depthsOf (p8 p 0) != 0), (1, decide (p8 p 1 ≤ depthsOf (p8 p 0))), (2, decide (p16 p 2 < unitCount (p8 p 0)))
        , (4, zeroAt p 4 4)]
    apply := fun f s =>
      let p := f.payload
      let kind := p8 p 0
      let i := p16 p 2
      if p8 p 1 ≠ 0 ∧ !s.testable kind i then .error .notOwnerState
      else
        .ok (s.modTest fun x =>
          { x with loops := (x.loops.filter fun l => !(l.1 == kind && l.2.1 == i)) ++ if p8 p 1 = 0 then [] else [(kind, i, p8 p 1)] })
    keys := fun p => [p8 p 0 * 65536 + p16 p 2] }

/-- R566, R575: whether a sheaf's source may be set: the sheaf or a channel of it may be tested. -/
def State.sourceTestable (s : State) (b : Nat) : Bool :=
  s.testable 3 b || (List.range 8).any fun i => s.testable 0 (8 * b + i)

/-- R588. -/
def testSourceConfigCmd : Cmd :=
  { kind := .staged, steward := true
    check := fun f _ =>
      let p := f.payload
      layout p 24 [(0, decide (p8 p 0 ≤ 15)), (1, decide (p8 p 1 ≤ 3)), (2, zeroAt p 2 2), (4, inRangeI (-2200) (s16 p 4) 2200)
        , (6, decide (p16 p 6 ≤ 2000)), (8, inRange 1000000000 (p64 p 8) 2400000000000), (16, decide (8 ≤ p32 p 16))
        , (20, decide (p16 p 20 ≤ 1575) && p16 p 20 % 25 == 0), (22, zeroAt p 22 2)]
    apply := fun f s =>
      let p := f.payload
      if !s.sourceTestable (p8 p 0) then .error .notOwnerState
      else
        let src : TestSource :=
          { waveform := p8 p 1, levelMv := s16 p 4, amplitudeMv := p16 p 6, freq := p64 p 8, periodTicks := p32 p 16
            edgeOffsetPs := p16 p 20 }
        .ok (s.modTest fun x => { x with sources := vset x.sources (p8 p 0) src })
    keys := fun p => [p8 p 0] }

/-! ## Edge injection (R573, R576) -/

/-- R573: the residual of an injected edge, fs: its tag less the tag expected of it. -/
def State.residual (s : State) (source : Nat) (e : InjectedEdge) : Rat :=
  let l := vget (s.source source).lanes e.lane.val
  let n := if e.count.val = 0 then 100 else e.count.val
  let read : Int := (laneTapEnd l source e.lane.val e.tap.val : Int) - laneVern l source e.lane.val n
  mkRat (read * 1000000000000000) (2 ^ 48) + (1600000 * e.ticks.val : Nat) - (25000 * e.offset.val + (Config.injectorDelay source).toNat : Nat)

/-- The mean of numbers, and the mean square of their deviation from it. -/
def spread (l : List Rat) : Rat × Rat :=
  let n : Rat := (max l.length 1 : Nat)
  let m := l.sum / n
  (m, (l.map fun x => (x - m) * (x - m)).sum / n)

/-- R576: the limit a step holds its measured figure to, in the figure's unit. -/
def stepLimit : Nat → Int
  | 2 => 5200
  | 3 => -5500
  | 4 => 5000
  | 5 => 400
  | 9 => 24
  | 10 => 16
  | 12 => 500
  | 13 => 1000
  | 17 => 10000
  | _ => 0

/-- R576: whether a figure meets the limit of its step: at least it for SINAD and eyes, at most it for images, errors and residuals. -/
def figureMeets (step : Nat) (v : Int) : Bool :=
  if oneOf step [2, 9, 12] then decide (stepLimit step ≤ v) else if step = 4 then decide ((v.natAbs : Int) ≤ stepLimit step)
  else decide (v ≤ stepLimit step)

/-- R576, step 5: per lane the mean residual is within ±1.0 ps and the RMS, taken about the mean (DEDUCED, log entry 65), at most 0.40 ps;
measured is the worst RMS, fs. -/
def State.judgeEdges (s : State) (x : TestStep) : TestStep :=
  if x.edges = [] then x
  else
    let lanes := ((List.range 4).map fun l => (x.edges.filter fun e => e.lane.val == l).map (s.residual x.index.toNat)).filter (· != [])
    let l := lanes.map spread
    let pass := l.all fun r => decide (-1000 ≤ r.1 ∧ r.1 ≤ 1000 ∧ r.2 ≤ 160000)
    { x with outcome := if pass then .pass else .fail
             measured := (l.map fun r => Nat.sqrt r.2.ceil.toNat).foldl max 0 }

/-- R576: a step as the module judges it: host-port depth 3 is not judged, a figure beyond its limit fails the step (at Rachis depth 3 the figure
is the loop delay), and the step's other conditions are those of the row. -/
def State.judgeStep (s : State) (x : TestStep) : TestStep :=
  let k := x.step.val
  let x := if k = 5 then s.judgeEdges x else x
  let x := { x with limit := stepLimit k }
  if k = 14 ∧ x.depth.val = 3 then { x with outcome := .notJudged }
  else if (k = 15 ∧ x.depth.val = 3) ∨ figureMeets k x.measured then x
  else { x with outcome := .fail }

/-! ## Runs (R576 to R581, R589, R591) -/

/-- R580: whether a loop-back of the live generation acts on a unit that a run would test. -/
def State.runMeetsLoop (s : State) (sequence kind i : Nat) : Bool :=
  s.test.loops.any fun l =>
    sequence != 0 || (l.1 == kind && l.2.1 == i) || (kind == 0 && l.1 == 2 && l.2.1 == i) || (kind == 1 && l.1 == 0 && l.2.1 == i / 9)
      || (kind == 3 && (l.1 == 0 || l.1 == 2) && sourceSheaf l.2.1 == i)

/-- R579, R589. -/
def selfTestRunCmd : Cmd :=
  { kind := .immediate, steward := true
    check := fun f s => do
      let p := f.payload
      let q := p8 p 0
      let kind := p8 p 1
      let i := p16 p 2
      layout p 8 [(0, decide (q ≤ 2)), (1, if q = 0 then decide (kind ≤ 12) else kind == 0)
        , (2, if q = 0 then decide (i < unitCount kind) else i == 0), (4, decide (p8 p 4 ≤ 1)), (5, zeroAt p 5 3)]
      require (if q = 0 then s.testable kind i else s.power.opState == .maintenance) (refuse .notOwnerState)
      require (!s.test.active && !s.runMeetsLoop q kind i) (refuse .busy)
    run := fun f s => do
      let p := f.payload
      let (j, s) ← s.startWork f 0x0F02 0
      let r : TestRun :=
        { runId := s.test.nextRunId, sequence := p8 p 0, unitKind := p8 p 1, index := p16 p 2, journal := j, startSec := s.time.vtSec
          startTick := s.clock, stopOnFail := p8 p 4 == 1, opState := s.power.opState.code }
      let s := if p8 p 0 = 0 then s else { s with tiller := {} }
      .ok ({ payload := w32 r.runId.toNat, journal := some j }
        , s.modTest fun x => { x with active := true, nextRunId := x.nextRunId + 1, runs := lastN 8 (x.runs ++ [r]) }) }

/-- R577: whether a step is skipped after the failures of its run. -/
def TestRun.skips (r : TestRun) (x : TestStep) : Bool :=
  (r.fails.any fun f => f.unitKind == x.unitKind && f.index == x.index && x.depth.val != 0 && decide (x.depth.val < f.depth.val))
    || (x.unitKind.val == 0 && oneOf x.step.val [3, 4, 18] && r.badSlices.contains x.index.toNat)

/-- Change the run in progress. -/
def State.modRun (s : State) (f : TestRun → TestRun) : State :=
  s.modTest fun x => { x with runs := lmod x.runs (x.runs.length - 1) f }

/-- R572, R578, R579: what the outcome of a step does to the module. -/
def State.stepEffect (s : State) (r : TestRun) (x : TestStep) (failed : Bool) : State :=
  let i := x.index.toNat
  match x.step.val with
  | 2 =>
    let c := i / 9
    if failed then s.declareFaulty c (Fin.ofNat 9 (i % 9)) .selfTest
    else s.modChan c fun y => if y.retired = some (Fin.ofNat 9 (i % 9)) then { y with sliceTested := true } else y
  | 6 => if failed then s else s.modEngine i fun y => { y with selfTested := true }
  | 7 => if failed then s else s.modWinnow fun y => { y with lanes := vmod y.lanes i fun l => { l with selfTested := true } }
  | 15 => if failed || x.depth.val != 3 then s else s.modRport i fun y => { y with loopFs := some (x.measured * 1000) }
  | 10 => if r.sequence ≠ 0 ∧ (s.ctrl i).serves ∧ (s.ctrl i).swept then s.returnPages (s.poolSwept i) else s
  | _ => s

/-- R585: the end of a run after its last step. -/
def State.endRun (s : State) (r : TestRun) : State :=
  let s := s.modRun fun y => { y with state := 1, durationMs := BitVec.ofNat 32 ((s.clock - y.startTick) / 625000) }
  let s := s.modTest fun x => { x with active := false }
  let s := (s.modEntry r.journal fun e => { e with total := e.done }).completeEntry r.journal
  let s := if r.sequence = 0 then s else { s with tiller := {} }
  s.raise 0x5E0 (w32 r.runId.toNat ++ w32 r.stepsFailed.toNat)

/-- R576 to R578, R591: a step of the run in progress completes, or is skipped. -/
def effectSelfTestStepDone (step : TestStep) (s : State) : State :=
  let x := s.judgeStep step
  match s.test.runs.getLast?, s.test.active with
  | some r, true =>
    let kind := x.unitKind.val
    let i := x.index.toNat
    let skip := r.skips x
    let failed := !skip && x.outcome == .fail
    let unit := (kind, i)
    let slice := kind == 1 && failed && !((s.chan (i / 9)).retired.map (·.val) == some (i % 9))
    let s := s.modRun fun y =>
      { y with stepsFailed := if failed then y.stepsFailed + 1 else y.stepsFailed
               fails := if failed then y.fails ++ [x] else y.fails
               seen := if y.seen.contains unit then y.seen else y.seen ++ [unit]
               badSlices := if slice then y.badSlices ++ [i / 9] else y.badSlices
               summaries := lmod y.summaries kind fun z =>
                 { tested := if y.seen.contains unit then z.tested else z.tested + 1
                   run := if skip then z.run else z.run + 1
                   failed := if failed then z.failed + 1 else z.failed
                   skipped := if skip then z.skipped + 1 else z.skipped } }
    let s := s.addUnits r.journal 1
    let s := if failed && r.stepsFailed == 0 then
        s.raise 0x5E1 (w32 r.runId.toNat ++ w8 kind ++ w8 x.step.val ++ w16 i)
      else s
    let s := if skip || x.outcome == .notJudged then s else s.stepEffect r x failed
    if x.last || (failed && r.stopOnFail) then s.endRun { r with stepsFailed := if failed then r.stepsFailed + 1 else r.stepsFailed }
    else s
  | _, _ => s

def execSelfTestStepDone (t : Nat) (step : TestStep) (s : State) : Host.Outcome State Fault Refusal :=
  .next (State.settle s (effectSelfTestStepDone step (s.advance t)))

/-- R581: a run ends when the module leaves the operating state it started in, or its unit is back in use. -/
def State.testCheck (s : State) : State :=
  match s.test.runs.getLast?, s.test.active with
  | some r, true =>
    if r.opState ≠ s.power.opState.code ∨ (r.sequence = 0 ∧ !s.testable r.unitKind r.index) then s.abortTest else s
  | _, _ => s

/-- R591: the code of an outcome. -/
def outcomeCode : StepOutcome → Nat
  | .pass => 0 | .fail => 1 | .notJudged => 4

/-- R591: the entry of a failed step. -/
def testStepBytes (x : TestStep) : Bytes :=
  w8 x.unitKind.val ++ w8 x.depth.val ++ w8 (outcomeCode x.outcome) ++ w8 x.step.val ++ w16 x.index.toNat ++ w16 0 ++ leInt 4 x.measured
    ++ leInt 4 x.limit

def TestSummary.bytes (k : Nat) (x : TestSummary) : Bytes :=
  w8 k ++ w8 0 ++ w16 x.tested.toNat ++ w32 x.run.toNat ++ w32 x.failed.toNat ++ w32 x.skipped.toNat

/-- R591. -/
def TestRun.bytes (r : TestRun) : Bytes :=
  w32 r.runId.toNat ++ w8 r.sequence ++ w8 r.state ++ w8 r.unitKind ++ w8 0 ++ w16 r.index ++ w16 (min r.fails.length 256) ++ w16 r.journal
    ++ w16 0 ++ w64 r.startSec.toNat ++ w32 r.durationMs.toNat ++ w32 r.stepsFailed.toNat
    ++ ((List.range 13).flatMap fun k => TestSummary.bytes k ((r.summaries[k]?).getD {}))
    ++ ((r.fails.take 256).map testStepBytes).flatten

/-- R591: the run a run_id names. -/
def State.findRun (s : State) (id : Nat) : Option TestRun :=
  if id = 2 ^ 32 - 1 then s.test.runs.getLast? else s.test.runs.find? fun r => r.runId == BitVec.ofNat 32 id

def testResultGetCmd : Cmd :=
  { kind := .readback, check := fun f s => layout f.payload 4 [(0, (s.findRun (p32 f.payload 0)).isSome)]
    run := fun f s => answer (((s.findRun (p32 f.payload 0)).map TestRun.bytes).getD []) s }

end Sys2Proof.Machine
end

