-- ==== Sys2Proof/Machine/Power.lean ====
section
/-! DEFINITION. Operating states, reset causes, power-fail handling, housekeeping and firmware (chapter 17), and the commands 0x1001 to
0x1008. -/

namespace Sys2Proof.Machine

def State.modFw (s : State) (f : Firmware → Firmware) : State := s.modPower fun p => { p with fw := f p.fw }

/-! ## Operating states (R594 to R596, R618, R619) -/

/-- R176, R594, R596, R624: the module enters another operating state; the Tiller stands halted in its start state (R175), and entering recovery
or maintenance disarms every route. -/
def State.enterState (s : State) (o : OpState) : State :=
  let s := ((s.modPower fun p => { p with opState := o }).raise 0x5C2 (w8 s.power.opState.code ++ w8 o.code)).haltTiller
  if o = .recovery ∨ o = .maintenance then s.each (List.range 32) fun s r => s.armRoute r false else s

/-- R596, R619: instances and measurements go on with the first unit or gate that begins at this second. -/
def State.resumeInstances (s : State) (gap : Bool) : State :=
  let at_ := vtNat (vtSecond s.time.vtSec)
  let go (e : Nat × Instance) : Nat × Instance :=
    let x := e.2
    if e.1 < 1024 ∧ x.state = 1 ∧ !x.ended then
      (e.1, ({ x with old := if x.cursor.stop.isSome then x.cursors else x.old, cursor := GateCursor.begin x s.time.labelChanges at_
                      startTick := if x.cursor.stop.isSome then x.startTick else s.time.secStart, gap := x.gap || gap } : Instance).trim)
    else e
  { s with insts := s.insts.map go }

/-- R619: captures and stamp streams that the arming map shows armed are armed again. -/
def State.rearmMap (s : State) : State :=
  let s := s.each (bitsOf s.power.armingCaptures) fun s c =>
    match s.armRefusal (maskOf 128 [c]) with
    | .ok _ => s.armCapture c
    | .error _ => s
  s.each (bitsOf s.power.armingStamps) fun s i =>
    match s.armStampsRefusal (maskOf 132 [i]) true with
    | .ok _ => s.armSource i
    | .error _ => s

/-- R595, R618, R619: the module enters service. -/
def State.enterService (s : State) (rearm : Bool) : State :=
  let s := s.enterState .service
  let s := s.each (List.range 32) fun s r => if (s.routeN r).cfg.enable then s.armRoute r true else s
  let s := s.resumeInstances rearm
  if rearm then s.rearmMap else s

/-- R596: the module leaves service. -/
def State.leaveService (s : State) (o : OpState) : State :=
  let s := s.each (List.range 128) fun s i => if (s.stream i).running then s.stopStream i 3 else s
  let s := s.each (List.range 128) State.disarmCapture
  let s := s.each (List.range 132) State.disarmSource
  let at_ := vtNat (vtSecond s.time.vtSec)
  let s := { s with insts := s.insts.map fun (e : Nat × Instance) => (e.1, { e.2 with cursor := e.2.cursor.endAt at_ s.time.secStart }) }
  s.enterState o

/-- R595, R596: the operating state a commit names. -/
def State.setOpState (s : State) (o : OpState) : State :=
  if s.power.opState = o then s
  else if o = .service then s.enterService false
  else if s.power.opState = .service then s.leaveService o
  else s.enterState o

/-! ## Restarts (R41, R601, R611 to R614) -/

/-- The SLICE tick that starts a VT second. -/
def State.tickOfSecond (s : State) (sec : U48) : Nat := s.tickOfVt (vtSecond sec)

def Pending.isCommit : Pending → Bool
  | .commit .. => true
  | .scheduled .. => false

/-- Pending items end not started with a status and remainder 1; the items of every tenant that hold a property. -/
def State.failItems (s : State) (st : Status) (which : Nat → Pending → Bool) : State :=
  s.each (List.range 256) fun s t =>
    let s := s.each ((s.tenant t).items.filter (which t)) fun s i => s.endItem t st 1 i
    s.modTenant t fun x => { x with items := x.items.filter fun i => !which t i }

/-- How many items `failItems` would end. -/
def State.countItems (s : State) (which : Nat → Pending → Bool) : Nat :=
  ((List.range 256).map fun t => ((s.tenant t).items.filter (which t)).length).sum

/-- R41, R145, R466: the Culm restarts: held and waiting commands are lost, a calibration run is aborted, a step not armed is given up. -/
def State.startCulmRestart (s : State) (cause : Nat) : State :=
  if !s.power.culmUp || s.power.opState = .powerFail then s
  else
    let s := s.abortRun.modPower fun p =>
      { p with culmUp := false, culmCause := BitVec.ofNat 4 cause, culmRestarts := satInc p.culmRestarts, bootCount := p.bootCount + 1 }
    let s := { s with tenants := vmodAll s.tenants fun _ t => { t with held := [] } }
    let s := s.modRachis fun x => { x with domains := [] }
    s.modJr fun j => { j with waiting := [], step := j.step.filter (·.armed) }

/-- R601, R622: no watchdog service for its time: the Culm restarts, and the new firmware's restarts are counted. -/
def State.watchdog (s : State) (cause : Nat) : State :=
  if !s.power.culmUp then s
  else (s.modFw fun w => { w with watchdogs := (s.clock :: w.watchdogs).take 3 }).startCulmRestart cause

def execCommandCoreWatchdog (t : Nat) (s : State) : Host.Outcome State Fault Refusal :=
  .next (State.settle s ((s.advance t).watchdog 8))

def execManagementCoreWatchdog (t : Nat) (s : State) : Host.Outcome State Fault Refusal :=
  .next (State.settle s ((s.advance t).watchdog 9))

/-- The items a tenant has in the commit step that is armed or waits for its record. -/
def State.inStep (s : State) (t : Nat) (i : Pending) : Bool :=
  (s.jr.step.toList ++ s.jr.switched.toList).any fun x =>
    x.second == i.second && i.isCommit && x.stages.any fun g => g.1.val == t

/-- R620: the new firmware has brought the command core up. -/
def State.firmwareUp (s : State) : State :=
  if !s.power.fw.activation then s
  else (s.withEntry s.power.fw.journal State.completeAll).modFw fun w => { w with activation := false }

/-- R41: the Culm is back. Commits whose window closed meanwhile, and scheduled commands whose second has begun, are not started;
EV_CULM_RESTART comes before every event that waits. -/
def effectCulmRestartComplete (s : State) : State :=
  if s.power.culmUp || !s.power.released || s.power.opState == .powerFail then s
  else
    let waiting := s.jr.outbox
    let s := ((s.modJr fun j => { j with outbox := [] }).modPower fun p => { p with culmUp := true }).raise 0x500 (w32 s.power.bootCount.toNat)
    let s := s.modJr fun j => { j with outbox := j.outbox ++ waiting }
    let s := { s with tenants := vmodAll s.tenants fun _ t => { t with culmRestarted := true } }
    let missed (t : Nat) (i : Pending) : Bool :=
      if i.isCommit then decide (s.tickOfSecond i.second ≤ s.clock + ticksOfMs 20) && !s.inStep t i
      else decide (s.tickOfSecond i.second ≤ s.clock)
    (s.failItems .fault missed).firmwareUp

def execCulmRestartComplete (t : Nat) (s : State) : Host.Outcome State Fault Refusal :=
  .next (State.settle s (effectCulmRestartComplete (s.advance t)))

/-- R615: the arming map. -/
def State.armedCaptures (s : State) : BitVec 128 :=
  maskOf 128 ((List.range 128).filter fun c => (s.chan c).capState == 1 || (s.chan c).capState == 4 || (s.chan c).armHeld)

def State.armedStamps (s : State) : BitVec 132 :=
  maskOf 132 ((List.range 132).filter fun i => (s.source i).armed || (s.source i).armHeld)

/-- Change the newest power-fail report. -/
def State.modReport (s : State) (f : PfReport → PfReport) : State :=
  s.modPower fun p => { p with reports := match p.reports with
    | r :: l => f r :: l
    | [] => [] }

/-- Microseconds since the start of power-fail handling. -/
def State.sinceCut (s : State) : U32 := BitVec.ofNat 32 ((s.clock - s.power.pfTick) / 625)

/-- R489, R613: the items of seconds whose step cannot end within the hold-up. -/
def State.beyondHoldup (s : State) (_ : Nat) (i : Pending) : Bool :=
  decide (s.clock + ticksOfMs 58 < s.tickOfSecond i.second)

/-- R489, R544, R555, R581, R611, R613, R615: power-fail handling begins. The time the flush takes is not stated: a free value within its
limit of 100 µs. -/
def State.startPowerFail (s : State) (cause : Nat) : State :=
  if !s.power.released || s.power.opState = .powerFail then s
  else
    let lost := s.countItems s.beyondHoldup
    let report : PfReport :=
      { cause, prior := s.power.opState, holdupReady := s.power.holdupReady, t := s.now, lastGeneration := s.jr.recGeneration
        lastCommitSec := s.jr.recSecond, holdupMs := s.power.holdupMs, notStarted := BitVec.ofNat 32 lost }
    let s := s.modPower fun p =>
      { p with opState := .powerFail, reports := (report :: p.reports).take 4, armingCaptures := s.armedCaptures
               armingStamps := s.armedStamps, pfTick := s.clock, pfSealed := s.granary.catalogue.length, autoService := false }
    let s := (s.abortDrill 2).abortTest.haltTiller
    let s := (s.gateAll 4).each (List.range 8) fun s k => s.modProbe k fun y => { y with phaseValid := false }
    let s := { s with tenants := vmodAll s.tenants fun _ t => { t with held := [] } }
    let s := (s.modJr fun j => { j with waiting := [] }).archivePowerFail
    let (v, s) := s.free
    let s := s.modReport fun r => { r with flushUs := BitVec.ofNat 32 (v.toNat % 101) }
    effectVtSecondSave (s.failItems .fault s.beyondHoldup)

/-- R601, R613: PWR_FAIL is high. -/
def execPowerFail (t : Nat) (s : State) : Host.Outcome State Fault Refusal :=
  .next (State.settle s (((s.advance t).modPower fun p => { p with pwrFailPin := true }).startPowerFail 2))

/-- R601: the other full-restart causes. -/
def execResetNFall (t : Nat) (s : State) : Host.Outcome State Fault Refusal :=
  .next (State.settle s ((s.advance t).startPowerFail 4))

def execInputUndervoltage (t : Nat) (s : State) : Host.Outcome State Fault Refusal :=
  .next (State.settle s ((s.advance t).startPowerFail 1))

def execInputOvervoltage (t : Nat) (s : State) : Host.Outcome State Fault Refusal :=
  .next (State.settle s ((s.advance t).startPowerFail 3))

def execInputOvercurrent (t : Nat) (s : State) : Host.Outcome State Fault Refusal :=
  .next (State.settle s ((s.advance t).startPowerFail 10))

def execThermalShutdown (t : Nat) (s : State) : Host.Outcome State Fault Refusal :=
  .next (State.settle s ((s.advance t).startPowerFail 6))

/-- R594, R614: what runs in the main domain stops with it: captures, stamp streams, routes, streams and links. -/
def State.stopMain (s : State) : State :=
  let s := { s with
    chans := vmodAll s.chans fun _ x => { x with capState := 0, openRec := none, ended := [] }
    sources := vmodAll s.sources fun _ x => { x with running := false, held := [] }
    streams := vmodAll s.streams fun _ x => { x with running := false }
    ports := vmodAll s.ports fun _ p => { p with link := false }
    rports := vmodAll s.rports fun _ p => { p with state := .down } }
  s.disarmRoutes

/-- R617: more pending items are written not started. -/
def State.countNotStarted (s : State) (n : Nat) : State := s.modReport fun r => { r with notStarted := r.notStarted + BitVec.ofNat 32 n }

/-- R594, R614: the main domain stops; a step that is not armed is refused whole. -/
def effectMainDomainDown (s : State) : State :=
  if s.power.opState ≠ .powerFail ∨ !s.power.mainOn then s
  else
    let s := ((s.modPower fun p => { p with mainOn := false }).modReport fun r => { r with mainDownUs := s.sinceCut }).stopMain
    match s.jr.step with
    | some x =>
      if x.armed then s
      else ((s.countNotStarted (s.countItems s.inStep)).failItems .degraded s.inStep).modJr fun j => { j with step := none }
    | none => s

def execMainDomainDown (t : Nat) (s : State) : Host.Outcome State Fault Refusal :=
  .next (State.settle s (effectMainDomainDown (s.advance t)))

/-! ## Protections and housekeeping (R593, R603 to R610, R612) -/

/-- R604: a code at a limit of its input. -/
def codeClipped (input : Nat) (c : Int) : Bool :=
  if hkDifferential input then decide (c ≤ -2048 ∨ 2047 ≤ c) else decide (c ≤ 0 ∨ 4095 ≤ c)

/-- R603, R604: 0.01 °C of a temperature code. -/
def tempOf (c : Int) : Int := c * 625 / 100

/-- R603, R629: the fixed scan of inputs 0, 1, 3, 12, 13 and 16 to 31. A sensor at a code limit is faulty and the other is used alone; the
temperatures stand while both are. -/
def effectProtectionScan (codes : List Int) (s : State) : State :=
  let at_ (i : Nat) : Int := (codes[i]?).getD 0
  let a := at_ 3
  let b := at_ 4
  let la := codeClipped 12 a
  let lb := codeClipped 13 b
  let limit : BitVec 2 := BitVec.ofNat 2 (boolNat la + 2 * boolNat lb)
  let near := decide (((a - b) * 625).natAbs ≤ 50000)
  let diff := if near then none else s.power.sensorDiff
  let iin := at_ 1 * 25
  let p := s.power
  let plate :=
    if la && lb then p.plate
    else if la || diff == some 0 && !lb then tempOf b
    else if lb || diff == some 1 then tempOf a
    else (a + b) * 625 / 200
  let high := if la && lb then p.plateHigh else if la then tempOf b else if lb then tempOf a else max (tempOf a) (tempOf b)
  let alarm (s : State) (i : Nat) (c : Int) : State :=
    if limit.getLsbD i && !p.sensorLimit.getLsbD i then s.raise 0x5C5 (w8 255 ++ w8 (12 + i) ++ leInt 2 c) else s
  let s := alarm (alarm s 0 a) 1 b
  s.modPower fun p =>
    { p with vinMv := BitVec.ofInt 32 (at_ 0 * 5), iinMa := BitVec.ofInt 32 iin, plate0 := tempOf a, plate1 := tempOf b, plate
             plateHigh := high, sensorLimit := limit, sensorDiff := diff, sheafTemps := (List.range 16).map fun k => tempOf (at_ (5 + k))
             thermalWarn := p.thermalWarn && decide (7000 ≤ high), bladeRaised := p.bladeRaised && decide (20000 < iin) }

def execProtectionScan (t : Nat) (codes : List Int) (s : State) : Host.Outcome State Fault Refusal :=
  .next (State.settle s (effectProtectionScan codes (s.advance t)))

/-- Insert into a rising list. -/
def insertInt (n : Int) : List Int → List Int
  | [] => [n]
  | m :: l => if n ≤ m then n :: m :: l else m :: insertInt n l

/-- Twice the median of the sheaf sensors, each less its offset to the plate (R603): of an even number, the mean of the middle two. -/
def State.sheafMedian2 (s : State) : Int :=
  let power := s.power.vinMv.toNat * s.power.iinMa.toNat / 1000
  let l := ((List.range s.power.sheafTemps.length).map fun k =>
    (s.power.sheafTemps[k]?).getD 0 - Config.sheafOffset k power).foldr insertInt []
  (l[(l.length - 1) / 2]?).getD 0 + (l[l.length / 2]?).getD 0

/-- R603: the plate sensors differ: the one farther from the median is faulty, T_PLATE1 on equal distance. -/
def effectPlateSensorFault (s : State) : State :=
  let p := s.power
  if p.sensorDiff.isSome || p.sensorLimit != 0 then s
  else
    let d (v : Int) : Nat := (2 * v - s.sheafMedian2).natAbs
    let i := if d p.plate1 < d p.plate0 then 0 else 1
    let bad := if i = 0 then p.plate0 else p.plate1
    let good := if i = 0 then p.plate1 else p.plate0
    (s.modPower fun p => { p with sensorDiff := some i, plate := good }).raise 0x5C5 (w8 255 ++ w8 (12 + i) ++ leInt 2 (bad * 100 / 625))

def execPlateSensorFault (t : Nat) (s : State) : Host.Outcome State Fault Refusal :=
  .next (State.settle s (effectPlateSensorFault (s.advance t)))

/-- R610: once per excursion. -/
def effectThermalWarn (s : State) : State :=
  if s.power.thermalWarn then s
  else (s.modPower fun p => { p with thermalWarn := true }).raise 0x5C4 (leInt 2 s.power.plateHigh)

def execThermalWarn (t : Nat) (s : State) : Host.Outcome State Fault Refusal :=
  .next (State.settle s (effectThermalWarn (s.advance t)))

/-- R593: once per excursion. -/
def effectBladeImbalance (code : Int) (s : State) : State :=
  if s.power.bladeRaised then s
  else (s.modPower fun p => { p with bladeRaised := true }).raise 0x5C6 (leInt 2 code)

def execBladeImbalance (t : Nat) (code : Int) (s : State) : Host.Outcome State Fault Refusal :=
  .next (State.settle s (effectBladeImbalance code (s.advance t)))

/-- R612: the store is measured. -/
def effectHoldupMeasure (ms : U16) (s : State) : State :=
  let s := s.modPower fun p => { p with holdupMs := ms, holdupAt := s.clock, holdupReady := decide (60 ≤ ms.toNat) }
  if ms.toNat < 60 then s.raise 0x5C3 (w16 ms.toNat) else s

def execHoldupMeasure (t : Nat) (ms : U16) (s : State) : Host.Outcome State Fault Refusal :=
  .next (State.settle s (effectHoldupMeasure ms (s.advance t)))

/-- Round a quotient to the nearest integer, ties away from zero. -/
def roundTies (n : Int) (d : Nat) : Int :=
  if 0 ≤ n then (2 * n + d) / (2 * d) else -((2 * -n + d) / (2 * d))

/-- R605: the 16-bit result of conversions in a format. -/
def hkResult (format a : Nat) (codes : List Int) : U16 :=
  let n := max codes.length 1
  if format = 0 ∨ format = 1 then BitVec.ofInt 16 (roundTies codes.sum n)
  else if a < 4 then BitVec.ofInt 16 (codes.sum / (n : Int) * 16)
  else BitVec.ofInt 16 (roundTies (codes.sum * 16) n)

/-- R609: a result or limit as a number of its format. -/
def hkValue (format : Nat) (v : U16) : Int := if format % 2 = 1 then v.toInt else v.toNat

/-- R607, R609, R627: a new result of one entry; whether its alarm is raised. -/
def HkResult.update (r : HkResult) (e : HkEntry) (codes : List Int) (vt : BitVec 80) : HkResult × Bool :=
  let v := hkResult e.format e.a codes
  let x := hkValue e.format v
  let low := decide (x < hkValue e.format e.low)
  let high := decide (hkValue e.format e.high < x)
  let out := low || high
  let outside := if out then r.outside + 1 else 0
  let inside := if out then 0 else r.inside + 1
  let raise := out && decide (4 ≤ outside) && !r.raised
  ({ result := v, alarmLow := low, alarmHigh := high, stale := false, clipped := codes.any (codeClipped e.input)
     updateCount := r.updateCount + 1
     min := if r.stale || decide (x < hkValue e.format r.min) then v else r.min
     max := if r.stale || decide (hkValue e.format r.max < x) then v else r.max
     vt, outside, inside, raised := (r.raised || raise) && decide (inside < 8) }, raise)

/-- One entry of a reporting pass. -/
def State.hkEntry (s : State) (codes : List (List Int)) (n : Nat) : State :=
  match s.power.hk[n]?, codes[n]? with
  | some e, some cs =>
    if !e.enable || cs.isEmpty then s
    else
      let (r, raise) := (vget s.power.hkRes n).update e cs (vt80 s.now)
      let balanced := e.input == 2 && decide (5 * (cs.sum * 25).natAbs ≤ s.power.iinMa.toNat * cs.length)
      let s := s.modPower fun p => { p with hkRes := vset p.hkRes n r, bladeRaised := p.bladeRaised && !balanced }
      if raise then s.raise 0x5C5 (w8 n ++ w8 e.input ++ w16 r.result.toNat) else s
  | _, _ => s

/-- R606, R607: a pass over the enabled entries in ascending number. -/
def effectHkReportingPass (codes : List (List Int)) (s : State) : State :=
  (s.each (List.range 32) (·.hkEntry codes ·)).modPower fun p => { p with passCount := p.passCount + 1 }

def execHkReportingPass (t : Nat) (codes : List (List Int)) (s : State) : Host.Outcome State Fault Refusal :=
  .next (State.settle s (effectHkReportingPass codes (s.advance t)))

/-! ## Firmware (R620 to R622) -/

/-- R621: the package in the inactive slot; none where its blocks leave a gap. -/
def packageOf (fuel pos : Nat) (l : Assoc Bytes) : Option Bytes :=
  match fuel with
  | 0 => some []
  | fuel + 1 =>
    match l with
    | [] => some []
    | (o, b) :: l => if o = pos then (packageOf fuel (pos + b.length) l).map (b ++ ·) else none

/-- R620, R621: a package whose length and signature hold. -/
def packageOk (b : Bytes) : Bool :=
  b.length == Config.fwLength b && decide (64 < b.length)
    && ed25519Verify Config.lumeskKey (b.take (b.length - 64)) (b.drop (b.length - 64))

/-- Restart at a level (R601, R622). -/
def State.restartAt (s : State) (level cause : Nat) : State :=
  if level = 0 then s.startCulmRestart cause else s.startPowerFail cause

/-- R622: the new firmware has not brought the command core up within 30 s of its activation, or three watchdog restarts have followed within
10 min. -/
def Firmware.failed (w : Firmware) (clock : Nat) : Bool :=
  (w.activation && decide (w.since + 30 * ticksPerSec ≤ clock))
    || (match w.watchdogs with
      | [a, _, c] => decide (a ≤ c + 600 * ticksPerSec)
      | _ => false)

/-- R622: the previous slot is active again. -/
def effectFirmwareRevert (s : State) : State :=
  let w := s.power.fw
  if w.otherState ≠ 2 ∨ w.journal.isNone ∨ !w.failed s.clock then s
  else
    let s := s.modFw fun w =>
      { w with activeSlot := w.activeSlot + 1, otherState := 3, otherVersion := w.activeVersion, activeVersion := w.otherVersion
               activation := false, watchdogs := [] }
    let s := s.withEntry w.journal fun s j => s.partialEntry j 1
    (s.raise 0x5C7 (w8 s.power.fw.activeSlot.toNat)).restartAt w.level 7

def execFirmwareRevert (t : Nat) (s : State) : Host.Outcome State Fault Refusal :=
  .next (State.settle s (effectFirmwareRevert (s.advance t)))

/-! ## Commands (R625 to R631) -/

/-- R629. -/
def State.powerStatus (s : State) : Bytes :=
  let p := s.power
  w8 p.opState.code ++ w8 (boolNat p.restartPolicy) ++ w8 p.fullCause.toNat ++ w8 p.fw.activeSlot.toNat ++ w32 p.fw.activeVersion.toNat
    ++ w32 p.fw.otherVersion.toNat ++ w16 p.holdupMs.toNat
    ++ w8 (boolNat p.holdupReady + 2 * boolNat p.mainOn + 4 * boolNat p.thermalWarn) ++ w8 0 ++ w32 p.vinMv.toNat ++ w32 p.iinMa.toNat
    ++ w32 (p.vinMv.toNat * p.iinMa.toNat / 1000) ++ leInt 2 p.plate ++ leInt 2 p.plateHigh ++ w32 p.bootCount.toNat
    ++ w64 (if p.started then (s.clock - p.endedAt) / ticksPerSec else 0) ++ w32 0

def powerStatusGetCmd : Cmd :=
  { kind := .readback, startUp := true, check := noPayload, run := fun _ s => answer s.powerStatus s }

/-- R605, R626: a limit lies in its format. -/
def inFormat (format : Nat) (v : Nat) : Bool :=
  if format = 0 then decide (v ≤ 4095) else if format = 1 then inRangeI (-2048) (signed 16 v) 2047 else true

/-- R626: the fields of one entry. -/
def hkFields (p : Bytes) (n : Nat) : List (Nat × Bool) :=
  let o := 4 + 8 * n
  [(o, decide (p8 p o ≤ 38)), (o + 1, decide (p8 p (o + 1) ≤ 3) && (p8 p (o + 1) % 2 == 1) == hkDifferential (p8 p o))
   , (o + 2, decide (p8 p (o + 2) ≤ 8)), (o + 3, decide (p8 p (o + 3) ≤ 1)), (o + 4, inFormat (p8 p (o + 1)) (p16 p (o + 4)))
   , (o + 6, inFormat (p8 p (o + 1)) (p16 p (o + 6)))]

def hkEntriesOf (p : Bytes) : List HkEntry :=
  (List.range 32).map fun n =>
    let o := 4 + 8 * n
    { input := p8 p o, format := p8 p (o + 1), a := p8 p (o + 2), enable := p8 p (o + 3) == 1, low := BitVec.ofNat 16 (p16 p (o + 4))
      high := BitVec.ofNat 16 (p16 p (o + 6)) }

/-- R606: the time of a pass, µs. -/
def hkTime (l : List HkEntry) : Nat := ((l.filter (·.enable)).map fun e => 2 ^ e.a + 2).sum

/-- R606, R626: effective when executed, without a generation; every entry is configured anew. -/
def housekeepingConfigCmd : Cmd :=
  { kind := .immediate, steward := true
    check := fun f _ =>
      let p := f.payload
      layout p 260 ([(0, inRange 1 (p16 p 0) 1000), (2, zeroAt p 2 2)] ++ (List.range 32).flatMap (hkFields p)
        ++ [(255, decide (hkTime (hkEntriesOf p) ≤ p16 p 0 * 843))])
    run := fun f s =>
      .ok ({}, s.modPower fun p =>
        { p with hkPeriod := p16 f.payload 0, hk := hkEntriesOf f.payload
                 hkRes := vmodAll p.hkRes fun _ r => { result := r.result, updateCount := r.updateCount, vt := r.vt } }) }

/-- R607. -/
def HkResult.word (r : HkResult) : Nat :=
  r.result.toNat + 2 ^ 16 * boolNat r.alarmLow + 2 ^ 17 * boolNat r.alarmHigh + 2 ^ 18 * boolNat r.stale + 2 ^ 19 * boolNat r.clipped
    + 2 ^ 24 * r.updateCount.toNat

/-- HK_RESULT_n: a disabled entry is stale. -/
def Power.hkWord (p : Power) (n : Nat) : Nat :=
  let r := vget p.hkRes n
  let on : Bool := ((p.hk[n]?).map fun e => e.enable).getD false
  HkResult.word { r with stale := r.stale || !on }

/-- R627. -/
def State.hkStatus (s : State) : Bytes :=
  let p := s.power
  w32 p.passCount.toNat ++ w16 p.hkPeriod ++ w16 0 ++ ((List.range 32).map fun n =>
    let r := vget p.hkRes n
    w32 (p.hkWord n) ++ w16 r.min.toNat ++ w16 r.max.toNat ++ vt80Bytes r.vt ++ w8 (((p.hk[n]?).map fun e => e.input).getD 0)
      ++ w8 (((p.hk[n]?).map fun e => e.format).getD 0) ++ w32 0).flatten

def housekeepingGetCmd : Cmd :=
  { kind := .readback, startUp := true, check := noPayload, run := fun _ s => answer s.hkStatus s }

/-- R595, R598, R628. -/
def operatingStateSetCmd : Cmd :=
  { kind := .staged, steward := true
    check := fun f _ =>
      let p := f.payload
      layout p 4 [(0, oneOf (p8 p 0) [1, 2, 3, 255]), (1, oneOf (p8 p 1) [0, 1, 255] && !(p8 p 0 == 255 && p8 p 1 == 255))
        , (2, decide (p8 p 2 ≤ 1)), (3, zeroAt p 3 1)]
    apply := fun f s =>
      let p := f.payload
      let s := if p8 p 1 = 255 then s else s.modPower fun x => { x with restartPolicy := p8 p 1 == 1 }
      if p8 p 0 = 255 then .ok s
      else if p8 p 0 = 1 then .ok (s.setOpState .recovery)
      else if p8 p 0 = 2 then .ok (s.setOpState .maintenance)
      else if s.power.opState ≠ .service ∧ (s.power.lateLock ∧ !s.time.locked ∨ !s.power.holdupReady ∧ p8 p 2 = 0) then .error .degraded
      else .ok (s.setOpState .service)
    keys := fun p => (if p8 p 0 = 255 then [] else [0]) ++ if p8 p 1 = 255 then [] else [1]
    without := fun p l => (if l.contains 0 then 255 else p.headD 0) :: (if l.contains 1 then 255 else (p.drop 1).headD 0) :: p.drop 2 }

/-- R617. -/
def PfReport.bytes (r : PfReport) : Bytes :=
  let b := w8 (boolNat r.complete) ++ w8 r.cause ++ w8 r.prior.code ++ w8 (boolNat r.holdupReady) ++ vt96Bytes r.t ++ w32 r.flushUs.toNat
    ++ w32 r.granaryUs.toNat ++ w32 r.mainDownUs.toNat ++ w32 r.endUs.toNat ++ w32 r.lastGeneration.toNat ++ w48 r.lastCommitSec.toNat
    ++ w16 r.holdupMs.toNat ++ w32 r.sealed_.toNat ++ w32 r.freed.toNat ++ w32 r.notStarted.toNat ++ w32 0
  b ++ w32 (crc32c b).toNat

/-- R630. -/
def powerFailReportGetCmd : Cmd :=
  { kind := .readback, startUp := true
    check := fun f s => layout f.payload 4 [(0, decide (p8 f.payload 0 < s.power.reports.length)), (1, zeroAt f.payload 1 3)]
    run := fun f s => answer ((s.power.reports[p8 f.payload 0]?).map PfReport.bytes).toList.flatten s }

/-- R620, R631: a block into the inactive slot; the first at offset 0 of a package creates the update's entry. -/
def firmwareLoadCmd : Cmd :=
  { kind := .immediate, steward := true
    check := fun f _ =>
      let p := f.payload
      if inRange 5 p.length 4100 then fields [(0, p32 p 0 % 4096 == 0 && decide (p32 p 0 + (p.length - 4) ≤ 33554432))]
      else .error (badParam headerField)
    run := fun f s => do
      let p := f.payload
      require (!s.power.fw.activation) (refuse .busy)
      let new := s.power.fw.otherState != 1
      let b := p.drop 4
      let s := if new then s.modFw fun w => { w with blocks := [], journal := none, otherState := 1, otherVersion := 0 } else s
      let (j, s) ← if p32 p 0 = 0 ∧ s.power.fw.journal.isNone then do
          let (j, s) ← s.startWork f 0x1006 (blocksOf (Config.fwLength b))
          pure (some j, s)
        else pure (s.power.fw.journal, s)
      let s := s.modFw fun w => { w with blocks := aset w.blocks (p32 p 0) b, journal := j }
      let s := s.withEntry j fun s j => s.modEntry j fun e => { e with done := BitVec.ofNat 32 s.power.fw.blocks.length }
      .ok ({ journal := j }, s) }

/-- R621, R631: the package is verified, its slot becomes active and the module restarts after the response. -/
def firmwareActivateCmd : Cmd :=
  { kind := .immediate, steward := true
    check := fun f s => do
      let p := f.payload
      layout p 4 [(0, p8 p 0 == 0xA5), (1, zeroAt p 1 3)]
      let w := s.power.fw
      match packageOf (w.blocks.length + 1) 0 w.blocks with
      | some b =>
        require (w.otherState == 1 && packageOk b) (badParam 0)
        require (Config.fwLevel b == 0 || s.power.opState == .recovery || s.power.opState == .maintenance) (refuse .notOwnerState)
      | none => .error (badParam 0)
    run := fun _ s =>
      let w := s.power.fw
      let b := (packageOf (w.blocks.length + 1) 0 w.blocks).getD []
      let level := (Config.fwLevel b).toNat
      let s := s.modFw fun w =>
        { w with activeSlot := w.activeSlot + 1, otherState := 2, otherVersion := w.activeVersion, activeVersion := Config.fwPackageVersion b
                 blocks := [], activation := true, since := s.clock, watchdogs := [], level }
      let s := s.modPower fun p => if level = 0 then { p with culmPending := some 7 } else { p with restartPending := some 7 }
      .ok ({ journal := w.journal }, s) }

/-- R539, R631: the restart follows the response; the Drill's segments are lost but for those a run plays. -/
def moduleResetCmd : Cmd :=
  { kind := .immediate, steward := true
    check := fun f _ =>
      let p := f.payload
      layout p 4 [(0, decide (p8 p 0 ≤ 1)), (1, p8 p 1 == 0xA5), (2, zeroAt p 2 2)]
    run := fun f s =>
      let s := s.modDrill fun x => { x with segments := x.segments.filter fun e => x.uses e.1 }
      .ok ({}, s.modPower fun p => if p8 f.payload 0 = 0 then { p with culmPending := some 5 } else { p with restartPending := some 5 }) }

/-- R621, R631: a restart that waits for the response to leave begins. -/
def State.pendingRestart (s : State) : State :=
  match s.power.culmPending, s.power.restartPending with
  | some c, _ => (s.modPower fun p => { p with culmPending := none }).startCulmRestart c
  | none, some c => (s.modPower fun p => { p with restartPending := none }).startPowerFail c
  | none, none => s

end Sys2Proof.Machine
end

