-- ==== Sys2Proof/Machine/Restart.lean ====
section
/-! DEFINITION. A full restart: what MRAM and the configuration of the last commit record keep (R36, R60, R106, R141, R304, R309, R324, R326, R402,
R469, R471, R519, R584, R591, R602, R615 to R617), the release of start-up and its end (R597, R598, R618). -/

namespace Sys2Proof.Machine

/-! ## The configuration before an unrecorded switch (R36) -/

/-- The configuration of the present generation. -/
def State.configNow (s : State) : Prior :=
  { holdoverForced := s.time.holdoverForced, cfg := s.time.cfg, leaps := s.time.leaps, tenants := s.tenants, own := s.own, chans := s.chans, calCfg := s.cal.cfg, routes := s.routes
    trigOuts := s.trigOuts, rachisCfg := s.rachis.cfg, rports := s.rports, sources := s.sources, nodes := s.nodes, insts := s.insts
    dram := s.dram, winnow := s.winnow, jobs := s.granary.jobs, scrubDays := s.granary.scrubDays, refreshBits := s.granary.refreshBits
    ports := s.ports, streams := s.streams, drillCfg := s.drill.cfg, probes := s.probes, loops := s.test.loops
    testSources := s.test.sources, sheafIsolated := s.test.sheafIsolated, restartPolicy := s.power.restartPolicy }

/-- The entry of the tenant table as it was; what the tenant has sent and received stands. -/
def Tenant.revert (old t : Tenant) : Tenant :=
  { t with active := old.active, channelMax := old.channelMax, engineMax := old.engineMax, pageMax := old.pageMax, archiveGib := old.archiveGib
           streamMbps := old.streamMbps, eventDepth := old.eventDepth, admission := old.admission }

/-- The settings of a channel as they were; what is kept in MRAM stands. -/
def Channel.revert (old x : Channel) : Channel :=
  { x with fe := old.fe, comp := old.comp, capture := old.capture, reduction := old.reduction, accum := old.accum
           background := old.background, dither := old.dither, isolated := old.isolated, retired := old.retired, spare := old.spare
           ring := old.ring, circ := old.circ, capJournal := old.capJournal }

/-- R324, R352: a controller with the masks and the isolation of an older configuration; its marks, counts and errors are the device's. -/
def Dram.revert (old now : Dram) : Dram :=
  { now with bgMask := old.bgMask, baMask := old.baMask
             state := if (now.byStage && !old.byStage) || (now.restoring.isSome && old.restoring.isNone) then old.state else now.state
             byStage := old.byStage, restoring := if old.restoring.isNone then none else now.restoring }

/-- R324, R355: the DRAM with the settings of an older configuration. -/
def DramUnit.revert (old now : DramUnit) : DramUnit :=
  { now with hammerK := old.hammerK, scrubHours := old.scrubHours, ports := old.ports
             ctrl := vmodAll now.ctrl fun i x => (vget old.ctrl i).revert x }

/-- R326: the pages of an older table with the marks and retirements of the present one. -/
def keepMarks (old now : Assoc Page) : Assoc Page :=
  (now.filter fun e => e.2.retired || e.2.markRetire).foldl (fun l e =>
    if e.2.retired then aset l e.1 e.2 else aset l e.1 { ((aget l e.1).getD {}) with markRetire := true }) old

/-- R36: the module is again in the configuration before a switch without a commit record. -/
def State.revert (s : State) (p : Prior) : State :=
  { s with
    time := { s.time with cfg := p.cfg, leaps := p.leaps, holdoverForced := p.holdoverForced }
    tenants := vmodAll s.tenants fun i t => (vget p.tenants i).revert t
    own := { p.own with pages := keepMarks p.own.pages s.own.pages }
    chans := vmodAll s.chans fun i x => (vget p.chans i).revert x
    cal := { s.cal with cfg := p.calCfg }
    routes := p.routes
    trigOuts := p.trigOuts
    rachis := { s.rachis with cfg := p.rachisCfg }
    rports := p.rports
    sources := p.sources
    nodes := p.nodes
    insts := p.insts
    dram := p.dram.revert s.dram
    winnow := p.winnow
    granary := { s.granary with jobs := p.jobs, scrubDays := p.scrubDays, refreshBits := p.refreshBits }
    ports := p.ports
    streams := p.streams
    drill := { s.drill with cfg := p.drillCfg }
    probes := p.probes
    test := { s.test with loops := p.loops, sources := p.testSources, sheafIsolated := p.sheafIsolated }
    power := { s.power with restartPolicy := p.restartPolicy } }

/-! ## What a restart keeps -/

/-- A ring keeps its pages and the registrations of instances and jobs; its items are lost. -/
def Ring.kept (r : Ring) : Ring :=
  { pages := r.pages, consumers := r.consumers.filter fun c => match c with
      | .stream _ => false
      | _ => true }

/-- R106, R108: the phases of a channel as they are at power-up: a retired slice is replaced by the spare. -/
def Channel.powerUp (x : Channel) : Channel :=
  match x.retired with
  | some r =>
    let y : Channel := if r.val < 8 then ({} : Channel).putSlice r.val 8 else {}
    { y with spare := none, retired := some r, substituted := decide (r.val < 8), faulty := setBit 0 r.val true, reasons := 0x40 }
  | none => {}

def Channel.kept (x : Channel) : Channel :=
  { x.powerUp with sliceTested := x.sliceTested, badSets := x.badSets, fe := x.fe, comp := x.comp, capture := x.capture, reduction := x.reduction, accum := x.accum, background := x.background
                   dither := x.dither, isolated := x.isolated, sets := x.sets, ring := x.ring.kept, circ := x.circ.kept
                   capJournal := x.capJournal }

def Tenant.kept (t : Tenant) : Tenant := { t with held := [], sweeps := [], powerLost := true }

/-- R512: every page is swept again before it is its owner's. -/
def keptPages (l : Assoc Page) : Assoc Page :=
  (l.filter fun e => e.2.retired || e.2.owner.isSome).map fun e =>
    (e.1, if e.2.retired then e.2 else { e.2 with sweeping := true, step := 0 })

def StampSource.kept (x : StampSource) : StampSource :=
  { stampEnable := x.stampEnable, pages := x.pages, ti := x.ti, ring := x.ring.kept }

def TrigOut.kept (x : TrigOut) : TrigOut :=
  { route := x.route, fastPath := x.fastPath, activeLow := x.activeLow, widthNs := x.widthNs, offsetPs := x.offsetPs, enable := x.enable
    onFastPath := x.onFastPath }

def Route.kept (x : Route) : Route := { cfg := x.cfg, state := if x.cfg.enable then .disarmed else .disabled }

def Instance.kept (x : Instance) : Instance :=
  { x with units := [], durations := [], cursor := { stop := some 0, stopTick := some 0 }, old := [], serial := [], ring := x.ring.kept
           active := none, inited := [], last := none, consecutivePoisoned := 0 }

/-- R324, R343, R584: a controller trains again, or stays isolated. -/
def Dram.kept (x : Dram) : Dram :=
  { state := if x.state = .isolated ∨ x.restoring.isSome then .isolated else .training, marked := x.marked, bgMask := x.bgMask
    baMask := x.baMask, scrubDoneAt := x.scrubDoneAt, byStage := x.byStage }

def DramUnit.kept (d : DramUnit) : DramUnit :=
  { d with ctrl := vmodAll d.ctrl fun _ x => x.kept
           ports := d.ports.map fun p => { targetNs := p.targetNs } }

def Winnow.kept (w : Winnow) : Winnow :=
  { laneEnable := w.laneEnable, blockBytes := w.blockBytes, flushMs := w.flushMs
    lanes := vmodAll w.lanes fun _ x => { state := x.state, selfTested := x.selfTested } }

/-- R385, R619: a job gives up the record in progress; its entry stays open. -/
def Job.kept (j : Job) : Job :=
  { j with spans := [], taken := [], span := 0, recordId := none, ended := false, raw := [], open_ := [], blocks := 0, blocksOut := 0
           finished := [], laid := [], words := [], parts := [], storedLen := 0, target := none, damaged := [], holding := false, fullRaised := false, stallSince := 0 }

/-- R400, R404: a cassette that stays fitted is read again; its state is remembered. -/
def Cassette.kept (x : Cassette) : Cassette :=
  { x with state := .absent, powered := false, insertedAt := 0, gleanQueue := [], formatJournal := none, evacuation := none
           retireJournal := none, times := [], resume := if x.state = .absent then x.resume else some x.state }

def Granary.kept (g : Granary) : Granary :=
  { g with cassettes := vmodAll g.cassettes fun _ x => x.kept
           dies := vmodAll g.dies fun _ d => { d with times := [] }
           jobs := g.jobs.map fun e => (e.1, e.2.kept)
           catalogue := g.catalogue.map fun r => { r with entry := { r.entry with offline := true } }
           nextRecordId := g.recordIdMark }

def Port.kept (p : Port) : Port := { cfg := p.cfg, isolated := p.isolated }

def Probe.kept (y : Probe) : Probe := { cfg := y.cfg }

def Power.kept (p : Power) : Power :=
  { holdupMs := p.holdupMs, holdupAt := p.holdupAt, restartPolicy := p.restartPolicy, bootCount := p.bootCount
    fullCause := p.fullCause, reports := p.reports, restartTimes := p.restartTimes, hkPeriod := p.hkPeriod, hk := p.hk
    armingCaptures := p.armingCaptures, armingStamps := p.armingStamps
    fw := { p.fw with blocks := [], otherState := if p.fw.otherState = 1 then 0 else p.fw.otherState } }

/-- R602, R615: the module held in reset after its handling: volatile state at its reset values, MRAM and the configuration kept. -/
def State.held (s : State) : State :=
  { pending := s.pending
    freeCtr := s.freeCtr
    clock := s.clock
    time := { leaps := s.time.leaps, savedVtSec := s.time.savedVtSec, cfg := s.time.cfg
              holdoverForced := s.time.holdoverForced }
    jr := { entries := s.jr.entries, next := s.jr.next, generation := s.jr.recGeneration, recGeneration := s.jr.recGeneration
            recSecond := s.jr.recSecond, outbox := s.jr.outbox, genBase := s.jr.recGeneration }
    tenants := vmodAll s.tenants fun _ t => t.kept
    own := { s.own with pages := keptPages s.own.pages, swept := 0 }
    chans := vmodAll s.chans fun _ x => x.kept
    cal := { cfg := s.cal.cfg, tRef := s.cal.tRef, lastDone := s.cal.lastDone, log := s.cal.log, logNext := s.cal.logNext }
    routes := vmodAll s.routes fun _ x => x.kept
    trigOuts := vmodAll s.trigOuts fun _ x => x.kept
    rachis := { cfg := s.rachis.cfg }
    rports := vmodAll s.rports fun _ p => { isolated := p.isolated }
    sources := vmodAll s.sources fun _ x => x.kept
    engines := vmodAll s.engines fun _ x => { retired := x.retired, selfTested := x.selfTested }
    nodes := s.nodes
    insts := (s.insts.filter fun e => e.1 < 1024 && !e.2.ended).map fun e => (e.1, e.2.kept)
    images := s.images
    keys := s.keys
    dram := s.dram.kept
    winnow := s.winnow.kept
    granary := s.granary.kept
    ports := vmodAll s.ports fun _ p => p.kept
    streams := vmodAll s.streams fun _ x => { cfg := x.cfg, owner := x.owner, lastCause := x.lastCause }
    drill := { cfg := s.drill.cfg }
    probes := vmodAll s.probes fun _ y => y.kept
    test := { s.test with active := false }
    power := s.power.kept }

/-! ## The end of the handling (R613, R36, R489) -/

/-- R486: whether the work of a running entry goes on after the restart: archive jobs, instances, accumulating captures, a
firmware that is not yet up. -/
def State.resumes (s : State) (j : Nat) : Bool :=
  s.granary.jobs.any (fun e => e.2.journal == j) || s.insts.any (fun e => e.2.journal == some j && !e.2.ended)
    || (List.range 128).any (fun c => (s.chan c).capJournal == some j) || (s.power.fw.activation && s.power.fw.journal == some j)

/-- R145, R486: work the restart does not resume is partial, its units untouched. -/
def State.endWork (s : State) : State :=
  let s := match s.cal.run with
    | some _ => s.modCal fun k => { k with run := none, lastDone := s.time.vtSec }
    | none => s
  s.each ((s.jr.entries.filter fun e => e.2.running && !s.resumes e.1).map (·.1)) fun s j => s.partialEntry j 1

/-- R36, R489: a switch whose record was not written is undone; its entries are not started. -/
def State.undoSwitch (s : State) : State :=
  if !s.jr.awaiting then s
  else
    let s := (s.failItems .fault s.inStep).modJr fun j => { j with generation := j.recGeneration, awaiting := false, stepEvents := [] }
    match s.jr.prior with
    | some p => s.revert p
    | none => s

/-- R613, R617: the handling ends, the report closes, the module is held in reset. The time of the Granary's step is not stated: a free value
within its limit of 40 ms. Records in progress are freed at the restart. -/
def effectPowerFailHandlingEnd (s : State) : State :=
  if s.power.opState ≠ .powerFail then s
  else
    let (v, s) := s.free
    let sealed_ := s.granary.catalogue.length - s.power.pfSealed
    let freed := (s.granary.jobs.filter fun e => e.2.recordId.isSome).length
    let s := s.modReport fun r =>
      { r with complete := true, endUs := s.sinceCut, mainDownUs := if s.power.mainOn then s.sinceCut else r.mainDownUs, granaryUs := BitVec.ofNat 32 (min (v.toNat % 40001) s.sinceCut.toNat)
               sealed_ := BitVec.ofNat 32 sealed_, freed := BitVec.ofNat 32 freed }
    let s := (s.countNotStarted (s.countItems fun _ _ => true)).undoSwitch
    let s := s.failItems .fault fun _ _ => true
    s.endWork.held

def execPowerFailHandlingEnd (t : Nat) (s : State) : Host.Outcome State Fault Refusal :=
  let s1 := effectPowerFailHandlingEnd (s.advance t)
  .next (State.settle s1 s1)

/-! ## Start-up (R51, R60, R142, R179, R597, R616) -/

/-- R597, R601, R616: start-up begins and the command core comes up: the cause is that of the power-fail report of the run before, power-on where
there is none. Coefficients are the interpolated sets with no trim (R146). -/
def effectStartupRelease (modId : BitVec 5) (s : State) : State :=
  if s.power.released then s
  else
    let report := s.power.reports.head?
    let cause := (report.map (·.cause)).getD 0
    let s := s.modPower fun p =>
      { p with released := true, culmUp := true, mainOn := true, pwrFailPin := false, bootCount := p.bootCount + 1
               fullCause := BitVec.ofNat 4 cause, restartTimes := (s.clock :: p.restartTimes).take 3 }
    let s := s.modTime fun t => { t with secStart := s.clock, searching := true, utcValid := true }
    let s := s.modRachis fun x => { x with modId }
    let s := s.modCal fun k => { k with tFilt := s.power.plate }
    let s := { s with chans := vmodAll s.chans fun c x => { x with live := s.liveFor c [] } }
    let s := s.firmwareUp
    let s := match report with
      | some r => s.raiseAt r.t 0x5C0 (w8 r.cause ++ w8 (boolNat r.complete) ++ w16 0 ++ w32 r.endUs.toNat)
      | none => s
    s.raise 0x5C1 (w8 cause ++ zeros 3 ++ w32 s.power.bootCount.toNat)

def execStartupRelease (t : Nat) (modId : BitVec 5) (s : State) : Host.Outcome State Fault Refusal :=
  .next (State.settle s (effectStartupRelease modId (s.advance t)))

/-- R618: whether the module moves on to service. -/
def State.mayAutoService (s : State) : Bool :=
  s.power.restartPolicy && s.time.locked && s.power.holdupReady
    && ((s.power.reports.head?.map fun r => r.prior == .service && r.cause != 6 && r.cause != 10).getD false)
    && decide ((s.power.restartTimes.filter fun c => decide (s.clock ≤ c + 600 * ticksPerSec)).length < 3)

/-- R597, R598, R618: start-up ends in recovery; without a locked root it ends at once. Scheduled routes go on with their next instant; those of
before this power-up are not counted again (DESIGN CHOICE, log entry 62). -/
def effectStartupEnd (s : State) : State :=
  if !s.power.released || s.power.opState != .startUp then s
  else
    let s := if s.time.locked then s
      else ((s.modTime fun t => { t with freqSource := 3 }).modPower fun p => { p with lateLock := true }).raise 0x510 []
    let auto := s.mayAutoService
    let s := s.each (List.range 32) fun s r => s.modRoute r fun x =>
      if x.cfg.sourceKind = 6 then x.atInstant (x.cfg.instantsUpTo s.now) else x
    (s.modPower fun p => { p with started := true, endedAt := s.clock, autoService := auto }).enterState .recovery

def execStartupEnd (t : Nat) (s : State) : Host.Outcome State Fault Refusal :=
  .next (State.settle s (effectStartupEnd (s.advance t)))

end Sys2Proof.Machine
end

