-- ==== Sys2Proof/Machine/Commands.lean ====
section
/-! DEFINITION. The table of the commands of chapters 02 to 17. -/

namespace Sys2Proof.Machine

/-- The command of chapters 02 to 17 that a constructor names; the system and mailbox commands (0x01xx) stand in System.lean. -/
def chapterCmd : Instr → Option Cmd
  | .timeGet _ => some timeGetCmd
  | .timebaseConfig _ => some timebaseConfigCmd
  | .timeSet _ => some timeSetCmd
  | .leapSchedule _ => some leapScheduleCmd
  | .timeAlign _ => some timeAlignCmd
  | .timeConvert _ => some timeConvertCmd
  | .holdoverForce _ => some holdoverForceCmd
  | .leapTableGet _ => some leapTableGetCmd
  | .channelConfig _ => some channelConfigCmd
  | .comparatorConfig _ => some comparatorConfigCmd
  | .channelStatusGet _ => some channelStatusGetCmd
  | .delayTableGet _ => some delayTableGetCmd
  | .rotationConfig _ => some rotationConfigCmd
  | .sliceSubstitute _ => some sliceSubstituteCmd
  | .calConfig _ => some calConfigCmd
  | .calChannelConfig _ => some calChannelConfigCmd
  | .calRun _ => some calRunCmd
  | .calStatusGet _ => some calStatusGetCmd
  | .calSetGet _ => some calSetGetCmd
  | .calLogGet _ => some calLogGetCmd
  | .triggerRouteConfig _ => some triggerRouteConfigCmd
  | .armTrigger _ => some armTriggerCmd
  | .softTrigger _ => some softTriggerCmd
  | .triggerStatusGet _ => some triggerStatusGetCmd
  | .trigOutConfig _ => some trigOutConfigCmd
  | .routeAssign _ => some routeAssignCmd
  | .tillerLoad _ => some tillerLoadCmd
  | .tillerControl _ => some tillerControlCmd
  | .rachisConfig _ => some rachisConfigCmd
  | .rachisStatusGet _ => some rachisStatusGetCmd
  | .rachisSend _ => some rachisSendCmd
  | .rachisQuench _ => some rachisQuenchCmd
  | .captureConfig _ => some captureConfigCmd
  | .reductionConfig _ => some reductionConfigCmd
  | .accumConfig _ => some accumConfigCmd
  | .armCapture _ => some armCaptureCmd
  | .captureStatusGet _ => some captureStatusGetCmd
  | .recordFetch _ => some recordFetchCmd
  | .stampConfig _ => some stampConfigCmd
  | .tiConfig _ => some tiConfigCmd
  | .armStamps _ => some armStampsCmd
  | .awnStatusGet _ => some awnStatusGetCmd
  | .measureConfig _ => some measureConfigCmd
  | .engineAssign _ => some engineAssignCmd
  | .imageLoad _ => some imageLoadCmd
  | .imageVerify _ => some imageVerifyCmd
  | .imageDelete _ => some imageDeleteCmd
  | .reducerConfig _ => some reducerConfigCmd
  | .engineStatusGet _ => some engineStatusGetCmd
  | .reducerStatusGet _ => some reducerStatusGetCmd
  | .engineKeyEnroll _ => some engineKeyEnrollCmd
  | .engineRestore _ => some engineRestoreCmd
  | .imageList _ => some imageListCmd
  | .dramStatusGet _ => some dramStatusGetCmd
  | .dramPortStatsGet _ => some dramPortStatsGetCmd
  | .dramQosConfig _ => some dramQosConfigCmd
  | .dramConfig _ => some dramConfigCmd
  | .dramMapConfig _ => some dramMapConfigCmd
  | .dramIsolate _ => some dramIsolateCmd
  | .dramErrorLogGet _ => some dramErrorLogGetCmd
  | .winnowConfig _ => some winnowConfigCmd
  | .winnowFlush _ => some winnowFlushCmd
  | .winnowStatusGet _ => some winnowStatusGetCmd
  | .granaryStatusGet _ => some granaryStatusGetCmd
  | .archiveJobConfig _ => some archiveJobConfigCmd
  | .archiveRead _ => some archiveReadCmd
  | .archiveList _ => some archiveListCmd
  | .archiveRetain _ => some archiveRetainCmd
  | .damageListGet _ => some damageListGetCmd
  | .gleanConfig _ => some gleanConfigCmd
  | .cassetteFormat _ => some cassetteFormatCmd
  | .cassetteEvacuate _ => some cassetteEvacuateCmd
  | .cassetteRetire _ => some cassetteRetireCmd
  | .portConfig _ => some portConfigCmd
  | .portStatusGet _ => some portStatusGetCmd
  | .streamConfig _ => some streamConfigCmd
  | .streamStart _ => some streamStartCmd
  | .streamStop _ => some streamStopCmd
  | .streamLeaseRenew _ => some streamLeaseRenewCmd
  | .streamStatusGet _ => some streamStatusGetCmd
  | .quench _ => some quenchCmd
  | .tenantConfig _ => some tenantConfigCmd
  | .tenantStatusGet _ => some tenantStatusGetCmd
  | .channelAssign _ => some channelAssignCmd
  | .pageGrant _ => some pageGrantCmd
  | .eventSubscribe _ => some eventSubscribeCmd
  | .eventAck _ => some eventAckCmd
  | .eventQuery _ => some eventQueryCmd
  | .sweepStatusGet _ => some sweepStatusGetCmd
  | .drillSegmentLoad _ => some drillSegmentLoadCmd
  | .drillConfig _ => some drillConfigCmd
  | .drillControl _ => some drillControlCmd
  | .drillStatusGet _ => some drillStatusGetCmd
  | .probeConfig _ => some probeConfigCmd
  | .probeProfileLoad _ => some probeProfileLoadCmd
  | .probeStatusGet _ => some probeStatusGetCmd
  | .loopbackSet _ => some loopbackSetCmd
  | .selfTestRun _ => some selfTestRunCmd
  | .testResultGet _ => some testResultGetCmd
  | .unitIsolate _ => some unitIsolateCmd
  | .testSourceConfig _ => some testSourceConfigCmd
  | .powerStatusGet _ => some powerStatusGetCmd
  | .housekeepingConfig _ => some housekeepingConfigCmd
  | .housekeepingGet _ => some housekeepingGetCmd
  | .operatingStateSet _ => some operatingStateSetCmd
  | .powerFailReportGet _ => some powerFailReportGetCmd
  | .firmwareLoad _ => some firmwareLoadCmd
  | .firmwareActivate _ => some firmwareActivateCmd
  | .moduleReset _ => some moduleResetCmd
  | _ => none

end Sys2Proof.Machine
end

