-- ==== Sys2Proof/Machine/Commit.lean ====
section
/-! DEFINITION. The commit (R26 to R40, R190, R191, R471 to R489, R505, R506, R583): how the stages of a second are validated and applied,
and the rows of a commit step: window, arming, switch, record, domain decisions. -/

namespace Sys2Proof.Machine

/-! ## Stages -/

/-- A stage of a commit step: tenant, sequence of its COMMIT_AT, journal entry, staged commands. -/
abbrev Stage := Fin 256 × U32 × Nat × List Instr

def stageTenant (g : Stage) : Nat := g.1.val
def stageEntry (g : Stage) : Nat := g.2.2.1
def stageCmds (g : Stage) : List Instr := g.2.2.2

/-- R32: the commands that change the tenant table. -/
def isTable : Instr → Bool
  | .tenantConfig _ | .channelAssign _ | .pageGrant _ | .engineAssign _ | .routeAssign _ | .tiConfig _ => true
  | _ => false

/-- R583: the commands that apply after the isolations of their stage. -/
def isTest : Instr → Bool
  | .loopbackSet _ | .testSourceConfig _ => true
  | _ => false

/-- R83: LEAP_SCHEDULE is judged by the label S will have, whichever command of its stage sets it. -/
def isLeap : Instr → Bool
  | .leapSchedule _ => true
  | _ => false

/-- R30: the fields that later commands of its opcode set. -/
def laterKeys (k : Cmd) (i : Instr) (later : List Instr) : List Nat :=
  (later.filter fun j => opcodeOf j == opcodeOf i).flatMap fun j => k.keys (payloadOf j)

/-- R30: one staged command at S, without the fields that `later` commands of its stage set. -/
def State.applyOne (s : State) (i : Instr) (later : List Instr) : Except Status State :=
  match chapterCmd i, hostCommand i with
  | some c, some (_, f) => c.apply { f with payload := c.without f.payload ((laterKeys c i later).filter (c.keys f.payload).contains) } s
  | _, _ => .ok s

/-- Staged commands at S, in staging order. -/
def State.applyAll (s : State) : List Instr → Except Status State
  | [] => .ok s
  | i :: l => (s.applyOne i l).bind fun s => s.applyAll l

/-- R508: the page grants of a stage as (tenant, stook, count). -/
def grantsOf (l : List Instr) : List (Nat × Nat × Nat) :=
  l.filterMap fun i => match i with
    | .pageGrant f => some (p8 f.payload 0, p8 f.payload 1, p32 f.payload 4)
    | _ => none

/-- R282: the tenants a stage gives timing inputs to. -/
def receiversOf (l : List Instr) : List Nat :=
  (l.filterMap fun i => match i with
    | .tiConfig f => some (p8 f.payload 3)
    | _ => none).dedup

/-- What the commands of a stage ask of the state the whole stage leaves. -/
def State.finals (s : State) (l : List Instr) : Except Status Unit :=
  l.foldl (fun acc i => acc.bind fun _ =>
    match chapterCmd i, hostCommand i with
    | some c, some (_, f) => c.final f s
    | _, _ => .ok ()) (.ok ())

/-- The places (sheaf, node) of the channels and engines a command reconfigures; `after` is the state its stage leaves. An isolation
reconfigures nothing: it takes out of use. -/
def State.touches (s after : State) (i : Instr) : List (Nat × Nat) :=
  let chans (l : List Nat) : List (Nat × Nat) := l.map fun c => (sheafOf c, c % 8)
  let engs (l : List Nat) : List (Nat × Nat) := l.map fun e => (engineSheaf e, engineNode e)
  let group (x : State) (k : Nat) : List Nat := ((aget x.insts k).map (·.engines)).getD []
  let places (kind n : Nat) : List (Nat × Nat) :=
    if kind = 0 ∨ kind = 2 ∧ n < 128 then chans [n]
    else if kind = 3 then chans ((List.range 8).map (8 * n + ·)) ++ engs ((List.range 32).map (32 * n + ·))
    else []
  match i with
  | .channelConfig f | .comparatorConfig f | .calChannelConfig f | .captureConfig f | .reductionConfig f | .accumConfig f | .stampConfig f
  | .channelAssign f => chans (maskChannels f.payload)
  | .sliceSubstitute f => chans [p8 f.payload 0]
  | .engineAssign f => engs (assignEngines f.payload)
  | .engineRestore f => engs [p16 f.payload 0]
  | .reducerConfig f | .measureConfig f => engs (group s (p16 f.payload 0) ++ group after (p16 f.payload 0))
  | .unitIsolate f => if p8 f.payload 1 = 1 then places (p8 f.payload 0) (p16 f.payload 2) else []
  | .loopbackSet f => places (p8 f.payload 0) (p16 f.payload 2)
  | .testSourceConfig f => chans ((List.range 8).map (8 * p8 f.payload 0 + ·))
  | .triggerRouteConfig f => if p8 f.payload 1 ≤ 3 then chans [p8 f.payload 2] else []
  | _ => []

/-- R33, R40: no channel or engine a stage touches lies at a place that does not answer. -/
def State.confirmed (s after : State) (l : List Instr) (silent : Nat × Nat → Bool) : Bool :=
  l.all fun i => (s.touches after i).all fun p => !silent p

/-! ## Quotas and limits (R242, R432, R505, R506, R519, R520) -/

def ownedCount (n : Nat) (owner : Nat → Nat) (t : Nat) : Nat := ((List.range n).filter fun i => owner i == t).length

/-- R505, R506: one quota of a tenant. -/
def quotaHeld (before after held : Nat) : Except Status Unit :=
  if held ≤ after then .ok () else if after < before then .error .busy else .error .exhausted

/-- R505, R506: the quotas of every tenant in the table the Steward's stage leaves. -/
def State.quotas (before s : State) : Except Status Unit :=
  s.activeTenants.foldl (fun acc t => acc.bind fun _ => do
    let a := before.tenant t
    let b := s.tenant t
    quotaHeld a.channelMax b.channelMax (ownedCount 128 s.chanOwner t)
    quotaHeld a.engineMax b.engineMax (ownedCount 512 s.engineOwner t)
    quotaHeld a.pageMax b.pageMax (s.pagesTotal t)) (.ok ())

/-- R519, R520: the event depth of all tenants together. -/
def State.depthTotal (s : State) : Nat :=
  (s.activeTenants.map fun t => max (s.tenant t).eventDepth (s.tenant t).queue.length).sum

/-- R432, R505: the rates of running streams. -/
def State.streamRates (before s : State) (tenant : Nat) : Except Status Unit :=
  if ([0, 1].any fun p => decide (12000000000 < s.portRate p ∧ before.portRate p < s.portRate p)) then .error .exhausted
  else if (s.tenant tenant).streamMbps * 1000000 < s.tenantRate tenant ∧ before.tenantRate tenant < s.tenantRate tenant then .error .exhausted
  else .ok ()

/-- R205, R218: the channels of a tenant whose settings a stage makes disagree. -/
def State.disagrees (before s : State) (tenant : Nat) : Bool :=
  (List.range 128).any fun c => s.chanOwner c == tenant && !(s.chan c).agrees && (before.chan c).agrees

/-- What closes the validation of a stage: what its commands ask of the whole, rings and limits. -/
def State.closeStage (before s : State) (tenant : Nat) (l : List Instr) : Except Status State := do
  if !before.confirmed s l fun p => before.nodeOut p.2 then .error .degraded else .ok ()
  s.finals l
  if before.disagrees s tenant then .error .badParam else .ok ()
  let fitted ← (tenant :: (receiversOf l).filter (· != tenant)).foldl (fun acc t => acc.bind fun x => before.fitRings x t) (.ok s)
  if before.ratesFit fitted then .ok () else .error .exhausted
  before.streamRates fitted tenant
  if tenant = 0 then
    before.quotas fitted
    if 65536 < fitted.depthTotal then .error .exhausted else .ok ()
  else .ok ()
  .ok fitted

/-- R33: a tenant's stage, whole or not at all. -/
def State.applyStage (s : State) (tenant : Nat) (l : List Instr) : Except Status State := do
  let a ← s.applyAll (l.filter fun i => !isTest i)
  let b ← a.applyAll (l.filter isTest)
  s.closeStage b tenant l

/-- The management plane's stage. -/
def State.applyMgmts (s : State) (l : List MgmtChange) : State := s.each l State.applyMgmt

/-- R32: the Steward's stage with the management plane's between its table changes and the rest. -/
def State.applySteward (s : State) (mgmt : List MgmtChange) (l : List Instr) : Except Status State := do
  let a ← s.applyAll (l.filter isTable)
  let b ← a.grantPages (grantsOf l)
  let c ← (b.applyMgmts mgmt).applyAll (l.filter fun i => !isTable i && !isTest i && !isLeap i)
  let d ← c.applyAll (l.filter isLeap)
  let e ← d.applyAll (l.filter isTest)
  s.closeStage e 0 l

/-- R618: the Steward's stage names an operating state itself. -/
def namesState (l : List Instr) : Bool :=
  l.any fun i => match i with
    | .operatingStateSet f => p8 f.payload 0 != 255
    | _ => false

/-- R32, R33: every stage of a step in order, each against the state the earlier ones leave; the refused ones with their statuses. A stage
of a tenant the Steward deletes in the same step is passed over: the deletion ends its items. -/
def State.evalStep (s : State) (x : CommitStep) : State × List (Stage × Status) :=
  let s := s.modTime fun t => { t with irigStep := x.relabel && t.irigRequest }
  let mine := x.stages.find? fun g => g.1 == 0
  let first : State × List (Stage × Status) := match mine with
    | some g =>
      match s.applySteward x.mgmt (stageCmds g) with
      | .ok s => (s, [])
      | .error st => (s.applyMgmts x.mgmt, [(g, st)])
    | none => (s.applyMgmts x.mgmt, [])
  let named := (mine.map fun g => namesState (stageCmds g)).getD false
  let first := if x.autoService && !named then (first.1.enterService true, first.2) else first
  (x.stages.filter fun g => g.1 != 0).foldl (fun acc g =>
    if !(acc.1.tenant (stageTenant g)).active then acc
    else match acc.1.applyStage (stageTenant g) (stageCmds g) with
      | .ok s => (s, acc.2)
      | .error st => (acc.1, acc.2 ++ [(g, st)])) first

/-- The stages of a step that were not refused. -/
def keptStages (l : List Stage) (refused : List (Stage × Status)) : List Stage :=
  l.filter fun g => !refused.any fun r => r.1.1 == g.1

/-- R33, R484: a stage is refused: its entry and those of its runs are not started, its item is gone. -/
def State.refuseStage (s : State) (g : Stage) (st : Status) : State :=
  let s := (s.notStarted (stageEntry g) st 1).endRuns (stageTenant g) (stageCmds g) st 1
  s.modTenant (stageTenant g) fun t => { t with items := t.items.filter fun i => i.entry != stageEntry g }

/-! ## The window (R31, R190, R489) -/

/-- The state at the boundary that starts the next second, under the present labels, for validation. -/
def State.atNextSecond (s : State) : State :=
  let b := s.time.secStart + ticksPerSec
  { s with clock := b, time := { s.time with vtSec := s.time.vtSec + 1, secStart := b } }

/-- The pending commits for a second. -/
def State.commitsFor (s : State) (second : U48) (domain : Bool) : List Stage :=
  (List.range 256).flatMap fun t => (s.tenant t).items.filterMap fun i => match i with
    | .commit sec q j d _ l => if sec = second ∧ d = domain then some (ten t, q, j, l) else none
    | .scheduled _ _ _ _ => none

/-- The domain commit of a tenant for a second. -/
def State.domainOf (s : State) (tenant : Fin 256) (second : U48) : Option DomainCommit :=
  s.rachis.domains.find? fun d => d.tenant == tenant && d.second == second

/-- R190: a member has received go; the master has decided it. -/
def State.domainGo (s : State) (g : Stage) (second : U48) : Bool :=
  match s.domainOf g.1 second with
  | some d => if s.rachis.cfg.role = 1 then d.decision == some true else d.received == some true
  | none => false

/-- R190, R191: a domain stage without go is refused; one whose ready was answered by nothing is lost, and reported upstream. -/
def State.refuseDomain (s : State) (g : Stage) (second : U48) : State :=
  let lost : Bool := match s.domainOf g.1 second with
    | some d => d.sentReady && s.rachis.cfg.role != 1 && d.received.isNone
    | none => false
  let s := s.refuseStage g .degraded
  if lost then
    (s.raise 0x528 (w8 g.1.val ++ w8 0 ++ w48 second.toNat) [stageTenant g]).reportLoss
      { tenant := g.1, second, member := Fin.ofNat 32 s.rachis.modId.toNat }
  else s

/-- R489: with power-fail handling in progress, a step whose record falls within the hold-up. -/
def State.withinHoldup (s : State) : Bool :=
  s.power.opState != .powerFail || decide (s.time.secStart + ticksPerSec ≤ s.power.pfTick + ticksOfMs 58)

/-- R31 to R33: the stages of the next second are frozen and validated. -/
def effectPreparationWindowClose (s : State) : State :=
  if !s.power.culmUp || !s.power.started || s.time.outage || !s.withinHoldup || s.jr.step.isSome then s
  else
    let second := s.time.vtSec + 1
    let domain := s.commitsFor second true
    let stages := (List.range 256).flatMap fun t =>
      (s.commitsFor second false ++ domain.filter fun g => s.domainGo g second).filter fun g => stageTenant g == t
    let s := s.each (domain.filter fun g => !s.domainGo g second) fun s g => s.refuseDomain g second
    let (due, s) := s.dueHandovers second.toNat
    let mgmt := orderMgmt (s.cal.staged ++ due)
    let s := s.modCal fun k => { k with staged := [] }
    let x : CommitStep :=
      { second, stages, mgmt, autoService := s.power.autoService, armed := false, relabel := s.time.irigRequest }
    let refused := (s.atNextSecond.evalStep x).2
    let s := (s.each refused fun s r => s.refuseStage r.1 r.2).modPower fun p => { p with autoService := false }
    let left := keptStages stages refused
    if left.isEmpty && mgmt.isEmpty && !x.autoService && !x.relabel then s
    else s.modJr fun j => { j with step := some { x with stages := left } }

def execPreparationWindowClose (t : Nat) (s : State) : Host.Outcome State Fault Refusal :=
  .next (State.settle s (effectPreparationWindowClose (s.advance t)))

/-! ## Arming (R33, R614) -/

/-- A change of coefficients reaches a place that does not answer. -/
def MgmtChange.reaches (m : MgmtChange) (silent : Nat × Nat → Bool) : Bool :=
  match m.channel with
  | some c => silent (sheafOf c, c % 8)
  | none => false

/-- R33: the switch is armed; stages that touch what did not confirm are refused, all of them once the main domain has stopped. Of the
management plane's changes those that reach what did not confirm wait for the next step (DESIGN CHOICE, log entry 48). -/
def effectSwitchArm (silentNodes : Byte) (silentSheaves : U16) (s : State) : State :=
  match s.jr.step with
  | some x =>
    if x.armed then s
    else
      let silent (p : Nat × Nat) : Bool := !s.power.mainOn || silentNodes.getLsbD p.2 || silentSheaves.getLsbD p.1
      let after := (s.atNextSecond.evalStep x).1
      let ok (g : Stage) : Bool := s.power.mainOn && s.confirmed after (stageCmds g) silent
      let s := s.each (x.stages.filter fun g => !ok g) fun s g => s.refuseStage g .degraded
      let s := s.restageMgmt (x.mgmt.filter fun m => m.reaches silent)
      let left : CommitStep :=
        { x with stages := x.stages.filter ok, mgmt := x.mgmt.filter fun m => !m.reaches silent, autoService := x.autoService && s.power.mainOn
                 armed := true }
      s.modJr fun j => { j with step := if left.stages.isEmpty && left.mgmt.isEmpty && !left.autoService && !left.relabel then none else some left }
  | none => s

def execSwitchArm (t : Nat) (silentNodes : Byte) (silentSheaves : U16) (s : State) : Host.Outcome State Fault Refusal :=
  .next (State.settle s (effectSwitchArm silentNodes silentSheaves (s.advance t)))

/-! ## The switch (R34, R35, R38, R196, R521) -/

/-- What a tenant holds and its entry in the tenant table. -/
def State.holdings (s : State) (t : Nat) : List Nat × List Nat × List Nat × List Nat × List Nat × Bytes :=
  let owned (n : Nat) (owner : Nat → Nat) : List Nat := (List.range n).filter fun i => owner i == t
  (owned 128 s.chanOwner, owned 512 s.engineOwner, owned 32 s.routeOwner, owned 4 s.tiOwner, (List.range 8).map (s.pagesHeld t), s.tenantImage t)

/-- The tenants whose entry or holdings a step changed. -/
def State.changedTenants (before s : State) : List Nat :=
  (List.range 256).filter fun t => ((before.tenant t).active || (s.tenant t).active) && before.holdings t != s.holdings t

/-- R34: the generation of the step is live. -/
def State.newGeneration (s : State) : State :=
  s.modJr fun j => { j with generation := j.generation + 1, genLog := (s.time.secStart, j.generation + 1) :: j.genLog }

/-- R61: a label change is asked for at this boundary. -/
def State.relabels (s : State) : Bool := s.time.labelRequest.isSome || s.time.irigStep

/-- R61, R267: where the label changes, records and stamp streams end at the last sample before S. -/
def State.labelEnds (s : State) : State :=
  if !s.relabels then s
  else
    let s := s.each (List.range 128) fun s c => s.endRecords c 5
    s.each (List.range 132) fun s i => s.relabelStream i

/-- R34 to R36: the switch of a step at second S; what it raises waits for the commit record (R521). Where S takes another label the records
that begin at S begin under it. -/
def State.commitSwitch (s : State) (x : CommitStep) : State :=
  let prior := s.configNow
  let out := s.jr.outbox
  let before := (s.modJr fun j => { j with outbox := [] }).modTime fun t => { t with validated := true }
  let (after, refused) := before.evalStep x
  let after := after.modTime fun t => { t with validated := false }
  let stages := (keptStages x.stages refused).filter fun g => (after.tenant (stageTenant g)).active
  if stages.isEmpty && x.mgmt.isEmpty && !x.autoService && !after.time.irigStep then
    (s.each refused fun s r => s.refuseStage r.1 r.2).modJr fun j => { j with step := none }
  else
    let s := (after.each refused fun s r => s.refuseStage r.1 r.2).labelEnds.newGeneration.resumeDrains
    let s := if s.relabels then s else s.each (List.range 128) fun s c => s.beginRecords c (vtSecond s.time.vtSec)
    let s := s.dropFastPaths.testCheck
    let s := s.each (State.changedTenants before after) fun s t => s.raise 0x504 (w32 s.jr.generation.toNat) [t]
    let s := s.each (s.calAppliedEvents x.mgmt) fun s e => s.raise e.1 e.2
    s.modJr fun j =>
      { j with step := none, switched := some { x with stages }, awaiting := true, prior := some prior, outbox := out
               stepEvents := j.stepEvents ++ j.outbox.map fun o => { o with generation := j.generation } }

/-- R41, R55, R489: commits for a second that has begun and that no step holds are not started. -/
def State.failLeft (s : State) (second : U48) : State :=
  s.failItems .fault fun t i => i.isCommit && i.second == second && !s.inStep t i

/-! ## The commit record (R36, R488) -/

/-- R36, R145, R488: the record is written; the entries of the step are complete, its events enter the queues. A readback that waited is
executed by the caller. -/
def State.recordWritten (s : State) (x : CommitStep) : State :=
  let s := s.modJr fun j => { j with recGeneration := j.generation, recSecond := x.second, awaiting := false, switched := none, prior := none
                                     outbox := j.stepEvents ++ j.outbox, stepEvents := [] }
  let s := match x.labels with
    | some (old, new) => (s.noteEntry 0x0203 1 old).noteEntry 0x0203 1 new
    | none => s
  let s := s.each x.stages fun s g =>
    let s := s.modEntryKeep (stageEntry g) fun e => { e with state := 2, status := .done, remainder := 0, done := 1, generation := s.jr.generation }
    s.modTenant (stageTenant g) fun t => { t with items := t.items.filter fun i => i.entry != stageEntry g }
  let s := s.calLogWrite x.second x.mgmt
  if x.mgmt.any fun m => m.bit == 2 then s.completeRun else s

/-! ## Domain commits (R190) -/

/-- A message of a domain commit. -/
def State.domainMsg (s : State) (type : BitVec 4) (d : DomainCommit) : RachisMsg :=
  s.newMsg type (BitVec.ofNat 16 d.tenant.val) (vtSecond d.second) 0 0 0

def DomainCommit.is (a b : DomainCommit) : Bool := a.tenant == b.tenant && a.second == b.second

/-- R32, R190: a member validates a tenant's domain stage against the table as the Steward's stage for S leaves it, and votes; the master's
vote is its own. -/
def State.voteDomain (s : State) (second : U48) (d : DomainCommit) : State :=
  match (s.commitsFor second true).find? fun g => g.1 == d.tenant with
  | none => s
  | some g =>
    let steward := (s.commitsFor second false ++ s.commitsFor second true).filter fun x => x.1 == 0 && g.1 != 0
    let trial : CommitStep := { second, stages := steward ++ [g], mgmt := s.cal.staged, autoService := false, armed := false }
    let (after, refused) := s.atNextSecond.evalStep trial
    let ok := !(refused.any fun r => r.1.1 == g.1) && (after.tenant g.1.val).active
    let mark (f : DomainCommit → DomainCommit) (s : State) : State :=
      s.modRachis fun r => { r with domains := r.domains.map fun e => if e.is d then f e else e }
    let vote (e : DomainCommit) : DomainCommit :=
      if ok then { e with sentReady := true, ready := if s.rachis.cfg.role = 1 then setBit e.ready s.rachis.modId.toNat true else e.ready }
      else { e with refused := true }
    let s := mark vote s
    if s.rachis.cfg.role = 1 then s else s.sendUpstream (s.domainMsg (if ok then 3 else 4) d)

/-- R190: at S − 250 ms. -/
def effectDomainWindowClose (s : State) : State :=
  if !s.power.culmUp || !s.power.started then s
  else
    let second := s.time.vtSec + 1
    s.each (s.rachis.domains.filter fun d => d.second == second && !d.sentReady && !d.refused) fun s d => s.voteDomain second d

def execDomainWindowClose (t : Nat) (s : State) : Host.Outcome State Fault Refusal :=
  .next (State.settle s (effectDomainWindowClose (s.advance t)))

/-- R190: the master's decision, kept once made, is sent on every up port. -/
def effectDomainGoDecision (s : State) : State :=
  if !s.power.culmUp || s.rachis.cfg.role ≠ 1 then s
  else
    let second := s.time.vtSec + 1
    s.each (s.rachis.domains.filter fun d => d.second == second) fun s d =>
      let go : Bool := match d.decision with
        | some g => g
        | none => (d.mask &&& ~~~ d.ready) == 0 && !d.refused
      let s := s.modRachis fun r => { r with domains := r.domains.map fun e => if e.is d then { e with decision := some go } else e }
      s.sendAll (s.domainMsg (if go then 5 else 6) d)

def execDomainGoDecision (t : Nat) (s : State) : Host.Outcome State Fault Refusal :=
  .next (State.settle s (effectDomainGoDecision (s.advance t)))

end Sys2Proof.Machine
end

