-- ==== Sys2Proof/Machine/System.lean ====
section
/-! DEFINITION. The system and mailbox commands 0x0101 to 0x0109 (R470 to R498) and the table of every command. -/

namespace Sys2Proof.Machine

/-! ## Effect seconds (R473, R474, R476) -/

/-- R473: the VT second a target names. -/
def State.resolveTarget (s : State) (target : U32) : Nat := rebuild s.time.vtSec.toNat target.toNat 32

/-- R190, R474: the earliest second whose window for domain commits is open. -/
def State.earliestDomain (s : State) : Nat := s.time.vtSec.toNat + (if s.tickInSec < 468750000 then 1 else 2)

/-- R473, R474, R476: the second a command with a target or ASAP takes; late ones name the earliest that would do. -/
def State.effectSecond (s : State) (f : Frame) (earliest : Nat) : Except Reply Nat :=
  let sec := s.resolveTarget f.target
  if f.target = 0 then .ok earliest
  else if s.time.vtSec.toNat + 31622400 < sec then .error (badParam headerField)
  else if earliest ≤ sec then .ok sec
  else if asap f then .ok earliest
  else .error { status := .late, payload := w64 earliest }

/-- R472, R476: a new pending item of a tenant for a second: its entry, or the refusal. -/
def State.newItem (s : State) (f : Frame) (opcode sec : Nat) (mk : Nat → Pending) : Outcome :=
  if 16 ≤ (s.tenant f.tenant.val).items.length then .error (refuse .exhausted)
  else match s.newEntry (s.pendingEntry f.tenant.val f.seq opcode (BitVec.ofNat 48 sec)) with
    | some (j, s) =>
      .ok ({ status := .scheduled, payload := w64 sec, journal := some j }
        , s.modTenant f.tenant.val fun t => { t with items := t.items ++ [mk j] })
    | none => .error (refuse .exhausted)

/-! ## COMMIT_AT (R472, R474, R475, R478, R492) -/

/-- R475: a member mask names this module and the master. -/
def State.maskOk (s : State) (mask : U32) : Bool :=
  mask.getLsbD s.rachis.modId.toNat && (match if s.rachis.cfg.role = 1 then some s.rachis.modId else s.rachis.masterId with
    | some m => mask.getLsbD m.toNat
    | none => true)

/-- R475: a module that can take part in a domain commit: the master, or a follower whose upstream port is up and has told it the master. -/
def State.inDomain (s : State) : Bool :=
  s.rachis.cfg.role == 1 || (s.rachis.cfg.role == 2 && s.rachis.masterId.isSome && (match s.rachis.upstream with
    | some p => (s.rport p.val).state == .up
    | none => false))

/-- R478: a dry run judges the open stage against the live tables. -/
def State.judgeOpen (s : State) (f : Frame) : Except Reply Unit :=
  let l := (s.tenant f.tenant.val).stage
  let r := if f.tenant = 0 then s.applySteward [] l else s.applyStage f.tenant.val l
  match r with
  | .ok _ => .ok ()
  | .error .badParam => .error (badParam 0)
  | .error st => .error (refuse st)

def runCommitAt (f : Frame) (s : State) : Outcome := do
  let p := f.payload
  let domain := p8 p 0 == 1
  let t := s.tenant f.tenant.val
  require (!t.stage.isEmpty) (badParam 0)
  require (!domain || s.inDomain) (refuse .degraded)
  let sec ← s.effectSecond f (if domain then s.earliestDomain else s.earliestSecond)
  require (!t.items.any fun i => i.isCommit && i.second.toNat == sec) (refuse .busy)
  if dryRun f then s.judgeOpen f else .ok ()
  let mask := BitVec.ofNat 32 (p32 p 4)
  let (r, s) ← s.newItem f 0x0102 sec fun j => .commit (BitVec.ofNat 48 sec) f.seq j domain mask t.stage
  let s := s.modTenant f.tenant.val fun t => { t with stage := [] }
  let d : DomainCommit := { tenant := f.tenant, second := BitVec.ofNat 48 sec, mask }
  .ok (r, if domain then s.modRachis fun x => { x with domains := x.domains ++ [d] } else s)

def commitAtCmd : Cmd :=
  { kind := .schedules
    check := fun f s => do
      let p := f.payload
      layout p 8 [(0, decide (p8 p 0 ≤ 1)), (1, zeroAt p 1 3)
        , (4, if p8 p 0 = 0 then p32 p 4 == 0 else s.maskOk (BitVec.ofNat 32 (p32 p 4)))]
      require (!(p8 p 0 == 1 && (asap f || f.target == 0))) (badParam headerField)
    run := runCommitAt }

/-! ## COMMIT_CANCEL and STAGE_DISCARD (R471, R477, R493) -/

/-- R493: the items a COMMIT_CANCEL names. -/
def Tenant.named (t : Tenant) (p : Bytes) : List Pending :=
  t.items.filter fun i => i.second.toNat == p64 p 0 && (p8 p 8 == 0 || i.seq == BitVec.ofNat 32 (p32 p 12))

/-- R31, R190, R477: the window of an item is open. -/
def State.windowOpen (s : State) : Pending → Bool
  | .commit sec _ _ domain _ _ => decide ((if domain then s.earliestDomain else s.earliestSecond) ≤ sec.toNat)
  | .scheduled sec _ _ _ => decide (s.earliestSecond ≤ sec.toNat)

def runCommitCancel (f : Frame) (s : State) : Outcome :=
  let l := (s.tenant f.tenant.val).named f.payload
  if l.all s.windowOpen then
    let s := s.each l fun s i => s.endItem f.tenant.val .done 4 i
    let s := s.modTenant f.tenant.val fun t => { t with items := t.items.filter fun i => !l.contains i }
    let gone (d : DomainCommit) : Bool := d.tenant == f.tenant && l.any fun i => match i with
      | .commit sec _ _ domain _ _ => domain && sec == d.second
      | .scheduled _ _ _ _ => false
    .ok ({}, s.modRachis fun x => { x with domains := x.domains.filter fun d => !gone d })
  else .error (refuse .late)

def commitCancelCmd : Cmd :=
  { kind := .immediate
    check := fun f s => do
      let p := f.payload
      let t := s.tenant f.tenant.val
      let some_ := t.items.any fun i => i.second.toNat == p64 p 0
      layout p 16 [(0, decide (p64 p 0 < 2 ^ 48)), (8, decide (p8 p 8 ≤ 1)), (9, zeroAt p 9 3), (12, p8 p 8 == 1 || p32 p 12 == 0)]
      require (!(t.named p).isEmpty) (badParam (if some_ then 12 else 0))
    run := runCommitCancel }

def stageDiscardCmd : Cmd :=
  { kind := .immediate, check := noPayload
    run := fun f s =>
      let s := s.endRuns f.tenant.val (s.tenant f.tenant.val).stage .done 4
      .ok ({}, s.modTenant f.tenant.val fun t => { t with stage := [] }) }

/-! ## STAGE_GET (R494) -/

/-- R494: one staged command. -/
def stagedBytes (i : Instr) : Bytes :=
  let p := payloadOf i
  pad8 (w16 (opcodeOf i) ++ w16 p.length ++ w32 (seqOf i).toNat ++ p)

/-- R471: the bytes of staged payload. -/
def stageSize (l : List Instr) : Nat := (l.map fun i => (payloadOf i).length).sum

/-- Insert a number into a rising list. -/
def insertRising (n : Nat) : List Nat → List Nat
  | [] => [n]
  | a :: l => if n ≤ a then n :: a :: l else a :: insertRising n l

/-- R494: the effect seconds of the pending items, ascending. -/
def Tenant.seconds (t : Tenant) : List Nat := (t.items.map fun i => i.second.toNat).foldr insertRising []

def Tenant.stageBytes (t : Tenant) : Bytes :=
  w16 t.stage.length ++ w16 0 ++ w32 (stageSize t.stage) ++ ((t.seconds ++ List.replicate 16 0).take 16).flatMap w64
    ++ t.stage.flatMap stagedBytes

def stageGetCmd : Cmd :=
  { kind := .readback, rights := fun f _ => f.tenant == 0 || p8 f.payload 0 == f.tenant.val
    check := fun f _ => layout f.payload 4 [(1, zeroAt f.payload 1 3)]
    run := fun f s => answer (s.tenant (p8 f.payload 0)).stageBytes s }

/-! ## The journal (R487, R495, R496) -/

/-- R487: the newest entry of a tenant's command, in ring order, with its index. -/
def State.entryFor (s : State) (tenant : Nat) (seq : U32) : Option (Nat × JournalEntry) :=
  let l := s.jr.entries.filter fun e => e.2.tenant == ten tenant && e.2.seq == seq
  ((l.filter fun e => decide (s.jr.next ≤ e.1)) ++ l.filter fun e => decide (e.1 < s.jr.next)).getLast?

/-- R487: the entry built from a stored response. -/
def entryOfReplay (r : Response) : JournalEntry :=
  let base : JournalEntry := { seq := r.seq, tenant := r.tenant, state := 1, opcode := r.opcode, vtSecond := 0, status := r.status
                               remainder := 5, done := 0, total := 1, generation := r.generation }
  match r.status with
  | .done => { base with state := 2, remainder := 0, done := 1 }
  | .scheduled | .part => base
  | _ => { base with state := 0, remainder := 1 }

/-- R495: the response of JOURNAL_QUERY. -/
def journalAnswer (index source : Nat) (e : JournalEntry) (s : State) : Outcome :=
  answer (w16 index ++ w8 source ++ zeros 5 ++ e.bytes) s

/-- R487: the answer by sequence. Of a sequence that was not received, the entry's opcode, units_total and generation are not stated: free values. -/
def State.queryBySeq (s : State) (tenant : Nat) (seq : U32) : Outcome :=
  let t := s.tenant tenant
  match s.entryFor tenant seq, t.replay.find? fun r => r.resp.seq == seq with
  | some (i, e), _ => journalAnswer i 0 e s
  | none, some r => journalAnswer 0xFFFF 1 (entryOfReplay r.resp) s
  | none, none =>
    if modDiff seq t.nextSeq < 0 then .error (refuse .exhausted)
    else
      let (a, s) := s.free
      let (b, s) := s.free
      journalAnswer 0xFFFF 2 { seq, tenant := ten tenant, state := 0, opcode := a.setWidth 16, vtSecond := 0, status := .gap, remainder := 1
                               done := 0, total := (a >>> 16).setWidth 32, generation := b.setWidth 32 } s

def journalQueryCmd : Cmd :=
  { kind := .readback, startUp := true
    rights := fun f s =>
      let p := f.payload
      f.tenant == 0 || (if p8 p 0 = 1 then (match aget s.jr.entries (p32 p 4) with
        | some e => e.tenant == f.tenant
        | none => true) else p8 p 1 == f.tenant.val)
    check := fun f s =>
      let p := f.payload
      layout p 8 [(0, decide (p8 p 0 ≤ 1)), (2, zeroAt p 2 2)
        , (4, p8 p 0 == 0 || (decide (p32 p 4 < 4096) && (aget s.jr.entries (p32 p 4)).isSome))]
    run := fun f s =>
      let p := f.payload
      if p8 p 0 = 0 then s.queryBySeq (p8 p 1) (BitVec.ofNat 32 (p32 p 4))
      else match aget s.jr.entries (p32 p 4) with
        | some e => journalAnswer (p32 p 4) 0 e s
        | none => .error (badParam 4) }

/-- R496: one item of the list. -/
def journalItem (e : Nat × JournalEntry) : Bytes := w16 e.1 ++ zeros 6 ++ e.2.bytes

def State.journalPage (s : State) (p : Bytes) : Bytes :=
  let all := s.jr.entries.filter fun e => decide (p16 p 0 ≤ e.1) && (p8 p 4 == 255 || e.2.tenant == ten (p8 p 4))
  let l := all.take (p16 p 2)
  w16 (s.jr.nextFree.getD 0xFFFF) ++ w16 l.length ++ zeros 4 ++ l.flatMap journalItem

def journalListCmd : Cmd :=
  { kind := .readback, startUp := true
    rights := fun f _ => f.tenant == 0 || (p8 f.payload 4 == f.tenant.val && p8 f.payload 4 != 255)
    check := fun f _ => layout f.payload 8 [(0, decide (p16 f.payload 0 < 4096)), (2, inRange 1 (p16 f.payload 2) 64), (5, zeroAt f.payload 5 3)]
    run := fun f s => answer (s.journalPage f.payload) s }

/-! ## RESPONSE_REPLAY (R497) -/

/-- R497: the stored response of one number is sent again; whether it was held. -/
def State.replayOne (s : State) (f : Frame) (n : U32) : Bool × State :=
  match (s.tenant f.tenant.val).replay.find? fun e => e.respSeq == n with
  | some e => (true, s.resend f.src e)
  | none => (false, s)

/-- R497: a range of numbers, with how many were sent and how many are not held. -/
def State.replayRange (s : State) (f : Frame) (first : U32) : Nat → Nat × Nat × State
  | 0 => (0, 0, s)
  | n + 1 =>
    let r := s.replayOne f first
    let rest := r.2.replayRange f (first + 1) n
    if r.1 then (rest.1 + 1, rest.2.1, rest.2.2) else (rest.1, rest.2.1 + 1, rest.2.2)

def runResponseReplay (f : Frame) (s : State) : Outcome :=
  let first : U32 := BitVec.ofNat 32 (p32 f.payload 0)
  let left := (modDiff ((s.tenant f.tenant.val).respSeq - 1) first + 1).toNat
  let r := s.replayRange f first (min left (p16 f.payload 4))
  .ok ({ status := if r.2.1 = 0 then .done else .part, payload := w16 r.1 ++ w16 r.2.1 }, r.2.2)

def responseReplayCmd : Cmd :=
  { kind := .readback, startUp := true
    check := fun f s =>
      let p := f.payload
      layout p 8 [(0, decide (modDiff (BitVec.ofNat 32 (p32 p 0)) ((s.tenant f.tenant.val).respSeq - 1) ≤ 0)), (4, inRange 1 (p16 p 4) 256)
        , (6, zeroAt p 6 2)]
    run := runResponseReplay }

/-! ## Identity (R457, R498) -/

/-- R457: the two words of a port's MAC address. -/
def macWords (n : Nat) : Bytes := w32 ((Config.mac n).toNat % 2 ^ 32) ++ w32 ((Config.mac n).toNat / 2 ^ 32)

/-- R457: the 64 bytes of the identity block. -/
def State.identity (s : State) : Bytes :=
  w32 0x4B534D4C ++ w32 0x1020 ++ w32 Config.hwLevel.toNat ++ w64 Config.serial.toNat ++ w32 s.power.fw.activeVersion.toNat
    ++ w32 (1 + 256) ++ w32 s.rachis.modId.toNat ++ macWords 0 ++ macWords 1 ++ macWords 2 ++ w32 s.power.bootCount.toNat ++ w32 0

def identityGetCmd : Cmd :=
  { kind := .readback, startUp := true, check := noPayload, run := fun _ s => answer s.identity s }

/-! ## HELLO (R470, R491) -/

/-- R458: the header fields and payload of the bytes of a frame. -/
def parseFrame (t : Nat) (src : Source) (b : Bytes) : Frame :=
  { t, src, tenant := ten (p8 b 2), flags := BitVec.ofNat 4 (p8 b 3), seq := BitVec.ofNat 32 (p32 b 4), target := BitVec.ofNat 32 (p32 b 8)
    payload := part b 16 (p16 b 12) }

/-- The opcode and frame of a command that arrived in a frame, one with an unknown opcode among them. -/
def arrivedFrame : Instr → Option (Nat × Frame)
  | .badCommandFrame t src b => some (p16 b 0, parseFrame t src b)
  | c => hostCommand c

/-- R466, R470: every held command of a tenant is refused with ST_GAP and N. -/
def State.refuseHeld (s : State) (tenant : Nat) : State :=
  let t := s.tenant tenant
  let s := s.modTenant tenant fun t => { t with held := [] }
  s.each t.held fun s h =>
    match arrivedFrame h.cmd with
    | some (op, f) => s.answerUnsequenced op f { status := .gap, payload := w32 t.nextSeq.toNat }
    | none => s

/-- R491: HELLO's response payload. -/
def State.helloBytes (s : State) (n : Nat) : Bytes :=
  let t := s.tenant n
  let oldest := t.replay.head?
  w32 t.nextSeq.toNat ++ w32 (t.respSeq - 1).toNat ++ w32 t.lastPushed.toNat ++ w32 ((oldest.map fun e => e.resp.seq).getD t.nextSeq).toNat
    ++ w32 ((oldest.map fun e => e.respSeq).getD t.respSeq).toNat ++ w32 s.jr.recGeneration.toNat ++ w16 t.held.length
    ++ w8 t.items.length ++ w8 s.power.opState.code ++ w8 (boolNat t.culmRestarted + 2 * boolNat t.powerLost) ++ zeros 3
    ++ w64 s.time.vtSec.toNat ++ w32 s.power.bootCount.toNat ++ zeros 4

/-- R470, R491. -/
def State.hello (s : State) (f : Frame) : Outcome := do
  let p := f.payload
  require (!asap f && f.target == 0 && !wantsSnapshot f) (badParam headerField)
  layout p 8 [(0, decide (p8 p 0 < 4)), (1, zeroAt p 1 3), (4, (p8 p 0).testBit 1 || p32 p 4 == 0)]
  let n := f.tenant.val
  let s := if p8 p 0 = 0 then s else s.refuseHeld n
  let s := if (p8 p 0).testBit 1 then s.modTenant n fun t => { t with nextSeq := BitVec.ofNat 32 (p32 p 4), replay := [] } else s
  .ok ({ payload := s.helloBytes n }, s.modTenant n fun t => { t with culmRestarted := false, powerLost := false })

def helloCmd : Cmd :=
  { kind := .hello, startUp := true, check := fun _ _ => .ok (), run := fun f s => s.hello f }

/-! ## The table -/

/-- R499: what the constructor of a host command means to the acceptance. -/
def cmdOf : Instr → Option Cmd
  | .hello _ => some helloCmd
  | .commitAt _ => some commitAtCmd
  | .commitCancel _ => some commitCancelCmd
  | .stageDiscard _ => some stageDiscardCmd
  | .stageGet _ => some stageGetCmd
  | .journalQuery _ => some journalQueryCmd
  | .journalList _ => some journalListCmd
  | .responseReplay _ => some responseReplayCmd
  | .identityGet _ => some identityGetCmd
  | i => chapterCmd i

end Sys2Proof.Machine
end

