-- ==== Sys2Proof/Machine/Accept.lean ====
section
/-! DEFINITION. Acceptance (R463 to R469, R476, R478 to R481, R598, R600): from a frame to its response, the command ring (R455, R456), and
the rows that take in commands. -/

namespace Sys2Proof.Machine

/-! ## Staging (R30, R471) -/

/-- Whether later commands of its opcode set every field a staged command sets. -/
def superseded (c : Instr) (later : List Instr) : Bool :=
  match cmdOf c with
  | some k =>
    let mine := k.keys (payloadOf c)
    !mine.isEmpty && mine.all (laterKeys k c later).contains
  | none => false

/-- R30: a stage without the commands that are superseded. -/
def pruneStage : List Instr → List Instr
  | [] => []
  | c :: l => if superseded c l then pruneStage l else c :: pruneStage l

/-- R30, R471: a configuration command enters the open stage. -/
def State.stageCmd (s : State) (k : Cmd) (c : Instr) (f : Frame) : Outcome := do
  let (r, s) ← k.run f s
  let all := (s.tenant f.tenant.val).stage ++ [c]
  let left := pruneStage all
  require (decide (stageSize left ≤ 65536)) (refuse .exhausted)
  let s := s.endRuns f.tenant.val (all.filter fun i => !left.contains i) .done 4
  .ok (r, s.modTenant f.tenant.val fun t => { t with stage := left })

/-! ## Steps 6 to 10 of R463 -/

/-- R443, step 6: the opcode is known and allowed on the transport. -/
def onTransport (c : Instr) (f : Frame) : Bool :=
  match c with
  | .quench _ => f.src.via == .mgmt
  | _ => true

/-- R476, R481, step 8: flags and target suit the kind of the command. -/
def flagsOk (k : CmdKind) (f : Frame) : Bool :=
  if wantsSnapshot f then k == .readback && !asap f
  else k == .schedules || k == .schedulable || (!asap f && f.target == 0)

/-- R598: the commands that need a trained controller, a cassette, a network port or a locked root. -/
def needsRoot : Instr → Bool
  | .recordFetch _ | .archiveRead _ | .cassetteFormat _ | .cassetteEvacuate _ | .cassetteRetire _ | .timeAlign _ | .drillControl _
  | .rachisSend _ | .selfTestRun _ => true
  | _ => false

/-- R598, R600, step 10: the operating state. -/
def State.stateAllows (s : State) (k : Cmd) (c : Instr) : Except Reply Unit := do
  require (k.startUp || s.power.opState != .startUp) (refuse .notOwnerState)
  require (!(needsRoot c && s.power.lateLock && !s.time.locked)) (refuse .degraded)

/-- What executing a command of a kind does and answers. -/
def State.perform (s : State) (k : Cmd) (c : Instr) (op : Nat) (f : Frame) : Outcome :=
  match k.kind with
  | .staged => s.stageCmd k c f
  | .schedulable =>
    if f.target = 0 ∧ !asap f then k.run f s
    else do
      let sec ← s.effectSecond f s.earliestSecond
      s.newItem f op sec fun j => .scheduled (BitVec.ofNat 48 sec) f.seq j c
  | .readback => do
    require (!wantsSnapshot f || f.target == s.jr.recGeneration) (refuse .late)
    k.run f s
  | _ => k.run f s

/-- R463: steps 6 to 10. -/
def State.judge (s : State) (c : Instr) (op : Nat) (f : Frame) : Outcome :=
  match cmdOf c with
  | none => .error (refuse .badOpcode)
  | some k => do
    require (onTransport c f) (refuse .badOpcode)
    require ((!k.steward || f.tenant == 0) && k.rights f s) (refuse .noRights)
    require (flagsOk k.kind f) (badParam headerField)
    k.check f s
    s.stateAllows k c
    s.perform k c op f

def isReadback (c : Instr) : Bool := ((cmdOf c).map fun k => k.kind == .readback).getD false

/-- R478: a dry run answers without a journal index, a readback without payload. -/
def dryReply (c : Instr) (r : Reply) : Reply := { r with journal := none, payload := if isReadback c then [] else r.payload }

/-- R463, R467, R469: a command whose turn has come consumes its sequence, is judged and answered. -/
def State.execNext (s : State) (c : Instr) (op : Nat) (f : Frame) : State :=
  let s := s.modTenant f.tenant.val fun t => { t with nextSeq := t.nextSeq + 1 }
  let crc := crc32c (frameBytes op f)
  let s := match s.judge c op f with
    | .error r => s.respond op f crc (isReadback c) r
    | .ok (r, s') => if dryRun f then s.respond op f crc (isReadback c) (dryReply c r) else s'.respond op f crc (isReadback c) r
  s.pendingRestart

/-! ## Sequences (R464 to R466, R479) -/

/-- R479: a readback must wait for the commit record. -/
def State.mustWait (s : State) (c : Instr) : Bool := s.jr.awaiting && isReadback c

/-- The command that waits for the record has the sequence of this frame. -/
def State.alreadyWaiting (s : State) (f : Frame) : Bool :=
  s.jr.waiting.any fun w => match arrivedFrame w with
    | some (_, g) => g.tenant == f.tenant && g.seq == f.seq
    | none => false

/-- Execute a command whose turn has come, or let it wait for the commit record; whether it was executed. -/
def State.takeTurn (s : State) (c : Instr) (op : Nat) (f : Frame) : Bool × State :=
  if s.mustWait c then (false, if s.alreadyWaiting f then s else s.modJr fun j => { j with waiting := j.waiting ++ [c] })
  else (true, s.execNext c op f)

/-- R466: held commands execute in sequence order as their turn comes. -/
def State.runHeld (s : State) (tenant : Nat) : Nat → State
  | 0 => s
  | fuel + 1 =>
    let t := s.tenant tenant
    match t.held.find? fun h => (arrivedFrame h.cmd).map (·.2.seq) == some t.nextSeq with
    | none => s
    | some h =>
      let s := s.modTenant tenant fun t => { t with held := t.held.filter (· != h) }
      match arrivedFrame h.cmd with
      | some (op, f) =>
        let (done, s) := s.takeTurn h.cmd op f
        if done then s.runHeld tenant fuel else s
      | none => s

/-- R465: a sequence that was executed. -/
def State.duplicate (s : State) (op : Nat) (f : Frame) : State :=
  match (s.tenant f.tenant.val).replay.filter fun e => e.resp.seq == f.seq with
  | [] => s.answerUnsequenced op f { status := .duplicate, detail := 1 }
  | e :: l =>
    if e.cmdCrc = crc32c (frameBytes op f) then s.each (e :: l) fun s e => s.resend f.src e
    else s.answerUnsequenced op f { status := .duplicate, detail := 2 }

/-- R464 to R466: step 5. -/
def State.sequence (s : State) (c : Instr) (op : Nat) (f : Frame) : State :=
  let t := s.tenant f.tenant.val
  let u := (f.seq - t.nextSeq).toNat
  if u = 0 then
    let (done, s) := s.takeTurn c op f
    if done then s.runHeld f.tenant.val 64 else s
  else if u ≤ 64 then
    if t.held.any fun h => (arrivedFrame h.cmd).map (·.2.seq) == some f.seq then s
    else s.modTenant f.tenant.val fun t => { t with held := t.held ++ [{ cmd := c, crc := crc32c (frameBytes op f), since := s.clock }] }
  else if u ≤ 0x80000000 then s.answerUnsequenced op f { status := .gap, payload := w32 t.nextSeq.toNat }
  else s.duplicate op f

/-! ## Steps 2 to 5 of R463 -/

/-- R462, R470: HELLO's response. -/
def State.answerHello (s : State) (f : Frame) (r : Reply) : State :=
  s.sendOut f.src ({ s.responseTo 0x0101 f r with unsequenced := true }.bytes 0 false 0)

/-- R470, R478: HELLO. -/
def State.acceptHello (s : State) (f : Frame) : State :=
  match s.hello f with
  | .error r => s.answerHello f r
  | .ok (r, s') => if dryRun f then s.answerHello f { r with payload := [] } else s'.answerHello f r

/-- R463: from step 2 on. -/
def State.accept (s : State) (c : Instr) (op : Nat) (f : Frame) : State :=
  if 8192 < f.payload.length then s.answerUnsequenced op f (refuse .badFrame)
  else if !s.admits f.tenant.val f.src then s.answerUnsequenced op f (refuse .noRights)
  else match c with
    | .hello _ => s.acceptHello f
    | c => s.sequence c op f

/-! ## Arrival (R41, R451, R582, R598) -/

/-- Whether a frame from a source is received at all. -/
def State.receives (s : State) (src : Source) : Bool :=
  s.power.culmUp && s.power.opState != .powerFail
    && (src.via == .service
      || (s.time.lockCount != 0 && !(s.port (portOf src.via)).isolated && !(decide (portOf src.via < 2) && s.looped 9 (portOf src.via))))

/-- R424: a frame is counted on its port. -/
def State.countFrame (s : State) (src : Source) : State :=
  if src.via = .service then s else s.modPort (portOf src.via) fun p => { p with rxFrames := p.rxFrames + 1 }

/-- R455: a command on the service port waits while a response waits for room. -/
def State.mustQueue (s : State) (src : Source) : Bool := src.via == .service && (s.rings.cmdStalled || !s.rings.cmdWaiting.isEmpty)

def State.queueCmd (s : State) (c : Instr) : State := s.modRings fun r => { r with cmdWaiting := r.cmdWaiting ++ [c] }

/-- R463: a command arrives in a frame that has passed its CRC and framing. -/
def State.arrive (s : State) (c : Instr) (f : Frame) : State :=
  if !s.receives f.src then s
  else
    let s := s.countFrame f.src
    if s.mustQueue f.src then s.queueCmd c else s.accept c (opcodeOf c) f

/-- What a host command does to the block. -/
def State.host (s : State) (c : Instr) (f : Frame) : State := State.settle s ((s.advance f.t).arrive c f)

/-! ## Raw frames (R456, R458, R459, R463) -/

/-- R459, step 1: the CRC of the bytes of a frame stands in its last four (log entry 28). -/
def frameCrcOk (b : Bytes) : Bool :=
  let n := b.length - 4
  decide (20 ≤ b.length) && crc32c (b.take n) == BitVec.ofNat 32 (p32 b n)

/-- R458, step 2: the framing of bytes whose CRC holds. -/
def framingOk (b : Bytes) : Bool :=
  b.length == 20 + p16 b 12 && decide (p16 b 12 ≤ 8192) && p16 b 14 == 0 && decide (p8 b 3 < 16)

/-- R463: the bytes of a frame, from step 1 on. -/
def State.takeBytes (s : State) (t : Nat) (src : Source) (b : Bytes) : State :=
  let f := parseFrame t src b
  let op := p16 b 0
  if !frameCrcOk b then
    (if src.via = .service then s.modRings fun r => { r with cmdFrameError := true }
     else s.modPort (portOf src.via) fun p => { p with rxDiscarded := p.rxDiscarded + 1 })
  else if !framingOk b then s.answerUnsequenced op f (refuse .badFrame)
  else match ofOpcode op f with
    | some c => s.accept c op f
    | none => s.accept (.badCommandFrame t src b) op f

/-- R463: a frame arrives as bytes. -/
def effectBadCommandFrame (t : Nat) (src : Source) (b : Bytes) (s : State) : State :=
  if !s.receives src then s
  else
    let s := s.countFrame src
    if s.mustQueue src then s.queueCmd (.badCommandFrame t src b) else s.takeBytes t src b

def execBadCommandFrame (t : Nat) (src : Source) (bytes : Bytes) (s : State) : Host.Outcome State Fault Refusal :=
  .next (State.settle s (effectBadCommandFrame t src bytes (s.advance t)))

/-- R466: a command held for 1,000 ms whose gap is still open. -/
def effectHeldCommandTimeout (tenant : Fin 256) (s : State) : State :=
  let t := s.tenant tenant.val
  let turn : Bool := s.jr.waiting.any fun w => (arrivedFrame w).map (·.2.tenant) == some tenant
  if s.power.culmUp && !turn && t.held.any fun h => decide (h.since + ticksOfMs 1000 ≤ s.clock) then s.refuseHeld tenant.val else s

def execHeldCommandTimeout (t : Nat) (tenant : Fin 256) (s : State) : Host.Outcome State Fault Refusal :=
  .next (State.settle s (effectHeldCommandTimeout tenant (s.advance t)))

/-! ## The command ring (R455, R456) -/

/-- Hand over what waits, so that the next command finds the rings as they are. -/
def State.flushOut (s : State) : State := s.deliverAll.modRings Rings.settle

/-- R456: what is left in the ring is discarded. -/
def Rings.discardRest (r : Rings) : Rings := { r with cmdCons := r.cmdProd, cmdFrameError := true }

/-- R455, R456: take the frames of the ring in turn. -/
def State.intake (s : State) : Nat → State
  | 0 => s
  | fuel + 1 =>
    let r := s.rings
    let avail := ringUsed r.cmdProd r.cmdCons
    let at_ := r.cmdCons.toNat % 16384
    let len := 20 + leNat (ringRead r.ram cmdBase (at_ + 12) 2)
    let padded := (len + 7) / 8 * 8
    if r.cmdStalled || avail == 0 then s
    else if avail < 24 ∨ avail < padded then s.modRings Rings.discardRest
    else
      let s := s.modRings fun r => { r with cmdCons := r.cmdCons + BitVec.ofNat 15 padded }
      ((s.takeBytes s.clock { via := .service } (ringRead r.ram cmdBase at_ len)).flushOut).intake fuel

/-- Take the commands that waited for room, then the ring. -/
def State.takeWaiting (s : State) : Nat → State
  | 0 => s
  | fuel + 1 =>
    match s.rings.cmdWaiting with
    | [] => s
    | c :: l =>
      if s.rings.cmdStalled then s
      else
        let s := s.modRings fun r => { r with cmdWaiting := l }
        let s := match c with
          | .badCommandFrame t src b => s.takeBytes t src b
          | c => match hostCommand c with
            | some (op, f) => s.accept c op f
            | none => s
        (s.flushOut).takeWaiting fuel

/-- R455: the module looks at CMD_PROD. -/
def State.serveRing (s : State) : State :=
  if !s.receives { via := .service } then s
  else
    let s := s.flushOut
    (s.takeWaiting s.rings.cmdWaiting.length).intake 1366

def execCmdDoorbell (t : Nat) (s : State) : Host.Outcome State Fault Refusal := .next (State.settle s (s.advance t).serveRing)

def execCmdRingPoll (t : Nat) (s : State) : Host.Outcome State Fault Refusal := .next (State.settle s (s.advance t).serveRing)

/-- R455: the host has freed space in the response ring. -/
def execResponseRingRoom (t : Nat) (s : State) : Host.Outcome State Fault Refusal := .next (State.settle s (s.advance t).serveRing)

/-! ## The commit record (R36, R479, R488) -/

/-- R479: the readbacks that waited are executed under the new generation. -/
def State.serveWaiting (s : State) : State :=
  (s.modJr fun j => { j with waiting := [] }).each s.jr.waiting fun s c =>
    match arrivedFrame c with
    | some (op, f) => s.sequence c op f
    | none => s

def effectCommitRecordWrite (s : State) : State :=
  match s.jr.switched with
  | some x => if s.jr.awaiting && s.power.culmUp then (s.recordWritten x).serveWaiting else s
  | none => s

def execCommitRecordWrite (t : Nat) (s : State) : Host.Outcome State Fault Refusal :=
  .next (State.settle s (effectCommitRecordWrite (s.advance t)))

end Sys2Proof.Machine
end

