-- ==== Sys2Proof/Machine/Boundary.lean ====
section
/-! DEFINITION. The start of a VT second (R35): what happens at the boundary, in its order: the second that ends is closed, the commit switch,
a label change, what starts at S, the commands scheduled for S. -/

namespace Sys2Proof.Machine

/-! ## The second that ends (R95, R97, R240, R439) -/

/-- R97, R121: the OVR count of the second of every channel; a channel not listed has none. -/
def State.overrange (s : State) (l : List (Fin 128 × U32)) : State :=
  let find (c : Nat) : U32 := ((l.find? fun e => e.1.val == c).map fun e => e.2).getD 0
  let s := { s with chans := vmodAll s.chans fun c x => { x with ovrLast := find c } }
  s.each (List.range 128) fun s c => if find c = 0 then s else s.raise (chanEvent c 1) (w32 (find c).toNat)

/-- What the second that ends leaves: status frames, overrange events, the Drill run up to now, the gates that end at S. -/
def State.closeSecond (s : State) (ended : U48) (t0 : Nat) (ovr : List (Fin 128 × U32)) : State :=
  ((s.overrange ovr).each (List.range 128) fun s i => s.streamSecond ended t0 i).drillUpTo.closeGates

/-! ## Labels (R61) -/

/-- R61: a step of the labels by `d` seconds moves the reckonings that run on across S: what is compared with a later tag. -/
def State.shiftTags (s : State) (d : Int) : State :=
  let sh (v : Vt96) : Vt96 := vtAdd v (d * 2 ^ 48)
  let s := s.modTime fun t => t.moveEdges (d * 2 ^ 48)
  let lane (x : Lane) : Lane := { x with busyFrom := x.busyFrom.map sh, converting := x.converting.map fun e => (e.1, sh e.2) }
  let goesOn (x : StampSource) : Bool := x.armed && x.state == 3 && !x.startAtBoundary
  let s := { s with sources := vmodAll s.sources fun _ x =>
    { x with lanes := vmodAll x.lanes fun _ y => lane y, lastEdge := x.lastEdge.map sh, completeTo := if goesOn x then sh x.completeTo else x.completeTo
             haltedAt := if goesOn x then sh x.haltedAt else x.haltedAt } }
  let s := { s with trigIns := vmodAll s.trigIns fun _ x => { x with lastStamp := x.lastStamp.map sh } }
  let s := { s with trigOuts := vmodAll s.trigOuts fun _ x => { x with edgeAt := x.edgeAt.map fun (e : Vt96 × Descriptor) => (sh e.1, { e.2 with tag := sh e.2.tag }) } }
  let s := { s with routes := vmodAll s.routes fun _ x => { x with lastTag := x.lastTag.map sh, oldUntil := x.oldUntil.map sh, oldTag := x.oldTag.map sh } }
  s.each (List.range 128) fun s c =>
    let first := s.firstSampleAt c s.now
    s.modChan c fun x => { x with before := none, since := first, passedFrom := x.passedFrom.map fun p => (p.1, sh p.2) }

/-- R61, R275: what instances have open stands under the label that ends, and goes on from S under the new one. -/
def State.relabelInstances (s : State) (old new : Nat) : State :=
  let d : Int := (new : Int) - old
  let move (c : GateCursor) : GateCursor := { c with shift := c.shift + d }
  let go (x : Instance) : Instance :=
    if x.cursor.stop.isSome then { x with cursor := move x.cursor, old := x.old.map move }
    else
      let fresh := decide (x.startTick = s.time.secStart) && !x.cursor.partialRest
      ({ x with cursor := (if fresh then GateCursor.begin else GateCursor.goOn) x s.time.labelChanges new
                old := (x.old ++ [x.cursor.endAt old s.time.secStart]).map move } : Instance).trim
  { s with insts := s.insts.map fun e => (e.1, go e.2) }

/-- R61: items of the seconds the new labels skip are not started. -/
def State.skipItems (s : State) (old new : Nat) : State :=
  s.failItems .fault fun t i =>
    decide (old < i.second.toNat ∧ i.second.toNat < new) || (i.isCommit && i.second.toNat == new && decide (old < new) && !s.inStep t i)

/-- An event of the present commit step waits for its record (R521); without one it is raised now. -/
def State.raiseStep (s : State) (id : Nat) (p : Bytes) : State :=
  if !s.jr.awaiting then s.raise id p
  else
    let out := s.jr.outbox
    let s := (s.modJr fun j => { j with outbox := [] }).raise id p
    s.modJr fun j => { j with outbox := out, stepEvents := j.stepEvents ++ j.outbox }

/-- R61, R69, R81: the second that starts takes a new label. It stays valid when the IRIG it came from does not: R74 names where the label
comes from (DEDUCED, log entry 43). The old and new label are journalled with the record of the step (R61). -/
def State.relabel (s : State) : State :=
  if !s.relabels then s
  else
    let s := s.each (List.range 8) State.foldPhase
    let old := s.time.vtSec
    let new : U48 := s.time.labelRequest.getD (BitVec.ofInt 48 ((old.toNat : Int) + s.time.irigDelta))
    let d : Int := (new.toNat : Int) - old.toNat
    let source : BitVec 2 := if s.time.labelRequest.isSome then 2 else 1
    let s := s.modTime fun t =>
      { t with vtSec := new, labelChanges := t.labelChanges + 1, labelValid := true, labelSource := source, irigDelta := t.irigDelta - d, labelRequest := none, irigRequest := false
               irigStep := false }
    let s := (s.shiftTags d).skipItems old.toNat new.toNat
    let s := s.relabelInstances (vtNat (vtSecond old)) (vtNat (vtSecond new))
    let s := s.modCal fun k => { k with run := k.run.map fun r => if !r.active && r.start == old then { r with start := new } else r }
    let s := if 0 < d then s.each (List.range 32) fun s r => s.skipInstants r (vtOfNat (vtNat (vtSecond new) - 1)) else s
    let s := s.each (List.range 128) fun s c => s.beginRecords c (vtSecond new)
    let s := s.modJr fun j =>
      { j with switched := j.switched.map fun x => { x with labels := some (old, new) }, prior := j.prior.map fun p => { p with labelShift := d } }
    s.raiseStep 0x517 (w48 old.toNat)

/-! ## What starts at S -/

/-- R55, R267: a stamp stream that stopped without being disarmed goes on at this boundary, its ring kept. -/
def State.resumeStream (s : State) (i : Nat) : State :=
  let x := s.source i
  if x.armed && !x.running && !x.startAtBoundary && x.state == 3 && s.sourceOn i && s.stookUp (sourceStook i) then
    s.modSource i fun x => { x with running := true, state := 1, lostThis := false, streamFrom := vtSecond s.time.vtSec }
  else s

/-- R55, R173: acquisition resumes after an outage of the root. -/
def State.resumeAcquisition (s : State) : State :=
  if !s.time.resumeAtBoundary then s
  else
    let s := s.modTime fun t => { t with resumeAtBoundary := false }
    if s.power.opState ≠ .service then s
    else
      (s.rearmRoutes false).each (List.range 128) fun s c =>
        let first := s.firstSampleAt c s.now
        (s.modChan c fun x => { x with before := none, since := first }).beginRecords c (vtSecond s.time.vtSec)

/-- R145: a run whose results are none, or have been applied without a step of their own, is complete at its application second. -/
def State.closeRun (s : State) : State :=
  match s.cal.run with
  | some r =>
    let left := (s.cal.staged ++ (s.jr.switched.map (·.mgmt)).getD []).any fun m => m.bit == 2
    if r.active && r.measured && !left && decide (r.start.toNat + s.cal.cfg.runWindow + 1 ≤ s.time.vtSec.toNat) then s.completeRun else s
  | none => s

/-- R382, R245: the span records of jobs whose span begins take their record_ids. -/
def State.beginSpans (s : State) : State :=
  s.each (s.granary.jobs.map (·.1)) fun s k =>
    match s.job k with
    | some j =>
      if (j.inputKind = 3 ∨ j.inputKind = 4) ∧ s.time.vtSec.toNat % max j.spanS 1 = 0 then
        match s.takeRecordId with
        | some (id, s) => s.modJob k fun j => { j with spans := j.spans ++ [(s.time.vtSec.toNat, id)] }
        | none => s
      else s
    | none => s

/-- What the model no longer needs: lost edges before every open gate, domain commits long past. -/
def State.prune (s : State) : State :=
  let old (v : Vt96) : Bool := decide (v.sec.toNat + 2000 < s.time.vtSec.toNat)
  let trim (x : StampSource) : StampSource :=
    { x with lostEdges := x.lostEdges.filter fun e => !old e.2, stops := x.stops.filter fun e => !old (vtOfNat e.2.2) }
  let s := { s with sources := vmodAll s.sources fun _ x => trim x }
  s.modRachis fun r => { r with domains := r.domains.filter fun d => decide (s.time.vtSec.toNat < d.second.toNat + 10) }

/-! ## Scheduled commands (R476) -/

/-- Insert an item by its command sequence. -/
def insertBySeq (i : Pending) : List Pending → List Pending
  | [] => [i]
  | a :: l => if i.seq.toNat ≤ a.seq.toNat then i :: a :: l else a :: insertBySeq i l

/-- R476: one scheduled command takes effect at S, or is refused by the live state. -/
def State.runScheduled (s : State) (t : Nat) (entry : Nat) (c : Instr) : State :=
  let drop (s : State) : State := s.modTenant t fun x => { x with items := x.items.filter fun i => i.entry != entry }
  let refused (r : Reply) : State := drop (s.notStarted entry r.status 1)
  match cmdOf c, hostCommand c with
  | some k, some (_, f) =>
    let out : Outcome := do
      require s.power.mainOn (refuse .degraded)
      require (k.rights f s) (refuse .noRights)
      k.check f s
      k.run f s
    match out with
    | .ok (_, s') =>
      drop (s'.modEntryKeep entry fun e => { e with state := 2, status := .done, remainder := 0, done := 1, generation := s'.jr.generation })
    | .error r => refused r
  | _, _ => s

/-- R476: the commands scheduled for the second that starts, under either of its labels. -/
def State.runSchedule (s : State) (old : U48) : State :=
  if !s.power.culmUp then s
  else
    s.each (List.range 256) fun s t =>
      let due := (s.tenant t).items.filter fun i => !i.isCommit && (i.second == old || i.second == s.time.vtSec)
      s.each (due.foldr insertBySeq []) fun s i => match i with
        | .scheduled _ _ j c => s.runScheduled t j c
        | .commit .. => s

/-! ## The boundary -/

/-- R31 to R36: the commit at second S: the switch where it was armed; what remains of S is not started. -/
def State.commitAtBoundary (s : State) (second : U48) : State :=
  let s := match s.jr.step with
    | some x =>
      if x.armed && x.second == second && !s.time.outage then s.commitSwitch x
      else
        ((s.each x.stages fun s g => s.refuseStage g (if x.armed then .fault else .degraded)).restageMgmt x.mgmt).modJr fun j => { j with step := none }
    | none => s
  if s.power.culmUp then s.failLeft second else s

/-- R181: a follower in service whose upstream link is up. -/
def State.follows (s : State) : Bool :=
  s.rachis.cfg.role == 2 && s.hasReference && s.power.opState == .service && s.time.locked && !s.time.holdover

/-- What starts at S on the data plane. -/
def State.startSecond (s : State) : State :=
  let s := s.resumeAcquisition.tillerNow
  let s := { s with chans := vmodAll s.chans fun _ x => { x with pairFrozen := false } }
  let s := if s.time.outage then s else s.each (List.range 132) State.resumeStream
  let s := s.startRun.closeRun
  let s := (s.modTime fun t => t.boundarySlew s.follows).boundaryAlign
  if s.time.outage then s else s.each (List.range 132) State.boundaryMarker

/-- Data-plane work that goes on at a boundary. -/
def State.serveSecond (s : State) : State :=
  ((s.sendTime.each (s.insts.map (·.1)) State.serveInstance).beginSpans.serveArchive).prune

/-- R35: the tick that starts a VT second. -/
def effectVtSecondBoundary (ovr : List (Fin 128 × U32)) (s : State) : State :=
  if !s.power.released then s
  else
    let t0 := s.time.secStart
    let ended := s.time.vtSec
    let b := t0 + ticksPerSec
    let held := if s.time.holdover then satInc s.time.holdoverSeconds else s.time.holdoverSeconds
    let s := { s with clock := max s.clock b, time := { s.time with vtSec := ended + 1, secStart := b, holdoverSeconds := held } }
    let s := s.closeSecond ended t0 ovr
    let s := (s.commitAtBoundary (ended + 1)).relabel
    let s := (s.startSecond).runSchedule (ended + 1)
    if s.power.mainOn then s.serveSecond else s

def execVtSecondBoundary (ovr : List (Fin 128 × U32)) (s : State) : Host.Outcome State Fault Refusal :=
  .next (State.settle s (effectVtSecondBoundary ovr s))

end Sys2Proof.Machine
end

