-- ==== Sys2Proof/Machine/Frames.lean ====
section
/-! DEFINITION. The commands that arrive in a frame: each is accepted under R463 and answered (R462), and then the block settles. -/

namespace Sys2Proof.Machine

/-- R470. -/
def execHello (f : Frame) (s : State) : Host.Outcome State Fault Refusal := .next (s.host (.hello f) f)

/-- R472. -/
def execCommitAt (f : Frame) (s : State) : Host.Outcome State Fault Refusal := .next (s.host (.commitAt f) f)

/-- R477. -/
def execCommitCancel (f : Frame) (s : State) : Host.Outcome State Fault Refusal := .next (s.host (.commitCancel f) f)

/-- R471. -/
def execStageDiscard (f : Frame) (s : State) : Host.Outcome State Fault Refusal := .next (s.host (.stageDiscard f) f)

/-- R494. -/
def execStageGet (f : Frame) (s : State) : Host.Outcome State Fault Refusal := .next (s.host (.stageGet f) f)

/-- R487. -/
def execJournalQuery (f : Frame) (s : State) : Host.Outcome State Fault Refusal := .next (s.host (.journalQuery f) f)

/-- R496. -/
def execJournalList (f : Frame) (s : State) : Host.Outcome State Fault Refusal := .next (s.host (.journalList f) f)

/-- R497. -/
def execResponseReplay (f : Frame) (s : State) : Host.Outcome State Fault Refusal := .next (s.host (.responseReplay f) f)

/-- R498. -/
def execIdentityGet (f : Frame) (s : State) : Host.Outcome State Fault Refusal := .next (s.host (.identityGet f) f)

/-- R80. -/
def execTimeGet (f : Frame) (s : State) : Host.Outcome State Fault Refusal := .next (s.host (.timeGet f) f)

/-- R81. -/
def execTimebaseConfig (f : Frame) (s : State) : Host.Outcome State Fault Refusal := .next (s.host (.timebaseConfig f) f)

/-- R82. -/
def execTimeSet (f : Frame) (s : State) : Host.Outcome State Fault Refusal := .next (s.host (.timeSet f) f)

/-- R83. -/
def execLeapSchedule (f : Frame) (s : State) : Host.Outcome State Fault Refusal := .next (s.host (.leapSchedule f) f)

/-- R84. -/
def execTimeAlign (f : Frame) (s : State) : Host.Outcome State Fault Refusal := .next (s.host (.timeAlign f) f)

/-- R85. -/
def execTimeConvert (f : Frame) (s : State) : Host.Outcome State Fault Refusal := .next (s.host (.timeConvert f) f)

/-- R86. -/
def execHoldoverForce (f : Frame) (s : State) : Host.Outcome State Fault Refusal := .next (s.host (.holdoverForce f) f)

/-- R87. -/
def execLeapTableGet (f : Frame) (s : State) : Host.Outcome State Fault Refusal := .next (s.host (.leapTableGet f) f)

/-- R119. -/
def execChannelConfig (f : Frame) (s : State) : Host.Outcome State Fault Refusal := .next (s.host (.channelConfig f) f)

/-- R120. -/
def execComparatorConfig (f : Frame) (s : State) : Host.Outcome State Fault Refusal := .next (s.host (.comparatorConfig f) f)

/-- R121. -/
def execChannelStatusGet (f : Frame) (s : State) : Host.Outcome State Fault Refusal := .next (s.host (.channelStatusGet f) f)

/-- R122. -/
def execDelayTableGet (f : Frame) (s : State) : Host.Outcome State Fault Refusal := .next (s.host (.delayTableGet f) f)

/-- R123. -/
def execRotationConfig (f : Frame) (s : State) : Host.Outcome State Fault Refusal := .next (s.host (.rotationConfig f) f)

/-- R124. -/
def execSliceSubstitute (f : Frame) (s : State) : Host.Outcome State Fault Refusal := .next (s.host (.sliceSubstitute f) f)

/-- R153. -/
def execCalConfig (f : Frame) (s : State) : Host.Outcome State Fault Refusal := .next (s.host (.calConfig f) f)

/-- R154. -/
def execCalChannelConfig (f : Frame) (s : State) : Host.Outcome State Fault Refusal := .next (s.host (.calChannelConfig f) f)

/-- R155. -/
def execCalRun (f : Frame) (s : State) : Host.Outcome State Fault Refusal := .next (s.host (.calRun f) f)

/-- R156. -/
def execCalStatusGet (f : Frame) (s : State) : Host.Outcome State Fault Refusal := .next (s.host (.calStatusGet f) f)

/-- R157. -/
def execCalSetGet (f : Frame) (s : State) : Host.Outcome State Fault Refusal := .next (s.host (.calSetGet f) f)

/-- R158. -/
def execCalLogGet (f : Frame) (s : State) : Host.Outcome State Fault Refusal := .next (s.host (.calLogGet f) f)

/-- R194. -/
def execTriggerRouteConfig (f : Frame) (s : State) : Host.Outcome State Fault Refusal := .next (s.host (.triggerRouteConfig f) f)

/-- R195. -/
def execArmTrigger (f : Frame) (s : State) : Host.Outcome State Fault Refusal := .next (s.host (.armTrigger f) f)

/-- R195. -/
def execSoftTrigger (f : Frame) (s : State) : Host.Outcome State Fault Refusal := .next (s.host (.softTrigger f) f)

/-- R198. -/
def execTriggerStatusGet (f : Frame) (s : State) : Host.Outcome State Fault Refusal := .next (s.host (.triggerStatusGet f) f)

/-- R196. -/
def execTrigOutConfig (f : Frame) (s : State) : Host.Outcome State Fault Refusal := .next (s.host (.trigOutConfig f) f)

/-- R197. -/
def execRouteAssign (f : Frame) (s : State) : Host.Outcome State Fault Refusal := .next (s.host (.routeAssign f) f)

/-- R199. -/
def execTillerLoad (f : Frame) (s : State) : Host.Outcome State Fault Refusal := .next (s.host (.tillerLoad f) f)

/-- R200. -/
def execTillerControl (f : Frame) (s : State) : Host.Outcome State Fault Refusal := .next (s.host (.tillerControl f) f)

/-- R201. -/
def execRachisConfig (f : Frame) (s : State) : Host.Outcome State Fault Refusal := .next (s.host (.rachisConfig f) f)

/-- R202. -/
def execRachisStatusGet (f : Frame) (s : State) : Host.Outcome State Fault Refusal := .next (s.host (.rachisStatusGet f) f)

/-- R203. -/
def execRachisSend (f : Frame) (s : State) : Host.Outcome State Fault Refusal := .next (s.host (.rachisSend f) f)

/-- R203. -/
def execRachisQuench (f : Frame) (s : State) : Host.Outcome State Fault Refusal := .next (s.host (.rachisQuench f) f)

/-- R247. -/
def execCaptureConfig (f : Frame) (s : State) : Host.Outcome State Fault Refusal := .next (s.host (.captureConfig f) f)

/-- R248. -/
def execReductionConfig (f : Frame) (s : State) : Host.Outcome State Fault Refusal := .next (s.host (.reductionConfig f) f)

/-- R249. -/
def execAccumConfig (f : Frame) (s : State) : Host.Outcome State Fault Refusal := .next (s.host (.accumConfig f) f)

/-- R250. -/
def execArmCapture (f : Frame) (s : State) : Host.Outcome State Fault Refusal := .next (s.host (.armCapture f) f)

/-- R251. -/
def execCaptureStatusGet (f : Frame) (s : State) : Host.Outcome State Fault Refusal := .next (s.host (.captureStatusGet f) f)

/-- R252. -/
def execRecordFetch (f : Frame) (s : State) : Host.Outcome State Fault Refusal := .next (s.host (.recordFetch f) f)

/-- R281. -/
def execStampConfig (f : Frame) (s : State) : Host.Outcome State Fault Refusal := .next (s.host (.stampConfig f) f)

/-- R282. -/
def execTiConfig (f : Frame) (s : State) : Host.Outcome State Fault Refusal := .next (s.host (.tiConfig f) f)

/-- R283. -/
def execArmStamps (f : Frame) (s : State) : Host.Outcome State Fault Refusal := .next (s.host (.armStamps f) f)

/-- R284. -/
def execAwnStatusGet (f : Frame) (s : State) : Host.Outcome State Fault Refusal := .next (s.host (.awnStatusGet f) f)

/-- R285. -/
def execMeasureConfig (f : Frame) (s : State) : Host.Outcome State Fault Refusal := .next (s.host (.measureConfig f) f)

/-- R312. -/
def execEngineAssign (f : Frame) (s : State) : Host.Outcome State Fault Refusal := .next (s.host (.engineAssign f) f)

/-- R313. -/
def execImageLoad (f : Frame) (s : State) : Host.Outcome State Fault Refusal := .next (s.host (.imageLoad f) f)

/-- R313. -/
def execImageVerify (f : Frame) (s : State) : Host.Outcome State Fault Refusal := .next (s.host (.imageVerify f) f)

/-- R313. -/
def execImageDelete (f : Frame) (s : State) : Host.Outcome State Fault Refusal := .next (s.host (.imageDelete f) f)

/-- R314. -/
def execReducerConfig (f : Frame) (s : State) : Host.Outcome State Fault Refusal := .next (s.host (.reducerConfig f) f)

/-- R315. -/
def execEngineStatusGet (f : Frame) (s : State) : Host.Outcome State Fault Refusal := .next (s.host (.engineStatusGet f) f)

/-- R316. -/
def execReducerStatusGet (f : Frame) (s : State) : Host.Outcome State Fault Refusal := .next (s.host (.reducerStatusGet f) f)

/-- R317. -/
def execEngineKeyEnroll (f : Frame) (s : State) : Host.Outcome State Fault Refusal := .next (s.host (.engineKeyEnroll f) f)

/-- R318. -/
def execEngineRestore (f : Frame) (s : State) : Host.Outcome State Fault Refusal := .next (s.host (.engineRestore f) f)

/-- R318. -/
def execImageList (f : Frame) (s : State) : Host.Outcome State Fault Refusal := .next (s.host (.imageList f) f)

/-- R353. -/
def execDramStatusGet (f : Frame) (s : State) : Host.Outcome State Fault Refusal := .next (s.host (.dramStatusGet f) f)

/-- R354. -/
def execDramPortStatsGet (f : Frame) (s : State) : Host.Outcome State Fault Refusal := .next (s.host (.dramPortStatsGet f) f)

/-- R349. -/
def execDramQosConfig (f : Frame) (s : State) : Host.Outcome State Fault Refusal := .next (s.host (.dramQosConfig f) f)

/-- R350. -/
def execDramConfig (f : Frame) (s : State) : Host.Outcome State Fault Refusal := .next (s.host (.dramConfig f) f)

/-- R351. -/
def execDramMapConfig (f : Frame) (s : State) : Host.Outcome State Fault Refusal := .next (s.host (.dramMapConfig f) f)

/-- R352. -/
def execDramIsolate (f : Frame) (s : State) : Host.Outcome State Fault Refusal := .next (s.host (.dramIsolate f) f)

/-- R355. -/
def execDramErrorLogGet (f : Frame) (s : State) : Host.Outcome State Fault Refusal := .next (s.host (.dramErrorLogGet f) f)

/-- R372. -/
def execWinnowConfig (f : Frame) (s : State) : Host.Outcome State Fault Refusal := .next (s.host (.winnowConfig f) f)

/-- R369. -/
def execWinnowFlush (f : Frame) (s : State) : Host.Outcome State Fault Refusal := .next (s.host (.winnowFlush f) f)

/-- R374. -/
def execWinnowStatusGet (f : Frame) (s : State) : Host.Outcome State Fault Refusal := .next (s.host (.winnowStatusGet f) f)

/-- R416. -/
def execGranaryStatusGet (f : Frame) (s : State) : Host.Outcome State Fault Refusal := .next (s.host (.granaryStatusGet f) f)

/-- R408. -/
def execArchiveJobConfig (f : Frame) (s : State) : Host.Outcome State Fault Refusal := .next (s.host (.archiveJobConfig f) f)

/-- R409. -/
def execArchiveRead (f : Frame) (s : State) : Host.Outcome State Fault Refusal := .next (s.host (.archiveRead f) f)

/-- R410. -/
def execArchiveList (f : Frame) (s : State) : Host.Outcome State Fault Refusal := .next (s.host (.archiveList f) f)

/-- R411. -/
def execArchiveRetain (f : Frame) (s : State) : Host.Outcome State Fault Refusal := .next (s.host (.archiveRetain f) f)

/-- R412. -/
def execDamageListGet (f : Frame) (s : State) : Host.Outcome State Fault Refusal := .next (s.host (.damageListGet f) f)

/-- R413. -/
def execGleanConfig (f : Frame) (s : State) : Host.Outcome State Fault Refusal := .next (s.host (.gleanConfig f) f)

/-- R414. -/
def execCassetteFormat (f : Frame) (s : State) : Host.Outcome State Fault Refusal := .next (s.host (.cassetteFormat f) f)

/-- R415. -/
def execCassetteEvacuate (f : Frame) (s : State) : Host.Outcome State Fault Refusal := .next (s.host (.cassetteEvacuate f) f)

/-- R415. -/
def execCassetteRetire (f : Frame) (s : State) : Host.Outcome State Fault Refusal := .next (s.host (.cassetteRetire f) f)

/-- R446. -/
def execPortConfig (f : Frame) (s : State) : Host.Outcome State Fault Refusal := .next (s.host (.portConfig f) f)

/-- R449. -/
def execPortStatusGet (f : Frame) (s : State) : Host.Outcome State Fault Refusal := .next (s.host (.portStatusGet f) f)

/-- R447. -/
def execStreamConfig (f : Frame) (s : State) : Host.Outcome State Fault Refusal := .next (s.host (.streamConfig f) f)

/-- R448. -/
def execStreamStart (f : Frame) (s : State) : Host.Outcome State Fault Refusal := .next (s.host (.streamStart f) f)

/-- R448. -/
def execStreamStop (f : Frame) (s : State) : Host.Outcome State Fault Refusal := .next (s.host (.streamStop f) f)

/-- R442. -/
def execStreamLeaseRenew (f : Frame) (s : State) : Host.Outcome State Fault Refusal := .next (s.host (.streamLeaseRenew f) f)

/-- R450. -/
def execStreamStatusGet (f : Frame) (s : State) : Host.Outcome State Fault Refusal := .next (s.host (.streamStatusGet f) f)

/-- R443. -/
def execQuench (f : Frame) (s : State) : Host.Outcome State Fault Refusal := .next (s.host (.quench f) f)

/-- R530. -/
def execTenantConfig (f : Frame) (s : State) : Host.Outcome State Fault Refusal := .next (s.host (.tenantConfig f) f)

/-- R534. -/
def execTenantStatusGet (f : Frame) (s : State) : Host.Outcome State Fault Refusal := .next (s.host (.tenantStatusGet f) f)

/-- R507. -/
def execChannelAssign (f : Frame) (s : State) : Host.Outcome State Fault Refusal := .next (s.host (.channelAssign f) f)

/-- R508. -/
def execPageGrant (f : Frame) (s : State) : Host.Outcome State Fault Refusal := .next (s.host (.pageGrant f) f)

/-- R532. -/
def execEventSubscribe (f : Frame) (s : State) : Host.Outcome State Fault Refusal := .next (s.host (.eventSubscribe f) f)

/-- R519. -/
def execEventAck (f : Frame) (s : State) : Host.Outcome State Fault Refusal := .next (s.host (.eventAck f) f)

/-- R533. -/
def execEventQuery (f : Frame) (s : State) : Host.Outcome State Fault Refusal := .next (s.host (.eventQuery f) f)

/-- R535. -/
def execSweepStatusGet (f : Frame) (s : State) : Host.Outcome State Fault Refusal := .next (s.host (.sweepStatusGet f) f)

/-- R558. -/
def execDrillSegmentLoad (f : Frame) (s : State) : Host.Outcome State Fault Refusal := .next (s.host (.drillSegmentLoad f) f)

/-- R559. -/
def execDrillConfig (f : Frame) (s : State) : Host.Outcome State Fault Refusal := .next (s.host (.drillConfig f) f)

/-- R542. -/
def execDrillControl (f : Frame) (s : State) : Host.Outcome State Fault Refusal := .next (s.host (.drillControl f) f)

/-- R561. -/
def execDrillStatusGet (f : Frame) (s : State) : Host.Outcome State Fault Refusal := .next (s.host (.drillStatusGet f) f)

/-- R562. -/
def execProbeConfig (f : Frame) (s : State) : Host.Outcome State Fault Refusal := .next (s.host (.probeConfig f) f)

/-- R563. -/
def execProbeProfileLoad (f : Frame) (s : State) : Host.Outcome State Fault Refusal := .next (s.host (.probeProfileLoad f) f)

/-- R564. -/
def execProbeStatusGet (f : Frame) (s : State) : Host.Outcome State Fault Refusal := .next (s.host (.probeStatusGet f) f)

/-- R587. -/
def execLoopbackSet (f : Frame) (s : State) : Host.Outcome State Fault Refusal := .next (s.host (.loopbackSet f) f)

/-- R579. -/
def execSelfTestRun (f : Frame) (s : State) : Host.Outcome State Fault Refusal := .next (s.host (.selfTestRun f) f)

/-- R591. -/
def execTestResultGet (f : Frame) (s : State) : Host.Outcome State Fault Refusal := .next (s.host (.testResultGet f) f)

/-- R582. -/
def execUnitIsolate (f : Frame) (s : State) : Host.Outcome State Fault Refusal := .next (s.host (.unitIsolate f) f)

/-- R588. -/
def execTestSourceConfig (f : Frame) (s : State) : Host.Outcome State Fault Refusal := .next (s.host (.testSourceConfig f) f)

/-- R629. -/
def execPowerStatusGet (f : Frame) (s : State) : Host.Outcome State Fault Refusal := .next (s.host (.powerStatusGet f) f)

/-- R626. -/
def execHousekeepingConfig (f : Frame) (s : State) : Host.Outcome State Fault Refusal := .next (s.host (.housekeepingConfig f) f)

/-- R627. -/
def execHousekeepingGet (f : Frame) (s : State) : Host.Outcome State Fault Refusal := .next (s.host (.housekeepingGet f) f)

/-- R595. -/
def execOperatingStateSet (f : Frame) (s : State) : Host.Outcome State Fault Refusal := .next (s.host (.operatingStateSet f) f)

/-- R630. -/
def execPowerFailReportGet (f : Frame) (s : State) : Host.Outcome State Fault Refusal := .next (s.host (.powerFailReportGet f) f)

/-- R620. -/
def execFirmwareLoad (f : Frame) (s : State) : Host.Outcome State Fault Refusal := .next (s.host (.firmwareLoad f) f)

/-- R621. -/
def execFirmwareActivate (f : Frame) (s : State) : Host.Outcome State Fault Refusal := .next (s.host (.firmwareActivate f) f)

/-- R631. -/
def execModuleReset (f : Frame) (s : State) : Host.Outcome State Fault Refusal := .next (s.host (.moduleReset f) f)

end Sys2Proof.Machine
end

