-- ==== Sys2Proof/Machine/Window.lean ====
section
/-! DEFINITION. The service-port window (R13 to R15, R76, R444, R454, R457, R528, R607, R623, R640 to R642): what a read of a word returns and
what a write does. -/

namespace Sys2Proof.Machine

/-! ## Reading (R641) -/

/-- Word `i` of a little-endian value. -/
def wordOf (b : Bytes) (i : Nat) : U32 := BitVec.ofNat 32 (leNat (part b (4 * i) 4))

/-- R623: VT96 of the last power-fail report. -/
def State.lastPf (s : State) : Vt96 := (s.power.reports.head?.map (·.t)).getD vtZero

/-- Word 0 or 1 of a 64-bit latch. -/
def latchWord (v : BitVec 64) (i : Nat) : U32 := (v >>> (32 * i)).setWidth 32

/-- R76: a word of the time snapshot block; the higher words of SL values are those latched. -/
def State.timeWord (s : State) (i : Nat) : U32 :=
  let t := s.time
  match i with
  | 5 => latchWord t.latchVtNow 0
  | 6 => latchWord t.latchVtNow 1
  | 9 => latchWord t.latchPpsEdge 0
  | 10 => latchWord t.latchPpsEdge 1
  | 13 => t.latchPpsOffset
  | 15 => t.latchLeapAt
  | 17 => latchWord t.latchSnapVt 0
  | 18 => latchWord t.latchSnapVt 1
  | i => wordOf (t.block s.coreNow) i

/-- R454: a ring register; those only written read 0. -/
def State.ringWord (s : State) (i : Nat) : U32 :=
  let r := s.rings
  match i with
  | 0 => r.cmdProd.setWidth 32
  | 1 => r.cmdCons.setWidth 32
  | 2 => r.rspProd.setWidth 32
  | 3 => r.rspCons.setWidth 32
  | 4 => r.evtProd.setWidth 32
  | 5 => r.evtCons.setWidth 32
  | 7 => BitVec.ofNat 32 r.statusWord
  | _ => 0

/-- R623: a word of the power block. -/
def State.powerWord (s : State) (i : Nat) : U32 :=
  let p := s.power
  match i with
  | 0 => withCount p.statusWord p.updateCount
  | 1 => BitVec.ofNat 32 p.causeWord
  | 2 => BitVec.ofNat 32 s.holdupWord
  | 3 => BitVec.ofNat 32 p.fwWord
  | 4 => wordOf (vt96Bytes s.lastPf) 0
  | 5 => latchWord s.time.latchLastPf 0
  | 6 => latchWord s.time.latchLastPf 1
  | _ => 0

/-- R15, R76, R444, R454, R457, R528, R607, R623, R641: what a read of the word at a window address returns; a read of the lowest word of an SL
value has the effect of SNAP_ON_LOW_READ besides. -/
def State.windowWord (s : State) (addr : Nat) : U32 :=
  if !s.power.released then 0xFFFFFFFF
  else if addr % 4 ≠ 0 then 0
  else if addr = 0x10 then s.time.latchSerial
  else if addr < 0x40 then wordOf s.identity (addr / 4)
  else if 0x100 ≤ addr ∧ addr < 0x124 then s.ringWord ((addr - 0x100) / 4)
  else if addr = 0x800 then BitVec.ofNat 32 s.quenchWord
  else if 0x1000 ≤ addr ∧ addr < 0x1050 then s.timeWord ((addr - 0x1000) / 4)
  else if 0x2000 ≤ addr ∧ addr < 0x2080 then BitVec.ofNat 32 (s.power.hkWord ((addr - 0x2000) / 4))
  else if addr = 0x2080 then s.power.passCount
  else if 0x3000 ≤ addr ∧ addr < 0x30C0 then vget s.summary ((addr - 0x3000) / 4)
  else if 0x4000 ≤ addr ∧ addr < 0x4020 then s.powerWord ((addr - 0x4000) / 4)
  else if 0x10000 ≤ addr ∧ addr < 0x1C000 then BitVec.ofNat 32 (leNat (memRead s.rings.ram (addr - 0x10000) 4))
  else 0

/-- R642: INT_N is driven low. -/
def State.intLow (s : State) : Bool := s.rings.rspProd != s.rings.rspCons || s.rings.evtProd != s.rings.evtCons

/-- R15, R76, R457, R623: the lowest word of an SL value. -/
def slAddress : SlReg → Nat
  | .vtNow => 0x1010 | .ppsEdge => 0x1020 | .ppsOffset => 0x1030 | .leapAt => 0x1038 | .snapVt => 0x1040 | .idSerial => 0x0C
  | .lastPf => 0x4010

/-- R15: the higher words of an SL value as they stand now. -/
def State.slHigh (s : State) : SlReg → BitVec 64
  | .vtNow => BitVec.ofNat 64 (leNat ((vt96Bytes s.coreNow).drop 4))
  | .ppsEdge => BitVec.ofNat 64 (leNat ((vt96Bytes s.time.ppsEdge).drop 4))
  | .ppsOffset => s.time.ppsOffset >>> 32
  | .leapAt => BitVec.ofNat 64 (s.time.leapAt / 2 ^ 32)
  | .snapVt => BitVec.ofNat 64 (leNat ((vt96Bytes s.time.snapVt).drop 4))
  | .idSerial => Config.serial >>> 32
  | .lastPf => BitVec.ofNat 64 (leNat ((vt96Bytes s.lastPf).drop 4))

/-- R15: latch the higher words of an SL value. -/
def TimeBase.latch (t : TimeBase) (high : BitVec 64) : SlReg → TimeBase
  | .vtNow => { t with latchVtNow := high }
  | .ppsEdge => { t with latchPpsEdge := high }
  | .ppsOffset => { t with latchPpsOffset := high.setWidth 32 }
  | .leapAt => { t with latchLeapAt := high.setWidth 32 }
  | .snapVt => { t with latchSnapVt := high }
  | .idSerial => { t with latchSerial := high.setWidth 32 }
  | .lastPf => { t with latchLastPf := high }

/-- R15: a read of the lowest word. -/
def effectSnapOnLowRead (reg : SlReg) (s : State) : State :=
  let s' := s.modRings fun r => { r with misoWord := s.windowWord (slAddress reg) }
  if s.power.released then s'.modTime fun t => t.latch (s.slHigh reg) reg else s'

def execSnapOnLowRead (t : Nat) (reg : SlReg) (s : State) : Host.Outcome State Fault Refusal :=
  .next (State.settle s (effectSnapOnLowRead reg (s.advance t)))

/-! ## Writing -/

/-- R454: ring reset. Responses that wait for room are in no ring and stand; commands that wait are of the command ring. -/
def Rings.reset (r : Rings) : Rings :=
  { r with cmdProd := 0, cmdCons := 0, rspProd := 0, rspCons := 0, evtProd := 0, evtCons := 0, ringResets := r.ringResets + 1, cmdWaiting := [] }

def effectRingReset (s : State) : State := if s.power.released then s.modRings Rings.reset else s

def execRingReset (t : Nat) (s : State) : Host.Outcome State Fault Refusal :=
  .next (State.settle s (effectRingReset (s.advance t)))

/-- R13, R14: clear cmd_frame_error; set in the same access, it stays. -/
def effectCmdFrameErrorClear (setNow : Bool) (s : State) : State :=
  if s.power.released then s.modRings fun r => { r with cmdFrameError := setNow } else s

def execCmdFrameErrorClear (t : Nat) (setNow : Bool) (s : State) : Host.Outcome State Fault Refusal :=
  .next (State.settle s (effectCmdFrameErrorClear setNow (s.advance t)))

/-- R76: a write of TIME_SNAP_CTRL. -/
def State.writeSnapCtrl (s : State) (v : U32) : State :=
  let s := s.modTime fun t => { t with snapOnSync := v.getLsbD 1 }
  if v.getLsbD 0 then effectSnap s else s

/-- R13, R454, R641: a write to a word of the window under its access code; every other address ignores it. -/
def effectRegisterWrite (addr v : U32) (s : State) : State :=
  let a := addr.toNat
  let index : BitVec 15 := v.setWidth 15
  if !s.power.released || a % 4 != 0 then s
  else if a = 0x100 then s.modRings fun r => { r with cmdProd := index }
  else if a = 0x10C then s.modRings fun r => { r with rspCons := index }
  else if a = 0x114 then s.modRings fun r => { r with evtCons := index }
  else if a = 0x118 then (if v.getLsbD 0 then s.serveRing else s)
  else if a = 0x11C then (if v.getLsbD 3 then effectCmdFrameErrorClear false s else s)
  else if a = 0x120 then (if v.getLsbD 0 then effectRingReset s else s)
  else if a = 0x1000 then s.writeSnapCtrl v
  else if 0x3000 ≤ a ∧ a < 0x30C0 then effectEventSummaryClear (Fin.ofNat 48 ((a - 0x3000) / 4)) v 0 s
  else if 0x10000 ≤ a ∧ a < 0x1C000 then s.modRings fun r => { r with ram := memWrite r.ram (a - 0x10000) (w32 v.toNat) }
  else s

def execRegisterWrite (t : Nat) (addr value : U32) (s : State) : Host.Outcome State Fault Refusal :=
  .next (State.settle s (effectRegisterWrite addr value (s.advance t)))

end Sys2Proof.Machine
end

