-- ==== Sys2Proof/Machine/Dispatch.lean ====
section
/-! DEFINITION. The dispatch: one arm per command, one direct call of its meaning. -/

namespace Sys2Proof.Machine

def exec (i : Instr) (s : State) : Host.Outcome State Fault Refusal :=
  match i with
  | .hello f => Sys2Proof.Machine.execHello f s
  | .commitAt f => Sys2Proof.Machine.execCommitAt f s
  | .commitCancel f => Sys2Proof.Machine.execCommitCancel f s
  | .stageDiscard f => Sys2Proof.Machine.execStageDiscard f s
  | .stageGet f => Sys2Proof.Machine.execStageGet f s
  | .journalQuery f => Sys2Proof.Machine.execJournalQuery f s
  | .journalList f => Sys2Proof.Machine.execJournalList f s
  | .responseReplay f => Sys2Proof.Machine.execResponseReplay f s
  | .identityGet f => Sys2Proof.Machine.execIdentityGet f s
  | .timeGet f => Sys2Proof.Machine.execTimeGet f s
  | .timebaseConfig f => Sys2Proof.Machine.execTimebaseConfig f s
  | .timeSet f => Sys2Proof.Machine.execTimeSet f s
  | .leapSchedule f => Sys2Proof.Machine.execLeapSchedule f s
  | .timeAlign f => Sys2Proof.Machine.execTimeAlign f s
  | .timeConvert f => Sys2Proof.Machine.execTimeConvert f s
  | .holdoverForce f => Sys2Proof.Machine.execHoldoverForce f s
  | .leapTableGet f => Sys2Proof.Machine.execLeapTableGet f s
  | .channelConfig f => Sys2Proof.Machine.execChannelConfig f s
  | .comparatorConfig f => Sys2Proof.Machine.execComparatorConfig f s
  | .channelStatusGet f => Sys2Proof.Machine.execChannelStatusGet f s
  | .delayTableGet f => Sys2Proof.Machine.execDelayTableGet f s
  | .rotationConfig f => Sys2Proof.Machine.execRotationConfig f s
  | .sliceSubstitute f => Sys2Proof.Machine.execSliceSubstitute f s
  | .calConfig f => Sys2Proof.Machine.execCalConfig f s
  | .calChannelConfig f => Sys2Proof.Machine.execCalChannelConfig f s
  | .calRun f => Sys2Proof.Machine.execCalRun f s
  | .calStatusGet f => Sys2Proof.Machine.execCalStatusGet f s
  | .calSetGet f => Sys2Proof.Machine.execCalSetGet f s
  | .calLogGet f => Sys2Proof.Machine.execCalLogGet f s
  | .triggerRouteConfig f => Sys2Proof.Machine.execTriggerRouteConfig f s
  | .armTrigger f => Sys2Proof.Machine.execArmTrigger f s
  | .softTrigger f => Sys2Proof.Machine.execSoftTrigger f s
  | .triggerStatusGet f => Sys2Proof.Machine.execTriggerStatusGet f s
  | .trigOutConfig f => Sys2Proof.Machine.execTrigOutConfig f s
  | .routeAssign f => Sys2Proof.Machine.execRouteAssign f s
  | .tillerLoad f => Sys2Proof.Machine.execTillerLoad f s
  | .tillerControl f => Sys2Proof.Machine.execTillerControl f s
  | .rachisConfig f => Sys2Proof.Machine.execRachisConfig f s
  | .rachisStatusGet f => Sys2Proof.Machine.execRachisStatusGet f s
  | .rachisSend f => Sys2Proof.Machine.execRachisSend f s
  | .rachisQuench f => Sys2Proof.Machine.execRachisQuench f s
  | .captureConfig f => Sys2Proof.Machine.execCaptureConfig f s
  | .reductionConfig f => Sys2Proof.Machine.execReductionConfig f s
  | .accumConfig f => Sys2Proof.Machine.execAccumConfig f s
  | .armCapture f => Sys2Proof.Machine.execArmCapture f s
  | .captureStatusGet f => Sys2Proof.Machine.execCaptureStatusGet f s
  | .recordFetch f => Sys2Proof.Machine.execRecordFetch f s
  | .stampConfig f => Sys2Proof.Machine.execStampConfig f s
  | .tiConfig f => Sys2Proof.Machine.execTiConfig f s
  | .armStamps f => Sys2Proof.Machine.execArmStamps f s
  | .awnStatusGet f => Sys2Proof.Machine.execAwnStatusGet f s
  | .measureConfig f => Sys2Proof.Machine.execMeasureConfig f s
  | .engineAssign f => Sys2Proof.Machine.execEngineAssign f s
  | .imageLoad f => Sys2Proof.Machine.execImageLoad f s
  | .imageVerify f => Sys2Proof.Machine.execImageVerify f s
  | .imageDelete f => Sys2Proof.Machine.execImageDelete f s
  | .reducerConfig f => Sys2Proof.Machine.execReducerConfig f s
  | .engineStatusGet f => Sys2Proof.Machine.execEngineStatusGet f s
  | .reducerStatusGet f => Sys2Proof.Machine.execReducerStatusGet f s
  | .engineKeyEnroll f => Sys2Proof.Machine.execEngineKeyEnroll f s
  | .engineRestore f => Sys2Proof.Machine.execEngineRestore f s
  | .imageList f => Sys2Proof.Machine.execImageList f s
  | .dramStatusGet f => Sys2Proof.Machine.execDramStatusGet f s
  | .dramPortStatsGet f => Sys2Proof.Machine.execDramPortStatsGet f s
  | .dramQosConfig f => Sys2Proof.Machine.execDramQosConfig f s
  | .dramConfig f => Sys2Proof.Machine.execDramConfig f s
  | .dramMapConfig f => Sys2Proof.Machine.execDramMapConfig f s
  | .dramIsolate f => Sys2Proof.Machine.execDramIsolate f s
  | .dramErrorLogGet f => Sys2Proof.Machine.execDramErrorLogGet f s
  | .winnowConfig f => Sys2Proof.Machine.execWinnowConfig f s
  | .winnowFlush f => Sys2Proof.Machine.execWinnowFlush f s
  | .winnowStatusGet f => Sys2Proof.Machine.execWinnowStatusGet f s
  | .granaryStatusGet f => Sys2Proof.Machine.execGranaryStatusGet f s
  | .archiveJobConfig f => Sys2Proof.Machine.execArchiveJobConfig f s
  | .archiveRead f => Sys2Proof.Machine.execArchiveRead f s
  | .archiveList f => Sys2Proof.Machine.execArchiveList f s
  | .archiveRetain f => Sys2Proof.Machine.execArchiveRetain f s
  | .damageListGet f => Sys2Proof.Machine.execDamageListGet f s
  | .gleanConfig f => Sys2Proof.Machine.execGleanConfig f s
  | .cassetteFormat f => Sys2Proof.Machine.execCassetteFormat f s
  | .cassetteEvacuate f => Sys2Proof.Machine.execCassetteEvacuate f s
  | .cassetteRetire f => Sys2Proof.Machine.execCassetteRetire f s
  | .portConfig f => Sys2Proof.Machine.execPortConfig f s
  | .portStatusGet f => Sys2Proof.Machine.execPortStatusGet f s
  | .streamConfig f => Sys2Proof.Machine.execStreamConfig f s
  | .streamStart f => Sys2Proof.Machine.execStreamStart f s
  | .streamStop f => Sys2Proof.Machine.execStreamStop f s
  | .streamLeaseRenew f => Sys2Proof.Machine.execStreamLeaseRenew f s
  | .streamStatusGet f => Sys2Proof.Machine.execStreamStatusGet f s
  | .quench f => Sys2Proof.Machine.execQuench f s
  | .tenantConfig f => Sys2Proof.Machine.execTenantConfig f s
  | .tenantStatusGet f => Sys2Proof.Machine.execTenantStatusGet f s
  | .channelAssign f => Sys2Proof.Machine.execChannelAssign f s
  | .pageGrant f => Sys2Proof.Machine.execPageGrant f s
  | .eventSubscribe f => Sys2Proof.Machine.execEventSubscribe f s
  | .eventAck f => Sys2Proof.Machine.execEventAck f s
  | .eventQuery f => Sys2Proof.Machine.execEventQuery f s
  | .sweepStatusGet f => Sys2Proof.Machine.execSweepStatusGet f s
  | .drillSegmentLoad f => Sys2Proof.Machine.execDrillSegmentLoad f s
  | .drillConfig f => Sys2Proof.Machine.execDrillConfig f s
  | .drillControl f => Sys2Proof.Machine.execDrillControl f s
  | .drillStatusGet f => Sys2Proof.Machine.execDrillStatusGet f s
  | .probeConfig f => Sys2Proof.Machine.execProbeConfig f s
  | .probeProfileLoad f => Sys2Proof.Machine.execProbeProfileLoad f s
  | .probeStatusGet f => Sys2Proof.Machine.execProbeStatusGet f s
  | .loopbackSet f => Sys2Proof.Machine.execLoopbackSet f s
  | .selfTestRun f => Sys2Proof.Machine.execSelfTestRun f s
  | .testResultGet f => Sys2Proof.Machine.execTestResultGet f s
  | .unitIsolate f => Sys2Proof.Machine.execUnitIsolate f s
  | .testSourceConfig f => Sys2Proof.Machine.execTestSourceConfig f s
  | .powerStatusGet f => Sys2Proof.Machine.execPowerStatusGet f s
  | .housekeepingConfig f => Sys2Proof.Machine.execHousekeepingConfig f s
  | .housekeepingGet f => Sys2Proof.Machine.execHousekeepingGet f s
  | .operatingStateSet f => Sys2Proof.Machine.execOperatingStateSet f s
  | .powerFailReportGet f => Sys2Proof.Machine.execPowerFailReportGet f s
  | .firmwareLoad f => Sys2Proof.Machine.execFirmwareLoad f s
  | .firmwareActivate f => Sys2Proof.Machine.execFirmwareActivate f s
  | .moduleReset f => Sys2Proof.Machine.execModuleReset f s
  | .badCommandFrame t src bytes => Sys2Proof.Machine.execBadCommandFrame t src bytes s
  | .heldCommandTimeout t tenant => Sys2Proof.Machine.execHeldCommandTimeout t tenant s
  | .snap t => Sys2Proof.Machine.execSnap t s
  | .snapOnLowRead t reg => Sys2Proof.Machine.execSnapOnLowRead t reg s
  | .cmdDoorbell t => Sys2Proof.Machine.execCmdDoorbell t s
  | .ringReset t => Sys2Proof.Machine.execRingReset t s
  | .cmdFrameErrorClear t setNow => Sys2Proof.Machine.execCmdFrameErrorClear t setNow s
  | .eventSummaryClear t w value setNow => Sys2Proof.Machine.execEventSummaryClear t w value setNow s
  | .registerWrite t addr value => Sys2Proof.Machine.execRegisterWrite t addr value s
  | .cmdRingPoll t => Sys2Proof.Machine.execCmdRingPoll t s
  | .responseRingRoom t => Sys2Proof.Machine.execResponseRingRoom t s
  | .eventRingRoom t => Sys2Proof.Machine.execEventRingRoom t s
  | .eventPush t tenant => Sys2Proof.Machine.execEventPush t tenant s
  | .ethernetFrameDiscard t port why => Sys2Proof.Machine.execEthernetFrameDiscard t port why s
  | .arpReceive t port request senderIp senderMac targetIp => Sys2Proof.Machine.execArpReceive t port request senderIp senderMac targetIp s
  | .ndpReceive t port solicitation senderIp senderMac targetIp => Sys2Proof.Machine.execNdpReceive t port solicitation senderIp senderMac targetIp s
  | .icmpEcho t port v6 senderIp data => Sys2Proof.Machine.execIcmpEcho t port v6 senderIp data s
  | .arpCacheRefresh t port ip => Sys2Proof.Machine.execArpCacheRefresh t port ip s
  | .addressResolveRetry t who => Sys2Proof.Machine.execAddressResolveRetry t who s
  | .transferResolveTimeout t journal => Sys2Proof.Machine.execTransferResolveTimeout t journal s
  | .transferFrameSend t journal => Sys2Proof.Machine.execTransferFrameSend t journal s
  | .hostLinkUp t port => Sys2Proof.Machine.execHostLinkUp t port s
  | .hostLinkDown t port => Sys2Proof.Machine.execHostLinkDown t port s
  | .mgmtLinkChange t up => Sys2Proof.Machine.execMgmtLinkChange t up s
  | .streamFrameSend t stream => Sys2Proof.Machine.execStreamFrameSend t stream s
  | .streamLag t stream => Sys2Proof.Machine.execStreamLag t stream s
  | .streamLeaseExpire t stream => Sys2Proof.Machine.execStreamLeaseExpire t stream s
  | .quenchNAssert t => Sys2Proof.Machine.execQuenchNAssert t s
  | .quenchNRelease t => Sys2Proof.Machine.execQuenchNRelease t s
  | .rachisFastLevelChange t port level => Sys2Proof.Machine.execRachisFastLevelChange t port level s
  | .vtSecondBoundary ovr => Sys2Proof.Machine.execVtSecondBoundary ovr s
  | .irigActivityTimeout t => Sys2Proof.Machine.execIrigActivityTimeout t s
  | .grandTickCheck t coincident => Sys2Proof.Machine.execGrandTickCheck t coincident s
  | .preparationWindowClose t => Sys2Proof.Machine.execPreparationWindowClose t s
  | .switchArm t silentNodes silentSheaves => Sys2Proof.Machine.execSwitchArm t silentNodes silentSheaves s
  | .commitRecordWrite t => Sys2Proof.Machine.execCommitRecordWrite t s
  | .domainWindowClose t => Sys2Proof.Machine.execDomainWindowClose t s
  | .domainGoDecision t => Sys2Proof.Machine.execDomainGoDecision t s
  | .vtSecondSave t => Sys2Proof.Machine.execVtSecondSave t s
  | .refSignalDetect t present => Sys2Proof.Machine.execRefSignalDetect t present s
  | .refGateClose t freqMicroHz => Sys2Proof.Machine.execRefGateClose t freqMicroHz s
  | .refLossOfSignal t => Sys2Proof.Machine.execRefLossOfSignal t s
  | .refPhaseHit t => Sys2Proof.Machine.execRefPhaseHit t s
  | .holdoverReturn t => Sys2Proof.Machine.execHoldoverReturn t s
  | .ocxoEstimateUpdate t offset => Sys2Proof.Machine.execOcxoEstimateUpdate t offset s
  | .ppsEdge t tag => Sys2Proof.Machine.execPpsEdge t tag s
  | .ppsActivityTimeout t => Sys2Proof.Machine.execPpsActivityTimeout t s
  | .irigFrame t frame => Sys2Proof.Machine.execIrigFrame t frame s
  | .alignWaitTimeout t => Sys2Proof.Machine.execAlignWaitTimeout t s
  | .rootLockAcquired t band => Sys2Proof.Machine.execRootLockAcquired t band s
  | .rootLockLoss t => Sys2Proof.Machine.execRootLockLoss t s
  | .rootLockRetry t => Sys2Proof.Machine.execRootLockRetry t s
  | .comparatorEdge t c rising tag => Sys2Proof.Machine.execComparatorEdge t c rising tag s
  | .comparatorMaskEnd t c high => Sys2Proof.Machine.execComparatorMaskEnd t c high s
  | .feSettlingEnd t c => Sys2Proof.Machine.execFeSettlingEnd t c s
  | .comparatorFault t c => Sys2Proof.Machine.execComparatorFault t c s
  | .sliceFaultDetect t c slice by_ => Sys2Proof.Machine.execSliceFaultDetect t c slice by_ s
  | .shadowCheckDone t c spareFails inServiceFails => Sys2Proof.Machine.execShadowCheckDone t c spareFails inServiceFails s
  | .shadowSlewEnd t c => Sys2Proof.Machine.execShadowSlewEnd t c s
  | .calBlockEnd t c flags pair => Sys2Proof.Machine.execCalBlockEnd t c flags pair s
  | .ensembleWindowEnd t c est => Sys2Proof.Machine.execEnsembleWindowEnd t c est s
  | .tempSampleTick t => Sys2Proof.Machine.execTempSampleTick t s
  | .calRunWindowEnd t ests => Sys2Proof.Machine.execCalRunWindowEnd t ests s
  | .calSetCheck t failing => Sys2Proof.Machine.execCalSetCheck t failing s
  | .awnDensityCheck t source lane => Sys2Proof.Machine.execAwnDensityCheck t source lane s
  | .awnCheckDone t source lane tapWidths vernWidths => Sys2Proof.Machine.execAwnCheckDone t source lane tapWidths vernWidths s
  | .awnLoopUnlock t source lane loop => Sys2Proof.Machine.execAwnLoopUnlock t source lane loop s
  | .awnRelockAttempt t source lane relocked => Sys2Proof.Machine.execAwnRelockAttempt t source lane relocked s
  | .awnConversionDone t source lane tap count => Sys2Proof.Machine.execAwnConversionDone t source lane tap count s
  | .stampQueueDrain t source => Sys2Proof.Machine.execStampQueueDrain t source s
  | .completeToUpdate t source upTo => Sys2Proof.Machine.execCompleteToUpdate t source upTo s
  | .tiEdge t input rising tag => Sys2Proof.Machine.execTiEdge t input rising tag s
  | .trigInEdge t input rising tag => Sys2Proof.Machine.execTrigInEdge t input rising tag s
  | .digitalTriggerFire t route hit => Sys2Proof.Machine.execDigitalTriggerFire t route hit s
  | .scheduledTrigger t route => Sys2Proof.Machine.execScheduledTrigger t route s
  | .trigOutEdge t out => Sys2Proof.Machine.execTrigOutEdge t out s
  | .trigOutPulseEnd t out => Sys2Proof.Machine.execTrigOutPulseEnd t out s
  | .tillerTransition t => Sys2Proof.Machine.execTillerTransition t s
  | .tillerTimerExpire t timer => Sys2Proof.Machine.execTillerTimerExpire t timer s
  | .burstAReceive t port a => Sys2Proof.Machine.execBurstAReceive t port a s
  | .burstATimeout t port => Sys2Proof.Machine.execBurstATimeout t port s
  | .triggerMessage t port m => Sys2Proof.Machine.execTriggerMessage t port m s
  | .syncMessage t port m => Sys2Proof.Machine.execSyncMessage t port m s
  | .rachisSyncInstant t => Sys2Proof.Machine.execRachisSyncInstant t s
  | .commitReady t port m => Sys2Proof.Machine.execCommitReady t port m s
  | .commitRefuse t port m => Sys2Proof.Machine.execCommitRefuse t port m s
  | .commitGo t port m => Sys2Proof.Machine.execCommitGo t port m s
  | .commitAbort t port m => Sys2Proof.Machine.execCommitAbort t port m s
  | .delayRequest t port m t2 => Sys2Proof.Machine.execDelayRequest t port m t2 s
  | .delayResponse t port m t2 t4 => Sys2Proof.Machine.execDelayResponse t port m t2 t4 s
  | .timeMessage t port m arrival => Sys2Proof.Machine.execTimeMessage t port m arrival s
  | .delayExchangeTimer t port => Sys2Proof.Machine.execDelayExchangeTimer t port s
  | .segmentEnd t c data => Sys2Proof.Machine.execSegmentEnd t c data s
  | .segmentDrained t c => Sys2Proof.Machine.execSegmentDrained t c s
  | .circularDone t c data => Sys2Proof.Machine.execCircularDone t c data s
  | .blockRecordEnd t c data => Sys2Proof.Machine.execBlockRecordEnd t c data s
  | .earFifoFull t c data => Sys2Proof.Machine.execEarFifoFull t c data s
  | .accumRecordAdd t c start raw => Sys2Proof.Machine.execAccumRecordAdd t c start raw s
  | .accumCopyDone t c => Sys2Proof.Machine.execAccumCopyDone t c s
  | .ringItemRelease t ring consumer => Sys2Proof.Machine.execRingItemRelease t ring consumer s
  | .ringWriterResume t ring => Sys2Proof.Machine.execRingWriterResume t ring s
  | .gateClose t inst => Sys2Proof.Machine.execGateClose t inst s
  | .engineGateClose t inst bodies => Sys2Proof.Machine.execEngineGateClose t inst bodies s
  | .fetch t engine g1 => Sys2Proof.Machine.execFetch t engine g1 s
  | .emit t engine g1 buffer => Sys2Proof.Machine.execEmit t engine g1 buffer s
  | .endUnit t engine partialOrState => Sys2Proof.Machine.execEndUnit t engine partialOrState s
  | .abort t engine g1 => Sys2Proof.Machine.execAbort t engine g1 s
  | .unitTime t engine g1 => Sys2Proof.Machine.execUnitTime t engine g1 s
  | .engineSoftwareFault t engine code => Sys2Proof.Machine.execEngineSoftwareFault t engine code s
  | .engineWatchdog t engine => Sys2Proof.Machine.execEngineWatchdog t engine s
  | .engineHardwareFault t engine => Sys2Proof.Machine.execEngineHardwareFault t engine s
  | .unitReissue t engine => Sys2Proof.Machine.execUnitReissue t engine s
  | .nodeFault t node => Sys2Proof.Machine.execNodeFault t node s
  | .sheafFault t sheaf cause => Sys2Proof.Machine.execSheafFault t sheaf cause s
  | .dramRefresh t k => Sys2Proof.Machine.execDramRefresh t k s
  | .dramTempRead t k temp => Sys2Proof.Machine.execDramTempRead t k temp s
  | .dramReadReturn t k offered clocks banks beats => Sys2Proof.Machine.execDramReadReturn t k offered clocks banks beats s
  | .patrolScrubRead t k beats => Sys2Proof.Machine.execPatrolScrubRead t k beats s
  | .dramDriftTrack t k lane up => Sys2Proof.Machine.execDramDriftTrack t k lane up s
  | .dramTrainingDone t k lanes => Sys2Proof.Machine.execDramTrainingDone t k lanes s
  | .controllerSweepDone t k => Sys2Proof.Machine.execControllerSweepDone t k s
  | .chaffSweepDone t what ok => Sys2Proof.Machine.execChaffSweepDone t what ok s
  | .winnowFlushTimer t job => Sys2Proof.Machine.execWinnowFlushTimer t job s
  | .winnowBlockDone t lane mismatch => Sys2Proof.Machine.execWinnowBlockDone t lane mismatch s
  | .winnowReadDecode t lane recordId offset packed block => Sys2Proof.Machine.execWinnowReadDecode t lane recordId offset packed block s
  | .granaryProgramDone t die block erase ok micros => Sys2Proof.Machine.execGranaryProgramDone t die block erase ok micros s
  | .granaryRecordSeal t job => Sys2Proof.Machine.execGranaryRecordSeal t job s
  | .granaryRead t recordId die block outcome => Sys2Proof.Machine.execGranaryRead t recordId die block outcome s
  | .gleanBlockScrub t die block worstBits shifted => Sys2Proof.Machine.execGleanBlockScrub t die block worstBits shifted s
  | .catalogueCheckpoint t cassette => Sys2Proof.Machine.execCatalogueCheckpoint t cassette s
  | .benchTrial t die medianMicros => Sys2Proof.Machine.execBenchTrial t die medianMicros s
  | .archiveStallTimeout t job => Sys2Proof.Machine.execArchiveStallTimeout t job s
  | .cassetteInsert t cassette => Sys2Proof.Machine.execCassetteInsert t cassette s
  | .cassettePowerOn t cassette identity => Sys2Proof.Machine.execCassettePowerOn t cassette identity s
  | .cassetteRemove t cassette => Sys2Proof.Machine.execCassetteRemove t cassette s
  | .cassetteScanDone t cassette torn => Sys2Proof.Machine.execCassetteScanDone t cassette torn s
  | .cassetteFormatDone t cassette => Sys2Proof.Machine.execCassetteFormatDone t cassette s
  | .evacuationDone t cassette => Sys2Proof.Machine.execEvacuationDone t cassette s
  | .cassetteRetireDone t cassette => Sys2Proof.Machine.execCassetteRetireDone t cassette s
  | .drillRunStart t pins => Sys2Proof.Machine.execDrillRunStart t pins s
  | .drillRunEnd t => Sys2Proof.Machine.execDrillRunEnd t s
  | .vdrillOutOfRange t => Sys2Proof.Machine.execVdrillOutOfRange t s
  | .syncEdge t => Sys2Proof.Machine.execSyncEdge t s
  | .probeLock t probe band => Sys2Proof.Machine.execProbeLock t probe band s
  | .probeUnlock t probe => Sys2Proof.Machine.execProbeUnlock t probe s
  | .probeRelockRetry t probe => Sys2Proof.Machine.execProbeRelockRetry t probe s
  | .probeSyncGateEnd t probe => Sys2Proof.Machine.execProbeSyncGateEnd t probe s
  | .probeGateOpen t probe => Sys2Proof.Machine.execProbeGateOpen t probe s
  | .probeProfilePoint t probe => Sys2Proof.Machine.execProbeProfilePoint t probe s
  | .selfTestStepDone t step => Sys2Proof.Machine.execSelfTestStepDone t step s
  | .startupRelease t modId => Sys2Proof.Machine.execStartupRelease t modId s
  | .startupEnd t => Sys2Proof.Machine.execStartupEnd t s
  | .powerFail t => Sys2Proof.Machine.execPowerFail t s
  | .resetNFall t => Sys2Proof.Machine.execResetNFall t s
  | .inputUndervoltage t => Sys2Proof.Machine.execInputUndervoltage t s
  | .inputOvervoltage t => Sys2Proof.Machine.execInputOvervoltage t s
  | .inputOvercurrent t => Sys2Proof.Machine.execInputOvercurrent t s
  | .mainDomainDown t => Sys2Proof.Machine.execMainDomainDown t s
  | .powerFailHandlingEnd t => Sys2Proof.Machine.execPowerFailHandlingEnd t s
  | .commandCoreWatchdog t => Sys2Proof.Machine.execCommandCoreWatchdog t s
  | .managementCoreWatchdog t => Sys2Proof.Machine.execManagementCoreWatchdog t s
  | .culmRestartComplete t => Sys2Proof.Machine.execCulmRestartComplete t s
  | .firmwareRevert t => Sys2Proof.Machine.execFirmwareRevert t s
  | .protectionScan t codes => Sys2Proof.Machine.execProtectionScan t codes s
  | .hkReportingPass t codes => Sys2Proof.Machine.execHkReportingPass t codes s
  | .thermalWarn t => Sys2Proof.Machine.execThermalWarn t s
  | .thermalShutdown t => Sys2Proof.Machine.execThermalShutdown t s
  | .sheafThermal t sheaf => Sys2Proof.Machine.execSheafThermal t sheaf s
  | .bladeImbalance t code => Sys2Proof.Machine.execBladeImbalance t code s
  | .plateSensorFault t => Sys2Proof.Machine.execPlateSensorFault t s
  | .holdupMeasure t ms => Sys2Proof.Machine.execHoldupMeasure t ms s
  | .burstBReceive t port pair => Sys2Proof.Machine.execBurstBReceive t port pair s
  | .commaAlignmentLoss t port => Sys2Proof.Machine.execCommaAlignmentLoss t port s
  | .commitLossReport t port tenant second member => Sys2Proof.Machine.execCommitLossReport t port tenant second member s
  | .vdrillInRange t => Sys2Proof.Machine.execVdrillInRange t s

end Sys2Proof.Machine
end

