-- ==== Sys2Proof/Machine/Wire.lean ====
section
/-! DEFINITION. Frames leaving the Ethernet ports: their headers in network order (R8, R422, R423) and the service of the queues (R425, R426). A frame
leaves at a step that finds no command waiting (log entry 1). -/

namespace Sys2Proof.Machine

/-! ## Headers (R422) -/

/-- R422: an IPv4 header without options: DF set, TTL 64. -/
def ip4Header (dscp ident proto len : Nat) (src dst : BitVec 128) : Bytes :=
  let head (sum : Nat) := w8 0x45 ++ w8 (4 * dscp) ++ beBytes 2 (20 + len) ++ beBytes 2 ident ++ beBytes 2 0x4000 ++ w8 64 ++ w8 proto
    ++ beBytes 2 sum ++ ipBytes false src ++ ipBytes false dst
  head (inetCheck (head 0))

/-- R422: an IPv6 header with no extension header, hop limit 64. -/
def ip6Header (dscp label next len : Nat) (src dst : BitVec 128) : Bytes :=
  beBytes 4 (6 * 2 ^ 28 + dscp * 2 ^ 22 + label % 2 ^ 20) ++ beBytes 2 len ++ w8 next ++ w8 64 ++ ipBytes true src ++ ipBytes true dst

/-- R422: a UDP datagram with its checksum; a sum of zero is sent as ones. -/
def udpDatagram (v6 : Bool) (src dst : BitVec 128) (srcPort destPort : U16) (b : Bytes) : Bytes :=
  let len := 8 + b.length
  let pseudo := ipBytes v6 src ++ ipBytes v6 dst ++ (if v6 then beBytes 4 len ++ zeros 3 ++ w8 17 else w8 0 ++ w8 17 ++ beBytes 2 len)
  let head := beBytes 2 srcPort.toNat ++ beBytes 2 destPort.toNat ++ beBytes 2 len
  let sum := inetCheck (pseudo ++ head ++ zeros 2 ++ b)
  head ++ beBytes 2 (if sum = 0 then 65535 else sum) ++ b

/-- R423: the MAC address of a multicast destination, by the standard mapping. -/
def multicastMac (v6 : Bool) (ip : BitVec 128) : U48 :=
  if v6 then 0x333300000000 ||| (ip.setWidth 32).setWidth 48 else 0x01005E000000 ||| (ip.setWidth 23).setWidth 48

/-- R422, R423: the MAC address of the next hop to a destination, where the port knows it. -/
def Port.macOf (p : Port) (v6 : Bool) (ip : BitVec 128) : Option U48 :=
  let hop := p.cfg.nextHop v6 ip
  if isMulticast v6 ip then some (multicastMac v6 ip)
  else if v6 then (p.ndp.find? (·.1 == hop)).map (·.2)
  else (p.arp.find? (·.1 == hop.setWidth 32)).map (·.2)

/-- R421: the address a UDP datagram leaves from. -/
def Port.ownIp (p : Port) (k : Nat) (v6 : Bool) : BitVec 128 :=
  if !v6 then p.cfg.ip4.setWidth 128 else if p.cfg.ip6 = 0 then linkLocal k else p.cfg.ip6

/-- R8, R422: a frame as it leaves port `k`, from its Ethernet header up to its check sequence; the PCP and DSCP of queue 0 are the port's. -/
def Port.frameBytes (p : Port) (k queue : Nat) (f : TxFrame) : Bytes :=
  let pcp := if queue = 0 then p.cfg.ctrlPcp else f.pcp
  let dscp := if queue = 0 then p.cfg.ctrlDscp else f.dscp
  let tag := if p.cfg.vlan = 65535 then [] else beBytes 2 0x8100 ++ beBytes 2 (pcp * 2 ^ 13 + p.cfg.vlan)
  let label := (Config.headerLabel k p.txFrames.toNat).toNat
  let mac := (p.macOf f.v6 f.destIp).getD (Config.unresolvedMac k f.destIp)
  let ether (dest : U48) (type : Nat) (b : Bytes) := macBytes dest ++ macBytes (Config.mac k) ++ tag ++ beBytes 2 type ++ b
  let ip (src : BitVec 128) (proto : Nat) (b : Bytes) :=
    if f.v6 then ether mac 0x86DD (ip6Header dscp label proto b.length src f.destIp ++ b)
    else ether mac 0x0800 (ip4Header dscp (label % 65536) proto b.length src f.destIp ++ b)
  match f.carried with
  | .arp dest => ether dest 0x0806 f.bytes
  | .icmp src => ip src (if f.v6 then 58 else 1) f.bytes
  | .udp => ip (p.ownIp k f.v6) 17 (udpDatagram f.v6 (p.ownIp k f.v6) f.destIp f.srcPort f.destPort f.bytes)

/-! ## Queues (R425, R426) -/

/-- R425: the frame that deficit weighted round robin over queues 1 to 7 sends next, with what it leaves; a quantum is weight × 9,216 bytes, more than
any frame, so one round from the present turn finds it. -/
def Port.serve (p : Port) (k : Nat) : Nat → RoundRobin → Option (Nat × TxFrame × Port)
  | 0, _ => none
  | fuel + 1, d =>
    match p.data.find? (·.1 == d.turn + 1) with
    | none => p.serve k fuel { turn := (d.turn + 1) % 7, fresh := true, deficit := d.deficit.set d.turn 0 }
    | some (q, f) =>
      let may := d.deficit.getD d.turn 0 + (if d.fresh then p.cfg.weights.getD d.turn 1 * 9216 else 0)
      let size := (p.frameBytes k q f).length + 4
      if size ≤ may then
        some (q, f, { p with data := p.data.eraseP (·.1 == q)
                             robin := { d with fresh := false, deficit := d.deficit.set d.turn (may - size) } })
      else p.serve k fuel { turn := (d.turn + 1) % 7, fresh := true, deficit := d.deficit.set d.turn may }

/-- R425, R426: one frame leaves a port whose link is up: queue 0 with strict priority, then queues 1 to 7. -/
def Port.transmit (p : Port) (k : Nat) : Port :=
  if !p.link then p
  else match p.q0 with
    | f :: rest => { p with q0 := rest, wire := some (p.frameBytes k 0 f) }
    | [] => match p.serve k 9 p.robin with
      | some (q, f, p') => { p' with wire := some (p.frameBytes k q f) }
      | none => p

/-- The frame of queues 1 to 7 that a port sends next. -/
def Port.leaving (p : Port) (k : Nat) : Option TxFrame :=
  if !p.link || !p.q0.isEmpty then none else (p.serve k 9 p.robin).map (·.2.1)

/-- R346, R425, R426: a port sends its next frame. -/
def State.transmitPort (s : State) (k : Nat) : State :=
  let gone := ((s.port k).leaving k).bind (·.frees)
  let s := s.modPort k (·.transmit k)
  match gone with
  | some (c, id) => s.freeEarRecord c id
  | none => s

/-- R425, R426: each port sends its next frame. -/
def State.transmit (s : State) : State := s.each [0, 1, 2] State.transmitPort

end Sys2Proof.Machine
end

