-- ==== Sys2Proof/Machine/Step.lean ====
section
/-! DEFINITION. The step: the command at the front of the queue is taken and executed; on an empty queue each Ethernet port
sends the next frame it has queued, and a block with nothing queued idles (log entry 1). -/

namespace Sys2Proof.Machine

def step (s : State) : Host.Outcome State Fault Refusal :=
  match s.pending with
  | [] => .next s.transmit
  | c :: rest => exec c { s with pending := rest }

/-- Put the command a table word spells at the front of the queue; a word that spells none leaves `s` as it is. -/
def State.withFetchWord (s : State) (nbits w : Nat) : State :=
  match decodeTableWord nbits w with
  | some c => { s with pending := c :: s.pending }
  | none => s

end Sys2Proof.Machine
end

