-- ==== Sys2Proof/Safety.lean ====
section
/-! DEFINITION. The terms statements are made in: the parts of the state and what leaves them unchanged, what closing a
command may add to its effect, when a command completes, and what a safe run is. -/

namespace Sys2Proof.Machine

/-- The parts of the state, one for each field but the queue. -/
inductive Part where
  | freeCtr | clock | time | rings | jr | tenants | own | summary | chans | cal | routes | trigOuts | trigIns | tiller | rachis
  | rports | sources | engines | nodes | insts | images | keys | dram | winnow | granary | ports | streams | transfers | quench
  | drill | probes | test | power
deriving DecidableEq, Repr

/-- A part is the same in two states. -/
def Part.same : Part → State → State → Prop
  | .freeCtr, s, t => t.freeCtr = s.freeCtr
  | .clock, s, t => t.clock = s.clock
  | .time, s, t => t.time = s.time
  | .rings, s, t => t.rings = s.rings
  | .jr, s, t => t.jr = s.jr
  | .tenants, s, t => t.tenants = s.tenants
  | .own, s, t => t.own = s.own
  | .summary, s, t => t.summary = s.summary
  | .chans, s, t => t.chans = s.chans
  | .cal, s, t => t.cal = s.cal
  | .routes, s, t => t.routes = s.routes
  | .trigOuts, s, t => t.trigOuts = s.trigOuts
  | .trigIns, s, t => t.trigIns = s.trigIns
  | .tiller, s, t => t.tiller = s.tiller
  | .rachis, s, t => t.rachis = s.rachis
  | .rports, s, t => t.rports = s.rports
  | .sources, s, t => t.sources = s.sources
  | .engines, s, t => t.engines = s.engines
  | .nodes, s, t => t.nodes = s.nodes
  | .insts, s, t => t.insts = s.insts
  | .images, s, t => t.images = s.images
  | .keys, s, t => t.keys = s.keys
  | .dram, s, t => t.dram = s.dram
  | .winnow, s, t => t.winnow = s.winnow
  | .granary, s, t => t.granary = s.granary
  | .ports, s, t => t.ports = s.ports
  | .streams, s, t => t.streams = s.streams
  | .transfers, s, t => t.transfers = s.transfers
  | .quench, s, t => t.quench = s.quench
  | .drill, s, t => t.drill = s.drill
  | .probes, s, t => t.probes = s.probes
  | .test, s, t => t.test = s.test
  | .power, s, t => t.power = s.power

/-- `t` differs from `s` in the listed parts only; the queue of commands is the same. -/
def OnlyChanges (l : List Part) (s t : State) : Prop := t.pending = s.pending ∧ ∀ p : Part, p ∉ l → p.same s t

/-- The parts that closing a command may change. -/
def closingParts : List Part := [.time, .rings, .jr, .tenants, .summary, .ports, .power]

/-- What may still happen when the effect of a command has led to `e`: waiting occurrences go into event queues, response
frames to their transports, waiting response frames into the response ring, and the two update counters, the log of the time
status byte and the offset TAI−UTC of the leap table follow. Everything else of `t` is that of `e`. -/
structure Closes (e t : State) : Prop where
  rest : OnlyChanges closingParts e t
  time : t.time = { e.time with updateCount := t.time.updateCount, tsbLog := t.time.tsbLog, taiUtc := t.time.taiUtc
                                leapNegative := t.time.leapNegative }
  power : t.power = { e.power with updateCount := t.power.updateCount }
  rings : t.rings = { e.rings with ram := t.rings.ram, rspProd := t.rings.rspProd, rspWaiting := t.rings.rspWaiting
                                   cmdStalled := t.rings.cmdStalled }
  jr : t.jr = { e.jr with outbox := t.jr.outbox, outgoing := [] }
  tenants : ∀ i, t.tenant i = { e.tenant i with queue := (t.tenant i).queue, lostOpen := (t.tenant i).lostOpen
                                                eventsLost := (t.tenant i).eventsLost, eventSeq := (t.tenant i).eventSeq }
  ports : ∀ k, t.port k = { e.port k with q0 := (t.port k).q0, q0Peak := (t.port k).q0Peak, txFrames := (t.port k).txFrames }

/-- A command answers a next state, which is `e` but for what closing adds. -/
def Completes (c : Instr) (s e : State) : Prop := ∃ t, exec c s = .next t ∧ Closes e t

/-- At clock reading `t` the command answers what `e` makes of the state it finds, the clock moved on. -/
def Gives (c : Instr) (t : Nat) (s : State) (e : State → State) : Prop := Completes c s (e (s.advance t))

/-! ## Commands in frames -/

/-- The state that finds a frame: time has moved on to it, and it is counted on its port (R424). -/
def State.arrived (s : State) (f : Frame) : State := (s.advance f.t).countFrame f.src

/-- The state in which a command in a frame is judged at its turn: its sequence is consumed (R467). -/
def State.atTurn (s : State) (f : Frame) : State :=
  (s.arrived f).modTenant f.tenant.val fun t => { t with nextSeq := t.nextSeq + 1 }

/-- R463: a frame passes steps 2 and 3: it is received and need not wait in the command ring, its payload has at most 8,192 bytes, and the
tenant is admitted there. -/
structure Admitted (f : Frame) (s : State) : Prop where
  received : (s.advance f.t).receives f.src = true
  atOnce : (s.arrived f).mustQueue f.src = false
  size : f.payload.length ≤ 8192
  admitted : (s.arrived f).admits f.tenant.val f.src = true

/-- R463, R464, R479: a command reaches its turn: its sequence is the next one, and a readback does not wait for a commit record. -/
structure Reached (c : Instr) (f : Frame) (s : State) : Prop extends Admitted f s where
  turn : f.seq = ((s.arrived f).tenant f.tenant.val).nextSeq
  recorded : (s.arrived f).mustWait c = false

/-- R463, R478: the conditions of normal execution of a command in a frame, on the frame and the state alone: it has its turn, it is no dry
run, and it passes steps 6 to 10: its transport, its rights, its flags and target, its payload and the operating state. -/
structure Ready (c : Instr) (f : Frame) (s : State) : Prop extends Reached c f s where
  live : dryRun f = false
  passes : ∃ k, cmdOf c = some k ∧ onTransport c f = true ∧ ((!k.steward || f.tenant == 0) && k.rights f (s.atTurn f)) = true
    ∧ flagsOk k.kind f = true ∧ k.check f (s.atTurn f) = .ok () ∧ (s.atTurn f).stateAllows k c = .ok ()

/-- What follows the effect `b` of a command that was executed at its turn: its answer `r` (R460 to R462, R468), a restart it asked for, and
then the commands that were held behind it (R466). -/
def State.answered (b : State) (c : Instr) (f : Frame) (r : Reply) : State :=
  ((b.respond (opcodeOf c) f (crc32c (frameBytes (opcodeOf c) f)) (isReadback c) r).pendingRestart).runHeld f.tenant.val 64

/-- R26 to R30: the configuration commands, but for CAL_RUN (R145). -/
def configurationCommands (f : Frame) : List Instr :=
  [.timebaseConfig f, .timeSet f, .leapSchedule f, .timeAlign f, .holdoverForce f, .channelConfig f, .comparatorConfig f, .rotationConfig f
  , .sliceSubstitute f, .calConfig f, .calChannelConfig f, .triggerRouteConfig f, .trigOutConfig f, .routeAssign f, .tillerLoad f
  , .rachisConfig f, .captureConfig f, .reductionConfig f, .accumConfig f, .stampConfig f, .tiConfig f, .measureConfig f, .engineAssign f
  , .reducerConfig f, .engineRestore f, .dramQosConfig f, .dramConfig f, .dramMapConfig f, .dramIsolate f, .winnowConfig f
  , .archiveJobConfig f, .gleanConfig f, .portConfig f, .streamConfig f, .streamStart f, .tenantConfig f, .channelAssign f, .pageGrant f
  , .drillConfig f, .probeConfig f, .loopbackSet f, .unitIsolate f, .testSourceConfig f, .operatingStateSet f]

/-- A run is safe when every step of it answers a next state. -/
def SafeFor : Nat → State → Prop
  | 0, _ => True
  | n + 1, s => ∃ t, step s = .next t ∧ SafeFor n t

/-- What every state a run passes through keeps: the ring memory stands in canonical form. -/
def State.Good (s : State) : Prop := Memory.wf s.rings.ram = true

end Sys2Proof.Machine
end

