-- ==== Sys2Proof/Certificates/Slice0/Obligations.lean ====
section
/-! DEFINITION. The statements for the provers, family by family. -/

open Sys2Proof Sys2Proof.Machine

/-! ## The block (chapters 01, 13, 14) -/

/-- A step takes the command at the front of the queue and is that command's execution on the state with the rest of the queue; the
interface of the package runs this step. -/
def Obligations.StepRunsTheFrontCommand : Prop :=
  ∀ (c : Instr) (rest : List Instr) (s : State), s.pending = c :: rest →
    Sys2Proof.Machine.step s = Sys2Proof.Machine.exec c { s with pending := rest } ∧ Sys2Proof.core.step s = Sys2Proof.Machine.exec c { s with pending := rest }

/-- R346, R425, R426, and the model's own choice that the frames leave where no command waits (log entry 1): a step that finds the queue of
commands empty sends the next frame of each port whose link is up, queue 0 before all others, and changes nothing but the ports and, where
the frame that left ends a segment held only in the Ear, that channel's held records; where nothing can leave, the block idles. -/
def Obligations.StepSendsFramesOnAnEmptyQueue : Prop :=
  ∀ s : State, s.pending = [] →
    (∃ u, Sys2Proof.Machine.step s = .next u ∧ OnlyChanges [.ports, .chans] s u
      ∧ ((∀ k, k < 3 → (((s.port k).leaving k).bind (·.frees)) = none) → u.chans = s.chans)
      ∧ ∀ k, k < 3 →
      let p := s.port k
      (p.link = false → u.port k = p)
      ∧ (∀ f rest, p.link = true → p.q0 = f :: rest → u.port k = { p with q0 := rest, wire := some (p.frameBytes k 0 f) })
      ∧ (∀ q f e, p.link = true → p.q0 = [] → p.serve k 9 p.robin = some (q, f, e) → u.port k = { e with wire := some (p.frameBytes k q f) })
      ∧ (p.link = true → p.q0 = [] → p.data = [] → u.port k = p))
    ∧ ((∀ k, k < 3 → (s.port k).link = false ∨ (s.port k).q0 = [] ∧ (s.port k).data = []) → Sys2Proof.Machine.step s = .next s)

/-- R29, R463: every command is answered or discarded; none stops the block, in any state and with any operands. -/
def Obligations.EveryCommandAnswersANextState : Prop := ∀ (c : Instr) (s : State), ∃ t, Sys2Proof.Machine.exec c s = .next t

/-- R55: what every step does to the queue and to time: the queue loses its front and nothing else, since no command of the block sends the
block a command, and time does not go back. -/
def Obligations.EveryStepMovesTheQueueAndTimeOn : Prop :=
  ∀ s t : State, Sys2Proof.Machine.step s = .next t → t.pending = s.pending.tail ∧ s.clock ≤ t.clock

/-- The ring memory stays in its canonical form, whatever the step. -/
def Obligations.EveryStepKeepsTheRingMemoryCanonical : Prop := ∀ s t : State, s.Good → Sys2Proof.Machine.step s = .next t → t.Good

/-- The memory of the rings is in canonical form after reset. -/
def Obligations.ResetMemoryIsCanonical : Prop := State.reset.Good

/-- R39, R454, R501, R518, R528, R597, R607: what reset leaves where the spec gives a value: empty rings, no event raised, the Steward active
with every quota and owning every channel, engine, route and timing input, every other tenant free, no page granted, QUENCH_N not
asserted, the block not released. -/
def Obligations.ResetLeavesTheBlockAsDelivered : Prop :=
  let s := State.reset
  s.pending = []
  ∧ (s.rings.cmdProd = 0 ∧ s.rings.cmdCons = 0 ∧ s.rings.rspProd = 0 ∧ s.rings.rspCons = 0 ∧ s.rings.evtProd = 0 ∧ s.rings.evtCons = 0)
  ∧ s.rings.statusWord = 0
  ∧ (∀ w, w < 48 → vget s.summary w = 0)
  ∧ (s.tenant 0).active = true
  ∧ ((s.tenant 0).channelMax = 128 ∧ (s.tenant 0).engineMax = 512 ∧ (s.tenant 0).pageMax = 65024 ∧ (s.tenant 0).archiveGib = 4294967295
    ∧ (s.tenant 0).streamMbps = 24000)
  ∧ ((s.tenant 0).eventMask = BitVec.allOnes 1536 ∧ (s.tenant 0).eventDest = .ring)
  ∧ (∀ n, 0 < n → n < 256 → (s.tenant n).active = false ∧ (s.tenant n).eventMask = 0)
  ∧ (∀ c, c < 128 → s.chanOwner c = 0) ∧ (∀ e, e < 512 → vget s.own.engine e = 0) ∧ (∀ r, r < 32 → vget s.own.route r = 0)
  ∧ (∀ i, i < 4 → vget s.own.ti i = 0)
  ∧ s.own.pages = [] ∧ s.jr.generation = 0 ∧ s.power.released = false ∧ s.quench.pin = false

/-! ## Closing a command (chapters 13, 14) -/

/-- R451, R455: when a command closes, every response frame on its way leaves, in order: on its port at the end of queue 0, or to the
response ring, where the frames that find room are written and the others wait, so that no command is taken from the ring. -/
def Obligations.ResponseFramesLeaveInOrder : Prop :=
  ∀ s0 s : State,
    let e := State.settle s0 s
    let packet (o : Outgoing) : TxFrame :=
      { v6 := o.dest.v6, destIp := o.dest.ip, destPort := o.dest.port, srcPort := (s.port (portOf o.dest.via)).cfg.cmdPort, bytes := o.bytes }
    e.jr.outgoing = []
    ∧ (∀ k, k < 3 →
        let mine := s.jr.outgoing.filter fun o => portOf o.dest.via == k
        (e.port k).q0 = (s.port k).q0 ++ mine.map packet ∧ (e.port k).txFrames = (s.port k).txFrames + BitVec.ofNat 64 mine.length)
    ∧ (let mine := (s.jr.outgoing.filter fun o => portOf o.dest.via == 3).map (·.bytes)
       ∃ written, s.rings.rspWaiting ++ mine = written ++ e.rings.rspWaiting
         ∧ e.rings.rspProd = s.rings.rspProd + BitVec.ofNat 15 ((written.map fun b => (pad8 b).length).sum)
         ∧ e.rings.ram = ringWrite s.rings.ram rspBase (s.rings.rspProd.toNat % 16384) (written.map pad8).flatten
         ∧ (∀ f l, e.rings.rspWaiting = f :: l → ringRoom e.rings.rspProd e.rings.rspCons (pad8 f).length = false)
         ∧ e.rings.cmdStalled = !e.rings.rspWaiting.isEmpty)

/-- R517, R518, R521 to R523: what becomes of occurrences when a command closes. While the Culm runs they are offered to the queues of their
recipients in the order they were raised; while it does not run they wait on. A tenant's queue takes only what its subscription mask
holds; an occurrence like the newest entry, not yet pushed, is merged into it; with every slot but the kept one full (an EV_EVENT_LOST entry
that is closed takes a slot, the model's reading: log entry 267), or while losses are being counted, it is lost, counted in one EV_EVENT_LOST entry; else it takes the next sequence number at the end of the queue. -/
def Obligations.OccurrencesEnterTheEventQueues : Prop :=
  (∀ s0 s : State,
    let e := State.settle s0 s
    (s.power.culmUp = true → e.jr.outbox = [] ∧ ∀ i, i < 256 →
      e.tenant i = s.jr.outbox.foldl (fun t o => (o.recips.filter fun r => r.val == i).foldl (fun t _ => t.offer o) t) (s.tenant i))
    ∧ (s.power.culmUp = false → e.jr.outbox = s.jr.outbox ∧ e.tenants = s.tenants ∧ e.summary = s.summary))
  ∧ ∀ (t : Tenant) (o : Occurrence),
    let e := t.offer o
    let kept := t.queue.length
    let merges : Bool := (t.queue.getLast?.map fun x => !x.pushed && !x.lost && x.id == o.id && x.payload == o.payload).getD false
    let taken : EventEntry :=
      { seq := t.eventSeq, id := o.id, rep := 1, tsb := o.tsb, vt := vt80 o.vt, generation := o.generation, payload := o.payload
        pushed := false, lost := false }
    let lost : EventEntry :=
      { seq := t.eventSeq, id := 0x502, rep := 1, tsb := o.tsb, vt := vt80 o.vt, generation := o.generation
        payload := w32 1 ++ w32 o.vt.sec.toNat, pushed := false, lost := true }
    (t.active = false ∨ t.eventMask.getLsbD o.id = false → e = t)
    ∧ (t.active = true → t.eventMask.getLsbD o.id = true →
      (∀ l x, merges = true → t.queue = l ++ [x] → e = { t with queue := l ++ [{ x with rep := min 255 (x.rep + 1) }] })
      ∧ (merges = false → t.lostOpen = false → kept + 1 < t.eventDepth →
          e = { t with eventSeq := t.eventSeq + 1, queue := t.queue ++ [taken] })
      ∧ (merges = false → t.lostOpen = false → t.eventDepth ≤ kept + 1 →
          e = { t with eventsLost := t.eventsLost + 1, lostOpen := true, eventSeq := t.eventSeq + 1, queue := t.queue ++ [lost] })
      ∧ (merges = false → t.lostOpen = true →
          e = { t with
                eventsLost := t.eventsLost + 1
                queue := t.queue.map fun x =>
                  if x.lost = true ∧ x.seq = t.eventSeq - 1 then
                    { x with payload := w32 (min (leNat (x.payload.take 4) + 1) (2 ^ 32 - 1)) ++ x.payload.drop 4 }
                  else x }))

/-- R528, stated: 48 registers at 0x3000 to 0x30BC; register w covers event IDs 32 × w to 32 × w + 31; bit i of it is set when event
32 × w + i occurs, whether or not any tenant queues it; all are 0 at reset; a read returns the register; a write clears the bits it has
at 1 (on a block that is released, R13). -/
def Obligations.EventSummaryHoldsEveryOccurrence : Prop :=
  (∀ (s : State) (vt : Vt96) (id : Nat) (p : Bytes) (named : List Nat) (w i : Nat), id < 1536 → w < 48 → i < 32 →
    (vget (s.raiseAt vt id p named).summary w).getLsbD i = ((vget s.summary w).getLsbD i || decide (id = 32 * w + i)))
  ∧ (∀ w, w < 48 → vget State.reset.summary w = 0)
  ∧ (∀ (s : State) (w : Nat), w < 48 → s.power.released = true → s.windowWord (0x3000 + 4 * w) = vget s.summary w)
  ∧ ∀ (t w : Nat) (v : U32) (s0 : State), w < 48 → Gives (.registerWrite t (BitVec.ofNat 32 (0x3000 + 4 * w)) v) t s0 fun s =>
      if s.power.released then { s with summary := vmod s.summary w fun x => x &&& ~~~ v } else s

/-- R13, R454, R641: the memory of the rings. A write to a register other than the doorbell stores to the four bytes of its word where that
lies in the ring memory, and to nothing else, but for the response ring, where responses that waited may go; with none waiting a word
written reads back. -/
def Obligations.RingMemoryHoldsWhatIsWritten : Prop :=
  ∀ (t : Nat) (addr v : U32) (s : State),
    let a := addr.toNat
    let stores : Bool := s.power.released && a % 4 == 0 && decide (0x10000 ≤ a) && decide (a < 0x1C000)
    s.Good → ∃ u, Sys2Proof.Machine.exec (.registerWrite t addr v) s = .next u
      ∧ (a ≠ 0x118 → ∀ k, (k < rspBase ∨ evtBase ≤ k) → (stores = false ∨ k < a - 0x10000 ∨ a - 0x10000 + 4 ≤ k) →
          memGet u.rings.ram k = memGet s.rings.ram k)
      ∧ (a ≠ 0x118 → s.rings.rspWaiting = [] → s.jr.outgoing = [] →
          (stores = true → u.windowWord a = v)
          ∧ ∀ k, (stores = false ∨ k < a - 0x10000 ∨ a - 0x10000 + 4 ≤ k) → memGet u.rings.ram k = memGet s.rings.ram k)

/-! ## Frames -/

/-- R27, R29, R30, R36: a configuration command or a readback whose turn has come, accepted, refused or run dry, changes no unit and no
setting: beside the clock and the model's own counter of free values only what counts, answers and stages commands, when no command was
held behind it and no restart was pending. (A fetch opens a transfer; the Drill's status brings its run up to now: those two readbacks have
statements of their own.) -/
def Obligations.StagedCommandsAndReadbacksTouchNoUnit : Prop :=
  ∀ (c : Instr) (f : Frame) (s : State),
    (c ∈ configurationCommands f
      ∨ (∃ op, hostCommand c = some (op, f)) ∧ isReadback c = true ∧ c ∉ [.recordFetch f, .drillStatusGet f]) →
    Reached c f s → (s.tenant f.tenant.val).held = [] → s.power.culmPending = none → s.power.restartPending = none →
      ∃ u, Sys2Proof.Machine.exec c s = .next u ∧ OnlyChanges (.clock :: .freeCtr :: closingParts) s u

/-- R29 and the rule of each row: what the events of one unit leave alone. Each of these commands answers, and changes at most the parts
named with it, the clock, the model's own counter of free values, and what counts, answers, records and reports: every other unit, setting
and register is as before. A row that first brings the Tiller to its present tick (R177) says so where the Tiller has nothing due. -/
def Obligations.EventsOfAUnitLeaveTheOthersAlone : Prop :=
  ∀ (t : Nat) (s : State),
    let only (c : Instr) (l : List Part) : Prop :=
      ∃ u, Sys2Proof.Machine.exec c s = .next u ∧ OnlyChanges (l ++ .clock :: .freeCtr :: closingParts) s u
    let idle : Prop := (s.advance t).tillerNow = s.advance t
    only (.snap t) []
    ∧ (∀ (reg : SlReg), only (.snapOnLowRead t reg) [])
    ∧ only (.ringReset t) []
    ∧ (∀ (setNow : Bool), only (.cmdFrameErrorClear t setNow) [])
    ∧ (∀ (w : Fin 48) (value : U32) (setNow : U32), only (.eventSummaryClear t w value setNow) [])
    ∧ (∀ (port : Fin 3) (why : DiscardCause), only (.ethernetFrameDiscard t port why) [])
    ∧ (∀ (port : Fin 3) (request : Bool) (senderIp : U32) (senderMac : U48) (targetIp : U32), only (.arpReceive t port request senderIp senderMac targetIp) [.streams, .transfers])
    ∧ (∀ (port : Fin 3) (solicitation : Bool) (senderIp : BitVec 128) (senderMac : U48) (targetIp : BitVec 128), only (.ndpReceive t port solicitation senderIp senderMac targetIp) [.streams, .transfers])
    ∧ (∀ (port : Fin 3) (v6 : Bool) (senderIp : BitVec 128) (data : Bytes), only (.icmpEcho t port v6 senderIp data) [])
    ∧ (∀ (port : Fin 3) (ip : U32), only (.arpCacheRefresh t port ip) [])
    ∧ only (.irigActivityTimeout t) []
    ∧ only (.ppsActivityTimeout t) []
    ∧ (∀ (offset : Int), only (.ocxoEstimateUpdate t offset) [])
    ∧ only (.vtSecondSave t) []
    ∧ only (.rootLockRetry t) []
    ∧ only (.thermalWarn t) []
    ∧ (∀ (code : Int), only (.bladeImbalance t code) [])
    ∧ only (.plateSensorFault t) []
    ∧ (∀ (ms : U16), only (.holdupMeasure t ms) [])
    ∧ (∀ (c : Fin 128), only (.feSettlingEnd t c) [.chans])
    ∧ (∀ (c : Fin 128), only (.comparatorFault t c) [.chans])
    ∧ (∀ (c : Fin 128), only (.shadowSlewEnd t c) [.chans])
    ∧ (∀ (c : Fin 128) (flags : BitVec 4) (pair : BlockEnd), only (.calBlockEnd t c flags pair) [.chans, .cal])
    ∧ (∀ (c : Fin 128) (high : Bool), only (.comparatorMaskEnd t c high) [.chans, .sources])
    ∧ (∀ (source : Fin 132) (lane : Fin 4), only (.awnDensityCheck t source lane) [.sources])
    ∧ (∀ (source : Fin 132) (lane : Fin 4) (relocked : Bool), only (.awnRelockAttempt t source lane relocked) [.sources])
    ∧ (∀ (source : Fin 132) (upTo : Vt96), only (.completeToUpdate t source upTo) [.sources, .chans])
    ∧ (∀ (out : Fin 4), idle → only (.trigOutEdge t out) [.trigOuts])
    ∧ (∀ (out : Fin 4), idle → only (.trigOutPulseEnd t out) [.trigOuts])
    ∧ (∀ (timer : Fin 4), s.tiller.due = [] → only (.tillerTimerExpire t timer) [.tiller])
    ∧ (∀ (port : Fin 4) (a : BurstA), only (.burstAReceive t port a) [.rports])
    ∧ (∀ (port : Fin 4), only (.burstATimeout t port) [.rports])
    ∧ (∀ (port : Fin 4) (pair : Bool), only (.burstBReceive t port pair) [.rports])
    ∧ (∀ (port : Fin 4) (tenant : Fin 256) (second : U48) (member : Fin 32), only (.commitLossReport t port tenant second member) [.rachis, .rports])
    ∧ (∀ (journal : Fin 4096), only (.transferResolveTimeout t journal) [.transfers])
    ∧ only (.quenchNRelease t) [.quench]
    ∧ (∀ (engine : Fin 512), only (.unitReissue t engine) [.engines, .insts])
    ∧ (∀ (k : Fin 8), only (.dramRefresh t k) [.dram])
    ∧ (∀ (k : Fin 8) (temp : Int), only (.dramTempRead t k temp) [.dram])
    ∧ (∀ (die : Fin 128) (block : Fin 2800) (worstBits : Nat) (shifted : Bool), only (.gleanBlockScrub t die block worstBits shifted) [.granary])
    ∧ (∀ (cassette : Fin 2), only (.catalogueCheckpoint t cassette) [.granary])
    ∧ (∀ (die : Fin 128) (medianMicros : Nat), only (.benchTrial t die medianMicros) [.granary])
    ∧ (∀ (cassette : Fin 2), only (.cassetteInsert t cassette) [.granary])
    ∧ (∀ (probe : Fin 8) (band : BitVec 7), only (.probeLock t probe band) [.probes])
    ∧ (∀ (probe : Fin 8), only (.probeRelockRetry t probe) [.probes])
    ∧ (∀ (probe : Fin 8), only (.probeGateOpen t probe) [.probes])
    ∧ (∀ (probe : Fin 8), only (.probeProfilePoint t probe) [.probes])
    ∧ only (.vdrillInRange t) [.drill]

/-! ## The time base (chapter 02) -/

/-- R44, R48, R56, R58, R86: the judgement of REF IN. A detector finds the signal or loses it; a closed gate sets the frequency error
and the nominal and counts good and bad gates; a valid input that is lost takes a root that follows it into holdover with its events
EV_REF_LOST and EV_HOLDOVER_ENTER; ten seconds after a return is qualified the root follows REF IN again. -/
def Obligations.ReferenceInputIsJudged : Prop :=
  ∀ (t : Nat) (s : State),
    let lose (cause : Nat) (a : State) : State :=
      let b := a.modTime fun x => { x with refValid := false, refGood := 0, refBad := 0, refQualifiedAt := none }
      let follows := a.time.refValid && !a.time.holdover && !a.time.holdoverForced
        && (a.time.freqSource == 0 || (a.time.outage && a.time.refEverValid))
      if follows then
        (((b.raise 0x512 (w8 cause)).freezeSteering.modTime fun x =>
            { x with freqSource := if x.locked then 1 else 3, holdover := true, holdoverSeconds := 0, slewing := false, slewFsPerS := 0
                     slewAfter := none, masterTsb := none }).gateAll 0).raise 0x513 (w8 0)
      else b.freezeSteering
    let follow (a : State) : State := a.modTime fun x => { x.steer a.clock with freqSource := 0, refEverValid := true }
    let gate (f n : Nat) (a : State) : State :=
      let b := a.modTime fun x => { x with refDetected := BitVec.ofNat 2 n, refFreqErr := freqError f n }
      let near := withinPpm f (nominalOf n) 5
      if !a.time.refValid then
        let c := b.modTime fun x => { x with refGood := if near then x.refGood + 1 else 0 }
        if c.time.refGood = 10 then
          let d := c.modTime fun x => { x with refValid := true, refBad := 0 }
          if a.time.holdoverForced then d
          else if a.time.holdover then d.modTime fun x => { x with refQualifiedAt := some a.clock }
          else if !a.time.locked then d.modTime fun x => { x.steer a.clock with refEverValid := x.refEverValid || x.outage }
          else follow d
        else c
      else if a.time.refQualifiedAt.isSome then
        if near then b else b.modTime fun x => { x with refValid := false, refGood := 0, refQualifiedAt := none }
      else if withinPpm f (nominalOf n) 10 then b.modTime fun x => { x with refBad := 0 }
      else
        let c := b.modTime fun x => { x with refBad := x.refBad + 1 }
        if c.time.refBad = 2 then lose 0 c else c
    Gives (.refSignalDetect t true) t s (fun a => a.modTime fun x =>
        { x with refPresent := true, refDetected := if x.refPresent then x.refDetected else BitVec.ofNat 2 x.cfg.refNominal })
    ∧ Gives (.refSignalDetect t false) t s (fun a => (if a.time.refValid then lose 1 a else a).modTime fun x =>
        { x with refPresent := false, refDetected := 0, refFreqErr := 0x80000000, refGood := 0 })
    ∧ Gives (.refLossOfSignal t) t s (fun a => if a.time.refValid then lose 1 a else a)
    ∧ Gives (.refPhaseHit t) t s (fun a => if a.time.refValid then lose 2 a else a)
    ∧ (∀ f, Gives (.refGateClose t f) t s fun a =>
        if !a.time.refPresent || !a.hasReference then a
        else if a.time.gateNominal f = 0 then a.modTime fun x => { x with refDetected := 0, refFreqErr := 0x80000000, refGood := 0 }
        else gate f (a.time.gateNominal f) a)
    ∧ (∀ offset, Gives (.ocxoEstimateUpdate t offset) t s fun a =>
        if a.time.refValid then a.modTime fun x => { x with ocxoEstimate := offset } else a)
    ∧ (∀ t1, s.time.refQualifiedAt = some t1 → Gives (.holdoverReturn t) t s fun a =>
        if a.time.holdover && !a.time.holdoverForced && a.time.locked && decide (t1 + 10 * ticksPerSec ≤ a.clock) then
          (((follow a).modTime fun x => { x with holdover := false, refQualifiedAt := none, slewAfter := some 0 }).ungateAll 0).raise 0x514
            (w32 a.time.holdoverSeconds.toNat)
        else a)
    ∧ (s.time.refQualifiedAt = none → Gives (.holdoverReturn t) t s id)

/-- R45, R49, R76: an edge at PPS IN outside a follower and pps_mode 0: a plausible interval to the reference is 1 s ± 1 µs; four in a
row make PPS IN valid, the third that fails makes it invalid, and one that is accepted is judged for alignment. -/
def Obligations.PpsInputIsJudged : Prop :=
  ∀ (t : Nat) (tag : Vt96) (s : State),
    let e := vtAdd tag (-(unitsOfFs s.time.cfg.ppsDelayFs))
    let off := boundaryOffset e
    let near : Bool := match s.time.ppsRef with
      | some r => plausibleInterval r e
      | none => false
    let judge (a : State) : State :=
      let b := a.modTime fun x => { x with ppsEdge := e, ppsOffset := BitVec.ofInt 64 off, slewAfter := x.slewAfter.map (· + 1) }
      if withinPs off a.time.cfg.ppsTolerancePs then
        let good := if a.time.slewing then 0 else a.time.ppsAlignGood + 1
        b.modTime fun x => { x with ppsAlignGood := good, ppsAlignBad := 0, ppsAligned := x.ppsAligned || decide (4 ≤ good) }
      else
        let c := b.modTime fun x => { x with ppsAlignGood := 0, ppsAlignBad := x.ppsAlignBad + 1 }
        if c.time.ppsAlignBad = 4 then (c.modTime fun x => { x with ppsAligned := false }).raise 0x515 (w64 (BitVec.ofInt 64 off).toNat)
        else c
    let edge (a : State) : State :=
      if a.time.cfg.ppsMode = 0 ∨ a.rachis.cfg.role = 2 then a
      else if a.time.ppsValid then
        if near then judge (a.modTime fun x => { x with ppsRef := some e, ppsBad := 0 })
        else
          let b := a.modTime fun x => { x with ppsBad := x.ppsBad + 1, ppsDiscarded := x.ppsDiscarded + 1 }
          if b.time.ppsBad = 3 then
            b.modTime fun x => { x with ppsValid := false, ppsAligned := false, ppsBad := 0, ppsGood := 0, ppsRef := some e
                                        ppsAlignGood := 0, ppsAlignBad := 0 }
          else b
      else
        let b := a.modTime fun x => { x with ppsRef := some e, ppsGood := if near then x.ppsGood + 1 else 0 }
        if b.time.ppsGood = 4 then judge (b.modTime fun x => { x with ppsValid := true, ppsBad := 0 }) else b
    Gives (.ppsEdge t tag) t s (fun a => (edge a).alignWhenReady)
    ∧ Gives (.ppsActivityTimeout t) t s (fun a => if a.rachis.cfg.role = 2 then a else a.modTime fun x =>
        { x with ppsValid := false, ppsAligned := false, ppsGood := 0, ppsBad := 0, ppsRef := none, ppsAlignGood := 0, ppsAlignBad := 0 })

/-- R47, R49, R60, R69: a frame at IRIG IN outside a follower and irig_mode 0. A frame without a valid calendar time fails; one with it
gives the label, the phase and the difference to VT, passes when it follows the frame before and its quality does, three that pass make
IRIG IN valid and ask for the label, three that fail make it invalid, and so do three that disagree with VT, with EV_IRIG_MISMATCH. -/
def Obligations.IrigInputIsJudged : Prop :=
  ∀ (t : Nat) (f : IrigFrame) (s : State),
    let agree (sec : Nat) (a : State) : State :=
      if !a.time.labelValid then a
      else if sec = (nearestSecond f.onTime).toNat then a.modTime fun x => { x with irigMismatch := 0 }
      else
        let b := a.modTime fun x => { x with irigMismatch := x.irigMismatch + 1 }
        if b.time.irigMismatch = 3 then
          (b.modTime fun x => { x with irigValid := false, irigGood := 0, irigMismatch := 0 }).raise 0x516 (w48 sec)
        else b
    let seen (sec : Nat) (pass : Bool) (x : TimeBase) : TimeBase :=
      { x with irigLast := some sec, irigLabel := BitVec.ofNat 48 sec, irigOn := f.onTime
               irigDelta := (sec : Int) - (nearestSecond f.onTime).toNat
               irigGood := if pass then x.irigGood + 1 else 0, irigBad := if pass then 0 else x.irigBad + 1 }
    let judges : Prop := s.time.cfg.irigMode ≠ 0 ∧ s.rachis.cfg.role ≠ 2 ∧ yearCarried f.format = true
    (¬judges → Gives (.irigFrame t f) t s State.alignWhenReady)
    ∧ (judges → irigSecond s.time f = none →
        Gives (.irigFrame t f) t s fun a => (a.modTime fun x =>
          { x with irigGood := 0, irigBad := x.irigBad + 1, irigValid := x.irigValid && decide (x.irigBad + 1 < 3)
                   irigLast := none }).alignWhenReady)
    ∧ (∀ sec, judges → irigSecond s.time f = some sec →
        let follows : Bool := match s.time.irigLast with
          | some l => sec == l + 1
          | none => true
        let pass := follows && qualityOk s.time f
        let judged (a : State) : State :=
          let b := a.modTime (seen sec pass)
          if !pass then agree sec (b.modTime fun x => { x with irigValid := x.irigValid && decide (x.irigBad < 3) })
          else
            let first := !b.time.irigValid && decide (3 ≤ b.time.irigGood)
            let c := if first then b.modTime fun x => { x with irigValid := true, irigRequest := !x.labelValid && !x.aligning } else b
            agree sec (c.leapNotice f sec)
        Gives (.irigFrame t f) t s fun a => (judged a).alignWhenReady)
    ∧ Gives (.irigActivityTimeout t) t s (fun a => a.modTime fun x =>
        { x with irigValid := false, irigGood := 0, irigBad := 0, irigLast := none
                 irigRequest := x.irigRequest && a.rachis.cfg.role == 2 })

/-- R51, R52, R55, R60, R63, R598: the root. Lock takes the band and counts the acquisition, follows REF IN where it is valid and no
holdover stands, starts the wait for alignment at start-up, and ends an outage with an alignment to a valid PPS; its loss raises
EV_ROOT_UNLOCK, takes the frequency source away, ends every record and stamp queue with cause 3 and 2, gates every probe and stops what
runs; a grand tick that does not coincide raises EV_ROOT_ALIGN and counts as a loss. -/
def Obligations.RootLocksAndUnlocks : Prop :=
  ∀ (t : Nat) (s : State),
    let lose (a : State) : State :=
      if !a.time.locked then a
      else
        let b := (a.raise 0x510 []).modTime fun x =>
          { x with locked := false, searching := true, freqSource := 3, outage := true, slewing := false
                   resumeAtBoundary := false }
        let c := (b.each (List.range 128) fun y c => y.endRecords c 3).each (List.range 132) fun y i => y.stopStamps i 2
        let d := (c.gateAll 1).each (List.range 8) State.losePhase
        (d.abortDrill 1).disarmRoutes.abortRun.abortTest
    (∀ band, Gives (.rootLockAcquired t band) t s fun a =>
      if a.time.locked then a
      else
        let src : BitVec 2 :=
          if a.time.refValid && !a.time.holdover && !a.time.holdoverForced then 0 else if a.time.refEverValid then 1 else 2
        let b := (a.modTime fun x =>
            { (if src = 0 then x.steer a.clock else x) with
              locked := true, searching := false, band, lockCount := satInc x.lockCount, freqSource := src
              refEverValid := x.refEverValid || src == 0, aligning := x.aligning || (!x.outage && x.lockCount == 0) }).each (List.range 8) fun y k =>
          if (y.probe k).locked then y.ungateProbe k 1 else y
        if b.time.outage then
          (if b.time.ppsValid then b.alignToPps else b).modTime fun x => { x with outage := false, resumeAtBoundary := true }
        else b.alignWhenReady)
    ∧ Gives (.rootLockLoss t) t s lose
    ∧ Gives (.grandTickCheck t true) t s id
    ∧ Gives (.grandTickCheck t false) t s (fun a => lose (a.raise 0x511 []))
    ∧ Gives (.rootLockRetry t) t s (fun a => if a.time.locked then a else a.modTime fun x => { x with searching := true })

/-- R36, R60, R63, R76, R598: the wait of the start-up ends with the phase of a valid PPS, else of a valid DC IRIG, else with the tick
on which it ends, and with the label of a valid IRIG, else with the second after the one in MRAM; the second is saved to MRAM under the
labels of the last record; a snapshot takes the VT96 of the CORE tick. -/
def Obligations.AlignmentSnapshotAndSave : Prop :=
  ∀ (t : Nat) (s : State),
    let moved (d : Int) (x : TimeBase) : TimeBase :=
      { x with ppsRef := x.ppsRef.map fun e => vtAdd e d, ppsEdge := vtAdd x.ppsEdge d, irigOn := vtAdd x.irigOn d }
    let step (off : Int) (x : TimeBase) : TimeBase :=
      { moved (-off) x with secStart := ((x.secStart : Int) + (off * ticksPerSec + 2 ^ 47) / 2 ^ 48).toNat, ppsOffset := 0 }
    let phase (clock : Nat) (x : TimeBase) : TimeBase :=
      if x.ppsValid then { step x.ppsOffset.toInt x with ppsAligned := true, phaseSource := 1, ppsAlignBad := 0 }
      else if x.irigValid ∧ x.cfg.irigMode = 1 then { step (boundaryOffset x.irigOn) x with phaseSource := 2 }
      else
        let n := (clock - x.secStart) / 100 * 100
        { moved (-(((n * 2 ^ 48 : Nat) / ticksPerSec : Nat) : Int)) x with secStart := x.secStart + n, phaseSource := 0 }
    let named (l : Int) (x : TimeBase) : TimeBase :=
      { moved ((l - x.vtSec.toNat) * 2 ^ 48) x with vtSec := BitVec.ofInt 48 l, irigDelta := 0 }
    let label (x : TimeBase) : TimeBase :=
      if x.irigValid then { named x.irigNow x with labelValid := true, labelSource := 1 }
      else { named ((x.savedVtSec.toNat : Int) + 1) x with labelSource := 3 }
    let aligned (a : State) : State := a.modTime fun x => label (phase a.clock { x with aligning := false })
    Gives (.alignWaitTimeout t) t s (fun a =>
        if !a.time.aligning then a
        else if a.power.lateLock then ((aligned a).modPower fun p => { p with lateLock := false }).raise 0x5C2 (w8 1 ++ w8 1)
        else aligned a)
    ∧ Gives (.vtSecondSave t) t s (fun a => a.modTime fun x =>
        { x with savedVtSec := BitVec.ofInt 48 ((x.vtSec.toNat : Int) - (a.jr.prior.map (·.labelShift)).getD 0) })
    ∧ Gives (.snap t) t s (fun a =>
        if a.power.released then a.modTime fun x => { x with snapVt := a.coreNow, snapCount := x.snapCount + 1 } else a)

/-- R13 to R15, R76, R454, R455, R524, R527, R528, R641: the service-port window and its rings. A read of the lowest word of an SL value
latches the higher words; a write takes effect under the access code of its word; the module takes the frames of the command ring when
it looks at CMD_PROD; the events of a tenant are pushed to its destination, and those that wait for room go on when the host frees it. -/
def Obligations.ServiceWindowAndRingsAnswer : Prop :=
  ∀ (t : Nat) (s0 : State),
    let serve (s : State) : State :=
      if !s.receives { via := .service } then s
      else
        let s := s.flushOut
        (s.takeWaiting s.rings.cmdWaiting.length).intake 1366
    let push (n : Nat) (s : State) : State :=
      if !s.power.culmUp || !(s.tenant n).active then s
      else
        let s := s.pushFrames n (s.tenant n).queue.length
        if (s.tenant n).eventDest == .ring && !(s.tenant n).batch.isEmpty && !s.rings.evtWaiting.contains (ten n) then
          s.modRings fun r => { r with evtWaiting := r.evtWaiting ++ [ten n] }
        else s
    let reset (s : State) : State := if s.power.released then s.modRings fun r =>
        { r with cmdProd := 0, cmdCons := 0, rspProd := 0, rspCons := 0, evtProd := 0, evtCons := 0, ringResets := r.ringResets + 1
                 cmdWaiting := [] } else s
    let clear (set : Bool) (s : State) : State := if s.power.released then s.modRings fun r => { r with cmdFrameError := set } else s
    let summary (w : Fin 48) (v set : U32) (s : State) : State :=
      if s.power.released then { s with summary := vmod s.summary w.val fun x => (x &&& ~~~ v) ||| set } else s
    let snap (s : State) : State :=
      if s.power.released then s.modTime fun x => { x with snapVt := s.coreNow, snapCount := x.snapCount + 1 } else s
    (∀ (reg : SlReg), Gives (.snapOnLowRead t reg) t s0 fun s =>
      let s' := s.modRings fun r => { r with misoWord := s.windowWord (slAddress reg) }
      if s.power.released then s'.modTime fun t => t.latch (s.slHigh reg) reg else s')
    ∧ (Gives (.ringReset t) t s0 fun s => reset s)
    ∧ (∀ (setNow : Bool), Gives (.cmdFrameErrorClear t setNow) t s0 fun s => clear setNow s)
    ∧ (∀ (w : Fin 48) (value : U32) (setNow : U32), Gives (.eventSummaryClear t w value setNow) t s0 fun s => summary w value setNow s)
    ∧ (∀ (addr : U32) (v : U32), Gives (.registerWrite t addr v) t s0 fun s =>
      let a := addr.toNat
      let index : BitVec 15 := v.setWidth 15
      if !s.power.released || a % 4 != 0 then s
      else if a = 0x100 then s.modRings fun r => { r with cmdProd := index }
      else if a = 0x10C then s.modRings fun r => { r with rspCons := index }
      else if a = 0x114 then s.modRings fun r => { r with evtCons := index }
      else if a = 0x118 then (if v.getLsbD 0 then serve s else s)
      else if a = 0x11C then (if v.getLsbD 3 then clear false s else s)
      else if a = 0x120 then (if v.getLsbD 0 then reset s else s)
      else if a = 0x1000 then
          let s := s.modTime fun x => { x with snapOnSync := v.getLsbD 1 }
          if v.getLsbD 0 then snap s else s
      else if 0x3000 ≤ a ∧ a < 0x30C0 then summary (Fin.ofNat 48 ((a - 0x3000) / 4)) v 0 s
      else if 0x10000 ≤ a ∧ a < 0x1C000 then s.modRings fun r => { r with ram := memWrite r.ram (a - 0x10000) (w32 v.toNat) }
      else s)
    ∧ (Gives (.cmdDoorbell t) t s0 fun s => serve s)
    ∧ (Gives (.cmdRingPoll t) t s0 fun s => serve s)
    ∧ (Gives (.responseRingRoom t) t s0 fun s => serve s)
    ∧ (Gives (.eventRingRoom t) t s0 fun s =>
      (s.modRings fun r => { r with evtWaiting := [] }).each (s.rings.evtWaiting.map (·.val)) fun s n => push n s)
    ∧ (∀ (tenant : Fin 256), Gives (.eventPush t tenant) t s0 fun s => (push tenant.val s))

/-- R420, R422 to R424: frames that are discarded are counted; ARP requests, neighbour solicitations and echo requests for the address of a
port are answered, replies enter the caches, and an address that is not in a cache is asked for again. -/
def Obligations.AddressesAndControlFrames : Prop :=
  ∀ (t : Nat) (s0 : State),
    (∀ (port : Fin 3) (why : DiscardCause), Gives (.ethernetFrameDiscard t port why) t s0 fun s =>
      (s.rxFrame port.val).modPort port.val fun p =>
        match why with
        | .commandBufferFull => { p with rxCmdDropped := p.rxCmdDropped + 1 }
        | _ => { p with rxDiscarded := p.rxDiscarded + 1 })
    ∧ (∀ (port : Fin 3) (request : Bool) (senderIp : U32) (senderMac : U48) (targetIp : U32), Gives (.arpReceive t port request senderIp senderMac targetIp) t s0 fun s =>
      let s := s.rxFrame port.val
      let c := (s.port port.val).cfg
      if !c.ipMode.getLsbD 0 || c.ip4 == 0 then s.modPort port.val fun p => { p with rxDiscarded := p.rxDiscarded + 1 }
      else if request then
        if targetIp = c.ip4 then
          s.queueControl port.val { destIp := senderIp.setWidth 128, carried := .arp senderMac, bytes := arpPacket port.val c 2 senderMac senderIp }
        else s
      else (s.modPort port.val fun p => { p with arp := cacheAdd p.arp senderIp senderMac }).learned port.val)
    ∧ (∀ (port : Fin 3) (solicitation : Bool) (senderIp : BitVec 128) (senderMac : U48) (targetIp : BitVec 128), Gives (.ndpReceive t port solicitation senderIp senderMac targetIp) t s0 fun s =>
      let s := s.rxFrame port.val
      let c := (s.port port.val).cfg
      if !c.ipMode.getLsbD 1 then s.modPort port.val fun p => { p with rxDiscarded := p.rxDiscarded + 1 }
      else if solicitation then
        if (targetIp == c.ip6 && c.ip6 != 0) || targetIp == linkLocal port.val then
          let dest : BitVec 128 := if senderIp = 0 then 0xFF020000000000000000000000000001 else senderIp
          s.queueControl port.val
            { v6 := true, destIp := dest, carried := .icmp targetIp
              bytes := icmpMessage true targetIp dest 136 (beBytes 4 (if senderIp = 0 then 0x20000000 else 0x60000000) ++ ipBytes true targetIp ++ beBytes 1 2
                ++ beBytes 1 1 ++ macBytes (Config.mac port.val)) }
        else s
      else (s.modPort port.val fun p => { p with ndp := cacheAdd p.ndp targetIp senderMac }).learned port.val)
    ∧ (∀ (port : Fin 3) (v6 : Bool) (senderIp : BitVec 128) (data : Bytes), Gives (.icmpEcho t port v6 senderIp data) t s0 fun s =>
      let s := s.rxFrame port.val
      let p := s.port port.val
      let within := p.echoTimes.filter fun c => decide (s.clock < c + ticksPerSec)
      if !p.cfg.ipMode.getLsbD (boolNat v6) || (!v6 && p.cfg.ip4 == 0) || decide (1000 ≤ within.length) then
        s.modPort port.val fun p => { p with rxDiscarded := p.rxDiscarded + 1 }
      else
        let own := if !v6 then p.cfg.ip4.setWidth 128
          else if p.cfg.ip6 = 0 ∨ isLinkLocal senderIp then linkLocal port.val else p.cfg.ip6
        (s.modPort port.val fun p => { p with echoTimes := s.clock :: within }).queueControl port.val
          { v6, destIp := senderIp, carried := .icmp own, bytes := icmpMessage v6 own senderIp (if v6 then 129 else 0) data })
    ∧ (∀ (port : Fin 3) (ip : U32), Gives (.arpCacheRefresh t port ip) t s0 fun s =>
      if (s.port port.val).arp.any fun e => e.1 == ip then s.askAddress port.val false (ip.setWidth 128) else s)
    ∧ (∀ (who : Sender), Gives (.addressResolveRetry t who) t s0 fun s =>
      match who with
      | .stream i =>
        let x := s.stream i.val
        match x.cfg with
        | some c =>
          if !x.running || x.resolved then s
          else if (s.port c.port).resolves c.v6 c.destIp then s.modStream i.val fun x => { x with resolved := true }
          else s.askAddress c.port c.v6 ((s.port c.port).cfg.nextHop c.v6 c.destIp)
        | none => s
      | .transfer j =>
        match s.transfer j.val with
        | some x =>
          if x.resolved then s
          else if (s.port x.port).resolves x.v6 x.destIp then s.modTransfer j.val fun x => { x with resolved := true }
          else s.askAddress x.port x.v6 ((s.port x.port).cfg.nextHop x.v6 x.destIp)
        | none => s)

/-- R429, R430, R433, R434, R442: a transfer sends its next item or ends when its destination is not resolved within 10 s; a stream sends its
next frame within its rate, skips items that are too old under its lag policy, and stops with cause 2 when its lease expires. -/
def Obligations.StreamsAndTransfersAdvance : Prop :=
  ∀ (t : Nat) (s0 : State),
    let stop (i cause : Nat) (s : State) : State :=
      let x := s.stream i
      match x.cfg, x.running with
      | some c, true =>
        let b := dataFrame (s.controlHead i 5 8) (endPayload cause x) []
        let s := s.sendStream i c (s.endQueue c) b
        let s := s.modRing (s.streamRing c) (·.deregister (.stream (Fin.ofNat 128 i)))
        let s := s.withEntry x.journal State.completeEntry
        s.modStream i fun x =>
          { x with running := false, lastCause := cause, item := none, itemPos := 0, damage := [], journal := none
                   ended := some (s.coreOf s.clock, b) }
      | some c, false => s.reviseStop i c cause
      | none, _ => s
    (∀ (journal : Fin 4096), Gives (.transferResolveTimeout t journal) t s0 fun s =>
      match s.transfer journal.val with
      | some x => if !x.resolved && decide (x.since + 10 * ticksPerSec ≤ s.clock) then s.endTransfer journal.val 1 else s
      | none => s)
    ∧ (∀ (journal : Fin 4096), Gives (.transferFrameSend t journal) t s0 fun s =>
      let j := journal.val
      match s.transfer j with
      | some x =>
        if !x.resolved || (x.port < 2 && s.quenched) then s
        else match x.records with
          | id :: rest =>
            let s := s.modTransfer j fun x => { x with records := rest }
            let s := match s.transferItem x id with
              | some (b, d, gen) =>
                let h : DataHead :=
                  { frameType := 1, tenant := x.tenant.val, journal := j, frameSeq := x.frameSeq, itemId := id, itemLen := b.length
                    genLast := gen }
                let fs := transferFrames h b (s.port x.port).cfg.mtu x.v6 d 0 (b.length + 1)
                let s := s.sendTransfer x id fs
                let s := s.modTransfer j fun x => { x with frameSeq := x.frameSeq + BitVec.ofNat 32 fs.length, done := x.done + 1, damage := [] }
                let s := if x.archive then { s with freeCtr := s.freeCtr + b.length } else s
                s.addUnits j 1
              | none => s
            s.finishTransfer j
          | [] => s.finishTransfer j
      | none => s)
    ∧ (∀ (stream : Fin 128), Gives (.streamFrameSend t stream) t s0 fun s =>
      let i := stream.val
      let x := s.stream i
      match x.cfg with
      | some c =>
        if !x.running || !x.resolved || s.quenched then s
        else if c.kind = 1 then s.sendVdif i c
        else match (s.ring (s.streamRing c)).nextFor (.stream stream) with
          | some it =>
            let (len, d) := fragment (s.port c.port).cfg.mtu c.v6 it.body.bytes.length x.itemPos x.damage
            if s.withinRate x c (wireBytes (s.port c.port).cfg c.v6 (44 + len + 8 * d.length)) then s.sendFragment i c it else s
          | none => s
      | none => s)
    ∧ (∀ (stream : Fin 128), Gives (.streamLag t stream) t s0 fun s =>
      let i := stream.val
      let x := s.stream i
      match x.cfg with
      | some c =>
        let old := s.lagItems i c
        let old := if x.itemPos = 0 then old else old.drop 1
        if !x.running || c.lagPolicy != 0 || old.isEmpty then s
        else
          let ids := old.map (·.id)
          let s := s.modRing (s.streamRing c) fun q => { q with items := q.items.map fun it =>
            if (ids.contains it.id) then { it with releasedBy := it.releasedBy ++ [.stream stream] } else it }
          s.modStream i fun x =>
            { x with itemsSkipped := x.itemsSkipped + BitVec.ofNat 64 old.length, skippedThis := x.skippedThis + BitVec.ofNat 32 old.length
                     gap := true, damage := if x.itemPos = 0 then [] else x.damage }
      | none => s)
    ∧ (∀ (stream : Fin 128), Gives (.streamLeaseExpire t stream) t s0 fun s =>
      let x := s.stream stream.val
      if x.running && decide (x.leaseUntil ≤ s.clock) then stop stream.val 2 s else s)

/-- R192, R418, R424, R440, R443: a host link that changes is counted and raises EV_LINK with the port and the new state, an isolated port
holds its link down, streams on a lost link stop with cause 4; QUENCH_N and the fast level of the Rachis assert Quench once per edge. -/
def Obligations.LinksAndQuench : Prop :=
  ∀ (t : Nat) (s0 : State),
    let link (port : Nat) (up : Bool) (s : State) : State :=
      if (s.port port).link = up then s
      else
        let s := s.modPort port fun p => { p with link := up, linkChanges := p.linkChanges + 1 }
        if port < 2 then s.raise 0x505 (w8 port ++ w8 (boolNat up)) else s
    let quench (s : State) : State := ({ s with quench := { s.quench with count := s.quench.count + 1 } }).applyQuench
    (∀ (port : Fin 2), Gives (.hostLinkUp t port) t s0 fun s =>
      if (s.port port.val).isolated || !s.portsClocked then s else link port.val true s)
    ∧ (∀ (port : Fin 2), Gives (.hostLinkDown t port) t s0 fun s => (link port.val false s).stopPortStreams port.val 4)
    ∧ (∀ (up : Bool), Gives (.mgmtLinkChange t up) t s0 fun s => link 2 (up && s.portsClocked) s)
    ∧ (Gives (.quenchNAssert t) t s0 fun s =>
      if s.quench.pin then s else quench { s with quench := { s.quench with pin := true } })
    ∧ (Gives (.quenchNRelease t) t s0 fun s =>
      { s with quench := { s.quench with pin := false } })
    ∧ (∀ (port : Fin 4) (level : Bool), Gives (.rachisFastLevelChange t port level) t s0 fun s =>
      let before := s.rachisQuench
      let s := (s.modRport port.val fun x => { x with fastIn := level }).refreshFast
      if !before && s.rachisQuench then quench s else s)

/-- R31 to R36, R190: the steps of a commit. 20 ms before a second the stages of it are frozen and validated, those that fail are refused; the
switch is armed without the places that did not confirm; the record is written; a domain commit is voted on, and the master decides it. -/
def Obligations.CommitStepRuns : Prop :=
  ∀ (t : Nat) (s0 : State),
    (Gives (.preparationWindowClose t) t s0 fun s =>
      if !s.power.culmUp || !s.power.started || s.time.outage || !s.withinHoldup || s.jr.step.isSome then s
      else
        let second := s.time.vtSec + 1
        let domain := s.commitsFor second true
        let stages := (List.range 256).flatMap fun t =>
          (s.commitsFor second false ++ domain.filter fun g => s.domainGo g second).filter fun g => stageTenant g == t
        let s := s.each (domain.filter fun g => !s.domainGo g second) fun s g => s.refuseDomain g second
        let (due, s) := s.dueHandovers second.toNat
        let mgmt := orderMgmt (s.cal.staged ++ due)
        let s := s.modCal fun k => { k with staged := [] }
        let x : CommitStep :=
          { second, stages, mgmt, autoService := s.power.autoService, armed := false, relabel := s.time.irigRequest }
        let refused := (s.atNextSecond.evalStep x).2
        let s := (s.each refused fun s r => s.refuseStage r.1 r.2).modPower fun p => { p with autoService := false }
        let left := keptStages stages refused
        if left.isEmpty && mgmt.isEmpty && !x.autoService && !x.relabel then s
        else s.modJr fun j => { j with step := some { x with stages := left } })
    ∧ (∀ (silentNodes : Byte) (silentSheaves : U16), Gives (.switchArm t silentNodes silentSheaves) t s0 fun s =>
      match s.jr.step with
      | some x =>
        if x.armed then s
        else
          let silent (p : Nat × Nat) : Bool := !s.power.mainOn || silentNodes.getLsbD p.2 || silentSheaves.getLsbD p.1
          let after := (s.atNextSecond.evalStep x).1
          let ok (g : Stage) : Bool := s.power.mainOn && s.confirmed after (stageCmds g) silent
          let s := s.each (x.stages.filter fun g => !ok g) fun s g => s.refuseStage g .degraded
          let s := s.restageMgmt (x.mgmt.filter fun m => m.reaches silent)
          let left : CommitStep :=
            { x with stages := x.stages.filter ok, mgmt := x.mgmt.filter fun m => !m.reaches silent, autoService := x.autoService && s.power.mainOn
                     armed := true }
          s.modJr fun j => { j with step := if left.stages.isEmpty && left.mgmt.isEmpty && !left.autoService && !left.relabel then none else some left }
      | none => s)
    ∧ (Gives (.commitRecordWrite t) t s0 fun s =>
      match s.jr.switched with
      | some x => if s.jr.awaiting && s.power.culmUp then (s.recordWritten x).serveWaiting else s
      | none => s)
    ∧ (Gives (.domainWindowClose t) t s0 fun s =>
      if !s.power.culmUp || !s.power.started then s
      else
        let second := s.time.vtSec + 1
        s.each (s.rachis.domains.filter fun d => d.second == second && !d.sentReady && !d.refused) fun s d => s.voteDomain second d)
    ∧ (Gives (.domainGoDecision t) t s0 fun s =>
      if !s.power.culmUp || s.rachis.cfg.role ≠ 1 then s
      else
        let second := s.time.vtSec + 1
        s.each (s.rachis.domains.filter fun d => d.second == second) fun s d =>
          let go : Bool := match d.decision with
            | some g => g
            | none => (d.mask &&& ~~~ d.ready) == 0 && !d.refused
          let s := s.modRachis fun r => { r with domains := r.domains.map fun e => if e.is d then { e with decision := some go } else e }
          s.sendAll (s.domainMsg (if go then 5 else 6) d))

/-- R103, R105, R111 to R113, R129, R162, R164, R268: the channels. An edge of a comparator that is enabled, not masked and not at fault is
stamped and offered to its routes; a slice that is detected faulty is replaced; a shadow check decides which slice is at fault. -/
def Obligations.ConversionAndComparators : Prop :=
  ∀ (t : Nat) (s0 : State),
    let offerSlope (d : Descriptor) (rising : Bool) (s : State) : State :=
      s.each ((s.routesOf d.sourceKind d.sourceIndex d.tag).filter fun r => slopeTakes ((s.routeN r).cfgAt d.tag).slope rising)
        fun s r => s.offer r d
    (∀ (c : Fin 128) (rising : Bool) (tag : Vt96), Gives (.comparatorEdge t c rising tag) t s0 fun s =>
      let s := s.tillerNow
      let x := (s.chan c.val).asOf tag
      let masked := x.masked && ((x.before.map fun b => !vtLt tag b.vt).getD true)
      if !(x.fe.enable && x.comp.enable) || masked || x.compFault || s.chanIsolated c.val || (x.compKnown && x.compState == rising)
          || s.looped 0 c.val || s.looped 2 c.val then s
      else
        let s := s.modChan c.val fun x => { x with compState := rising, compKnown := true }
        if !slopeTakes x.comp.slope rising then s
        else
          let (stamped, withdrawn, s) := s.stampEdge c.val tag (x.comp.slope == 2)
          let s := match withdrawn with
            | some (e, tick) => s.coarsen 0 c.val e (s.vtOfTick tick)
            | none => s
          offerSlope (if stamped then s.seed 0 c.val 0 tag else s.seed 0 c.val 1 s.now) rising s)
    ∧ (∀ (c : Fin 128) (high : Bool), Gives (.comparatorMaskEnd t c high) t s0 fun s =>
      let x := s.chan c.val
      if (x.masked || !x.compKnown) && decide (x.maskUntil ≤ s.clock) then
        let s := s.modChan c.val fun x => { x with masked := false, compState := high, compKnown := true }
        if (s.source c.val).running then s.patchMarker c.val high else s
      else s)
    ∧ (∀ (c : Fin 128), Gives (.feSettlingEnd t c) t s0 fun s =>
      (s.modChan c.val fun x => if x.settleUntil ≤ s.clock then { x with settling := false } else x))
    ∧ (∀ (c : Fin 128), Gives (.comparatorFault t c) t s0 fun s =>
      let x := s.chan c.val
      if x.fe.enable && x.comp.enable && !x.compFault then
        (s.modChan c.val fun x => { x with compFault := true }).raise (chanEvent c.val 2) []
      else s)
    ∧ (∀ (c : Fin 128) (slice : Fin 9) (d : SliceDetection), Gives (.sliceFaultDetect t c slice d) t s0 fun s =>
      match d with
      | .shadowDisagreement =>
        s.modChan c.val fun x =>
          match x.spare with
          | some sp =>
            if x.shadowCheck.isSome then x
            else { x.openFault x.shadowPhase s.nextConversion with shadowCheck := some (x.shadowPhase, sp, Fin.ofNat 9 (x.sliceAt x.shadowPhase)) }
          | none => x
      | _ => s.declareFaulty c.val slice d)
    ∧ (∀ (c : Fin 128) (spareFails : Bool) (inServiceFails : Bool), Gives (.shadowCheckDone t c spareFails inServiceFails) t s0 fun s =>
      match (s.chan c.val).shadowCheck with
      | none => s
      | some (phase, sp, inS) =>
        let s := s.modChan c.val fun x =>
          let x := { x with shadowCheck := none }
          if x.faulty.getLsbD (x.sliceAt phase) then x else x.closeFault phase s.nextConversion
        let s := if inServiceFails || !spareFails then s.declareFaulty c.val inS .shadowDisagreement else s
        if spareFails then s.declareFaulty c.val sp .shadowDisagreement else s)
    ∧ (∀ (c : Fin 128), Gives (.shadowSlewEnd t c) t s0 fun s =>
      s.modChan c.val fun x =>
        if x.slewing then { x.newPair s.clock with slewing := false } else x)

/-- R129, R131 to R138, R143, R144, R147: the background calibration. Blocks are counted, a pair is valid under its four conditions; an ensemble
window withholds or takes its terms and proposes coefficients beyond the deadband; the plate temperature is filtered over 16 samples and
starts a run on a drift; a run's window ends; a set that fails its hourly check is reported once. -/
def Obligations.CalibrationTicks : Prop :=
  ∀ (t : Nat) (s0 : State),
    let suggest (c : Fin 128) (trim live : List Terms) (s : State) : State :=
      if (List.range 9).any fun i => beyondDeadband (rowAt live i) (rowAt (s.chan c.val).live i) then s.stageMgmt (.coefficients c trim live)
      else s
    let window (c : Fin 128) (e : WindowEstimate) (s : State) : State :=
      let x := s.chan c.val
      let q := worstQuality x.ensMoments
      let (bits, h) := judge s.cal.cfg.qMin x.ensTotal x.ensValid x.ensOvr q e
      let reasons : Byte := BitVec.ofNat 8 (bits + 64 * boolNat x.spare.isNone + 128 * boolNat (s.nearestValid c.val s.cal.tFilt).isNone)
      let any := h.1 || h.2.1 || h.2.2.1 || h.2.2.2
      let starve := any && (!x.prevWithheld || reasons != x.lastStarved)
      let trim := s.proposeTrim c.val h e
      let s := s.modChan c.val fun x =>
        { x.newWindow s.clock with
          qEnsemble := q, reasons, prevWithheld := any, lastStarved := if starve then reasons else x.lastStarved
          windowsWithheld := if any then x.windowsWithheld + 1 else x.windowsWithheld
          lastAcceptVt := if h.2.2.1 || h.2.2.2 then x.lastAcceptVt else s.time.vtSec
          lastAcceptTemp := if h.2.2.1 || h.2.2.2 then x.lastAcceptTemp else s.cal.tFilt }
      let s := if starve then s.raise (chanEvent c.val 3) (w8 reasons.toNat) else s
      let common := rowAt (s.interpRows c.val s.cal.tFilt) 0
      let s := s.declareLimits c.val ((s.neededFor c.val trim).map fun t => subTerms t common)
      suggest c trim (s.liveFor c.val trim) s
    let pairBlock (qMin : Nat) (flags : BitVec 4) (b : Terms) (e : Estimate) (x : Channel) : Channel :=
      let ok := flags &&& 7 == 0
      let n := x.pairBlocks + boolNat ok
      let total := x.pairTotal + 1
      let bad := x.pairOvr + boolNat (flags.getLsbD 0)
      let m := if ok then x.pairMoments.add b else x.pairMoments
      let (o, g, tau, beta) := pairWithheld qMin total n bad m.quality e
      { x with pairBlocks := n, pairTotal := total, pairOvr := bad, pairMoments := m, pairTerms := e.terms, qPair := m.quality
               pairValid := decide (1000 ≤ n) && !o && !g && !tau, pairBeta := !beta }
    (∀ (c : Fin 128) (flags : BitVec 4) (pair : BlockEnd), Gives (.calBlockEnd t c flags pair) t s0 fun s =>
      let ok := flags &&& 7 == 0
      if !(s.chan c.val).fe.enable || !(s.estimating c.val || s.inRun c.val) then s
      else
        let start := s.blockStart
        let s := s.modChan c.val fun x => if start < x.ensFrom then x else
          { x with ensTotal := x.ensTotal + 1, ensValid := x.ensValid + boolNat ok, ensOvr := x.ensOvr + boolNat (flags.getLsbD 0)
                   ensMoments := if ok then addBlock x.ensMoments pair.block.phases else x.ensMoments }
        let x := s.chan c.val
        match x.spare with
        | some sp =>
          if !s.estimating c.val || x.slewing || x.pairFrozen || decide (start < x.pairFrom) then s
          else
            let s := s.modChan c.val fun x => pairBlock s.cal.cfg.qMin flags pair.block.pair pair.window x
            let y := s.chan c.val
            let rel := subTerms y.spareTerms (rowAt (s.interpRows c.val s.cal.tFilt) 0)
            if y.pairValid && !rel.fits then s.declareFaulty c.val sp .trimLimit else s
        | none => s)
    ∧ (∀ (c : Fin 128) (e : WindowEstimate), Gives (.ensembleWindowEnd t c e) t s0 fun s =>
      if s.inRun c.val then s
      else if s.estimating c.val then window c e s
      else
        let s := s.modChan c.val fun x => x.newWindow s.clock
        if !(s.chan c.val).fe.enable then s else suggest c (s.chan c.val).trim (s.liveFor c.val (s.chan c.val).trim) s)
    ∧ (Gives (.tempSampleTick t) t s0 fun s =>
      let history := lastN 16 (s.cal.history ++ [s.power.plate])
      let t := history.sum / history.length
      let s := s.modCal fun k =>
        { k with history, tFilt := t
                 run := k.run.map fun r => if r.active && !r.measured then { r with tempSum := r.tempSum + t, tempCount := r.tempCount + 1 } else r }
      let all := s.enabledIn (BitVec.allOnes 128)
      if s.cal.cfg.autoRun = 1 ∧ s.cal.run.isNone ∧ s.power.started ∧ all ≠ []
          ∧ (s.cal.cfg.deltaT : Int) < (t - s.cal.tRef).natAbs then
        let start := max s.earliestSecond s.runEarliest
        match s.newEntry { s.workEntry 0 0 0x0403 all.length with state := 0, status := .scheduled, vtSecond := BitVec.ofNat 48 start } with
        | some (j, s) => s.modCal fun k => { k with run := some { start := BitVec.ofNat 48 start, mask := maskOf 128 all, journal := j } }
        | none => s
      else s)
    ∧ (∀ (ests : RunWindow), Gives (.calRunWindowEnd t ests) t s0 fun s =>
      match s.cal.run with
      | some r =>
        if r.active && !r.measured && s.power.opState != .powerFail then
          let s := s.each (ests.ests.filter fun e => r.mask.getLsbD e.1.val) fun s e =>
            s.runChannel r e.1.val e.2 fun k => ests.failing.any fun f => f.1 == e.1 && f.2.val == k
          s.modCal fun k => { k with run := k.run.map fun r => { r with measured := true } }
        else s
      | none => s)
    ∧ (∀ (failing : List (Fin 128 × Fin 5)), Gives (.calSetCheck t failing) t s0 fun s =>
      s.each failing fun s e =>
        let c := e.1.val
        if (s.chan c).badSets.getLsbD e.2.val then s
        else
          let s := s.modChan c fun x => { x with badSets := setBit x.badSets e.2.val true, reasons := setBit x.reasons 7 (setBit x.badSets e.2.val true == BitVec.allOnes 5) }
          let s := s.raise (sheafEvent (sheafOf c) 2) (w8 c ++ w8 e.2.val)
          s.stageMgmt (.setFallback (Fin.ofNat 128 c)))

/-- R148, R150, R255, R257: the lanes of the time-to-digital converters: checks of one lane of a source at a time, their outcome, loops that
unlock and relock, and conversions that form a stamp. -/
def Obligations.AwnLanes : Prop :=
  ∀ (t : Nat) (s0 : State),
    (∀ (source : Fin 132) (lane : Fin 4), Gives (.awnDensityCheck t source lane) t s0 fun s =>
      let x := s.source source.val
      if (List.range 4).any fun l => (vget x.lanes l).state == .densityCheck then s
      else s.modLane source.val lane.val fun y => if y.state = .inService then { y with state := .densityCheck } else y)
    ∧ (∀ (source : Fin 132) (lane : Fin 4) (tapHits : List Nat) (vernHits : List Nat), Gives (.awnCheckDone t source lane tapHits vernHits) t s0 fun s =>
      let i := source.val
      let l := vget (s.source i).lanes lane.val
      if !(l.state == .densityCheck || l.holdCheck) then s
      else
        let s := s.modLane i lane.val fun y => { y with worstFs := BitVec.ofNat 32 (worstTap tapHits) }
        let worst := ((s.source i).lanes.toList.map fun y => y.worstFs.toNat).foldl max 0
        let s := if i < 128 then s.modChan i fun c => { c with awnChecks := c.awnChecks + 1, awnWorstFs := BitVec.ofNat 32 worst } else s
        if tablesBad tapHits vernHits then
          (s.modLane i lane.val fun y => { y with state := .faulty, holdCheck := false }).raise
            (sheafEvent (sourceSheaf i) 3) (w16 i ++ w8 lane.val) [s.sourceOwner i]
        else
          let taps := measuredTaps tapHits
          let verns := measuredVerns vernHits
          let mask := if i < 128 then setBit (0 : BitVec 128) i true else 0
          if l.holdCheck then
            (s.modLane i lane.val fun y =>
              { y with state := .inService, holdCheck := false, relocking := false, tables := some (taps, verns) }).modCal
              fun k => { k with logExtra := k.logExtra ||| 0x20, logExtraMask := k.logExtraMask ||| mask }
          else
            let moved := (List.range 64).any (movedTap (fun m => (taps[m]?).getD 0) (laneTapEnd l i lane.val))
              || (List.range 100).any fun n => movedCode ((verns[n + 1]?).getD 0) (laneVern l i lane.val (n + 1))
            let s := s.modLane i lane.val fun y => { y with state := .inService }
            if moved then s.stageMgmt (.awnTables source lane taps verns) else s)
    ∧ (∀ (source : Fin 132) (lane : Fin 4) (loop : Fin 3), Gives (.awnLoopUnlock t source lane loop) t s0 fun s =>
      let i := source.val
      let l := vget (s.source i).lanes lane.val
      let s := match l.converting with
        | some (tick, edge) => (s.loseEdge i edge).coarsenSource i edge tick
        | none => s
      let s := s.modLane i lane.val fun y =>
        { y with state := if y.state = .faulty then .faulty else .unlocked, converting := none, holdCheck := false }
      if i < 128 then s.raise (chanEvent i 5) (w8 lane.val ++ w8 loop.val)
      else s.raise (sheafEvent (sourceSheaf i) 4) (w16 i ++ w8 lane.val ++ w8 loop.val) [s.sourceOwner i])
    ∧ (∀ (source : Fin 132) (lane : Fin 4) (relocked : Bool), Gives (.awnRelockAttempt t source lane relocked) t s0 fun s =>
      let l := vget (s.source source.val).lanes lane.val
      if l.state == .unlocked && relocked then
        (s.modLane source.val lane.val fun y => { y with state := .relocking, holdCheck := true }).modSource source.val
          fun x => { x with relocks := x.relocks + 1 }
      else s)
    ∧ (∀ (source : Fin 132) (lane : Fin 4) (tap : Fin 64) (count : Fin 100), Gives (.awnConversionDone t source lane tap count) t s0 fun s =>
      let i := source.val
      let l := vget (s.source i).lanes lane.val
      match l.converting with
      | some (tick, edge) =>
        let (sec, j) := s.secTick tick
        let n := if count.val = 0 then 100 else count.val
        let tag := conversionTag sec j (laneTapEnd l i lane.val tap.val) (laneVern l i lane.val n) (s.removedDelay i)
        let s := s.modLane i lane.val fun y => { y with converting := none }
        let s := s.modSource i fun x => if x.state = 2 then x else { x with held := insertHeld (edge, tag, tick) x.held }
        let s := if i < 128 then s.retag 0 i edge fun d => { d with tag } else s
        s.stampsIn i
      | none => s)

/-- R217, R254, R262, R270: the next entry of a stamp queue goes to its ring behind the older edges that are still open; complete_to moves on
but not past the present, an open edge or a queued stamp; an edge of a timing input is stamped under its slope. -/
def Obligations.StampQueuesMove : Prop :=
  ∀ (t : Nat) (s0 : State),
    (∀ (source : Fin 132), Gives (.stampQueueDrain t source) t s0 fun s =>
      let i := source.val
      let s := s.stampsIn i
      if ((s.source i).queue.head?.map (s.source i).headWaits).getD true || !s.stookUp (sourceStook i) then s else s.drainEntry i)
    ∧ (∀ (source : Fin 132) (upTo : Vt96), Gives (.completeToUpdate t source upTo) t s0 fun s =>
      let i := source.val
      let s := s.stampsIn i
      let x := s.source i
      let open_ := x.openEdges ++ x.queue.filterMap fun e => if e.1 = .stamp then some (s.stampVt e.2) else none
      let edge := if x.running then s.now else x.haltedAt
      let limit := open_.foldl (fun a b => if vtLt b a then b else a) (if vtLt edge upTo then edge else upTo)
      if !(x.running && x.queue.any fun e => e.1 == .stop) && vtLt x.completeTo limit then s.modSource i fun x => { x with completeTo := limit } else s)
    ∧ (∀ (input : Fin 4) (rising : Bool) (tag : Vt96), Gives (.tiEdge t input rising tag) t s0 fun s =>
      let i := 128 + input.val
      let x := s.source i
      let s := s.modSource i fun x => { x with level := rising, levelKnown := true }
      if !(x.levelKnown && x.level == rising) && x.ti.enable && !s.tiIsolated input.val && !s.looped 2 i && slopeTakes x.ti.slope rising then (s.stampEdge i tag (x.ti.slope == 2)).2.2 else s)

/-- R163, R165 to R168, R177: the trigger sources fire their routes: an edge at TRIG IN (COARSE within 24 ns of the last stamped edge), a digital
condition, a scheduled instant; pulses leave TRIG OUT and end; the Tiller takes at most one transition, and its timers expire. -/
def Obligations.TriggersAndTiller : Prop :=
  ∀ (t : Nat) (s0 : State),
    let expire (s : State) : State :=
      s.each (List.range 4) fun s i =>
        if s.timerDone i then
          s.modTiller fun p => { p with timerRuns := setBit p.timerRuns i false, expired := setBit p.expired i true, timers := lset p.timers i 0 }
        else s
    let sample (r c : Nat) (d : SampleData) (n : Nat) (s : State) : State :=
      let x := s.chan c
      let fs := s.sampleFs c x.fe s.vtBase n
      let x := x.asOf (vtOfFs fs)
      let w : Forming := { index := c, chan := x, ramp := false, base := s.vtBase, settleEnd := x.settleEnd, data := d }
      if !x.fe.enable || s.chanIsolated c || s.looped 0 c then s
      else
        let v := w.sample n
        let flagged := w.flags n &&& 3 != 0
        (s.digitalOld r c n v flagged fs).digitalNew r c n v flagged fs
    let offerSlope (d : Descriptor) (rising : Bool) (s : State) : State :=
      s.each ((s.routesOf d.sourceKind d.sourceIndex d.tag).filter fun r => slopeTakes ((s.routeN r).cfgAt d.tag).slope rising)
        fun s r => s.offer r d
    (∀ (input : Fin 4) (rising : Bool) (tag : Vt96), Gives (.trigInEdge t input rising tag) t s0 fun s =>
      let s := expire s.tillerDue
      let x := vget s.trigIns input.val
      let takes := (s.routesOf 4 input.val tag).any fun r => slopeTakes ((s.routeN r).cfgAt tag).slope rising
      let free : Bool := match x.lastStamp with
        | some e => atLeastNs (vtSub tag e) 24
        | none => true
      if x.known && x.level == rising then s
      else
        let s := { s with trigIns := vset s.trigIns input.val { level := rising, known := true, lastStamp := if takes && free then some tag else x.lastStamp } }
        offerSlope (if free then s.seed 4 input.val 0 tag else s.seed 4 input.val 1 s.now) rising s)
    ∧ (∀ (route : Fin 32) (hit : DigitalWatch), Gives (.digitalTriggerFire t route hit) t s0 fun s =>
      let s := expire s.tillerDue
      s.each (List.range hit.data.raw.length) fun s j =>
        sample route.val hit.channel.val hit.data (hit.data.start + j) s)
    ∧ (∀ (route : Fin 32), Gives (.scheduledTrigger t route) t s0 fun s =>
      let s := expire s.tillerDue
      let x := s.routeN route.val
      match x.nextInstant with
      | some v =>
        if x.cfg.sourceKind = 6 ∧ vtLe v s.now then
          let s := s.modRoute route.val fun y => y.atInstant (y.fired + 1)
          if s.time.outage then s.modRoute route.val fun y => { y with discarded := y.discarded + 1 }
          else s.offer route.val (s.seed 6 0 0 v)
        else s
      | none => s)
    ∧ (∀ (out : Fin 4), Gives (.trigOutEdge t out) t s0 fun s =>
      let s := expire s.tillerDue
      match (vget s.trigOuts out.val).edgeAt with
      | (v, _) :: rest =>
        if vtLe v s.now then (s.modTrigOut out.val fun x => { x with edgeAt := rest }).startPulse out.val else s
      | [] => s)
    ∧ (∀ (out : Fin 4), Gives (.trigOutPulseEnd t out) t s0 fun s =>
      let s := expire s.tillerDue
      s.modTrigOut out.val fun x => if x.pulseUntil ≤ s.clock then { x with pulse := false } else x)
    ∧ (Gives (.tillerTransition t) t s0 fun s =>
      let s := expire s.tillerDue
      let core := s.coreOf s.clock
      if s.tiller.running && s.power.opState.tillerMay && s.tiller.sampledAt != some core then
        let pick := s.tillerPick
        s.modTiller fun p => { p with sampledAt := some core, due := p.due ++ (pick.map fun e => (core + 2, e)).toList }
      else s)
    ∧ (∀ (timer : Fin 4), Gives (.tillerTimerExpire t timer) t s0 fun s => expire s.tillerDue)

/-- R179, R182, R186 to R191, R553: the Rachis line. Halves of a message that do not meet are discarded, lost alignment takes the link down,
trigger and sync messages are forwarded and act, votes and decisions of domain commits are taken, losses are reported at S. -/
def Obligations.RachisBurstsAndMessages : Prop :=
  ∀ (t : Nat) (s0 : State),
    (∀ (port : Fin 4) (a : BurstA), Gives (.burstAReceive t port a) t s0 fun s =>
      if !s.portLive port.val then s
      else
        let s := if (s.rport port.val).heldA.isSome then s.discardHalf port.val 0 else s
        s.modRport port.val fun x => { x with heldA := some a })
    ∧ (∀ (port : Fin 4), Gives (.burstATimeout t port) t s0 fun s =>
      if (s.rport port.val).heldA.isSome then
        (s.modRport port.val fun x => { x with heldA := none }).discardHalf port.val 0
      else s)
    ∧ (∀ (port : Fin 4) (pair : Bool), Gives (.burstBReceive t port pair) t s0 fun s =>
      let mismatch : Bool := match (s.rport port.val).heldA with
        | none => true
        | some a => a.pair != pair
      if s.portLive port.val && mismatch then s.discardHalf port.val 1 else s)
    ∧ (∀ (port : Fin 4), Gives (.commaAlignmentLoss t port) t s0 fun s => (s.linkDown port.val))
    ∧ (∀ (port : Fin 4) (m : RachisMsg), Gives (.triggerMessage t port m) t s0 fun s =>
      let (ok, s) := s.takeOn port.val m 1
      if !ok then s
      else
        let s := (s.forward port.val m).modRachis fun r => r.hear m
        let d := remoteDescriptor m
        let rs := (List.range 32).filter fun r =>
          let c := (s.routeN r).cfgAt d.tag
          c.sourceKind == 5 && (c.sourceIndex == m.a.origin.toNat || c.sourceIndex == 255)
        s.each rs fun s r => s.offer r d)
    ∧ (∀ (port : Fin 4) (m : RachisMsg), Gives (.syncMessage t port m) t s0 fun s =>
      let (ok, s) := s.takeOn port.val m 2
      if !ok then s
      else
        let s := s.forward port.val m
        let v : Vt96 := ⟨m.a.sec, m.frac⟩
        if s.microAhead v then
          (s.modRachis fun r => { r with syncs := insertInstant v r.syncs }).each (List.range 8) fun s k =>
            if (s.probe k).cfg.syncEnable.getLsbD 1 then s.gateProbe k 3 else s
        else s.raise 0x525 (w8 2 ++ w8 m.a.origin.toNat ++ w16 m.a.id.toNat))
    ∧ (Gives (.rachisSyncInstant t) t s0 fun s =>
      match s.rachis.syncs with
      | v :: rest =>
        if s.tickOfVt v ≤ s.clock then (s.modRachis fun r => { r with syncs := rest }).syncProbes 1 (s.tickOfVt v) else s
      | [] => s)
    ∧ (∀ (port : Fin 4) (m : RachisMsg), Gives (.commitReady t port m) t s0 fun s =>
      let (ok, s) := s.takeOn port.val m 3
      if ok then s.takeVote port.val m fun d => { d with ready := setBit d.ready m.a.origin.toNat true } else s)
    ∧ (∀ (port : Fin 4) (m : RachisMsg), Gives (.commitRefuse t port m) t s0 fun s =>
      let (ok, s) := s.takeOn port.val m 4
      if ok then s.takeVote port.val m fun d => { d with refused := true } else s)
    ∧ (∀ (port : Fin 4) (m : RachisMsg), Gives (.commitGo t port m) t s0 fun s =>
      let (ok, s) := s.takeOn port.val m 5
      if ok && s.rachis.cfg.role == 2 then s.takeDecision port.val m true else s)
    ∧ (∀ (port : Fin 4) (m : RachisMsg), Gives (.commitAbort t port m) t s0 fun s =>
      let (ok, s) := s.takeOn port.val m 6
      if ok && s.rachis.cfg.role == 2 then s.takeDecision port.val m false else s)
    ∧ (∀ (port : Fin 4) (tenant : Fin 256) (second : U48) (member : Fin 32), Gives (.commitLossReport t port tenant second member) t s0 fun s =>
      if s.rachis.cfg.role ≠ 1 then (if (s.rport port.val).state = .up ∧ s.rachis.upstream ≠ some port then s.reportLoss { tenant, second, member } else s)
      else
        let s := s.modRachis fun r => { r with domains := r.domains.map fun d =>
          if d.tenant = tenant ∧ d.second = second then { d with lost := setBit d.lost member.val true } else d }
        let mask := match s.rachis.domains.find? fun d => d.tenant == tenant && d.second == second with
          | some d => d.lost
          | none => setBit (0 : U32) member.val true
        s.raiseAt (vtSecond second) 0x529 (w8 tenant.val ++ zeros 3 ++ w32 mask.toNat))

/-- R179, R181, R183: delay exchanges and time messages: a request each millisecond, its answer with t3 and t2, the delay of a closed exchange,
and the time a follower takes from its upstream port and passes on. -/
def Obligations.RachisDelayAndTime : Prop :=
  ∀ (t : Nat) (s0 : State),
    (∀ (port : Fin 4) (m : RachisMsg) (t2 : Vt96), Gives (.delayRequest t port m t2) t s0 fun s =>
      let p := port.val
      let (ok, s) := s.takeWhole p m
      if s.loopDepth 10 p = 3 then s.takeLoop p m t2
      else if !ok || m.a.type != 7 then s
      else
        let (keep, s) := (s.beginTraining p).meetPeer p m.a.origin
        if keep && s.exchanges p then
          let t3 := vtAdd (s.launchAt p) (unitsOfFs (Config.rachisDelay p false).toNat)
          (s.sendMsg p (s.newMsg 8 0 t3 0 0 0)).sendMsg p (s.newMsg 8 0 (vtAdd t2 (-(unitsOfFs (Config.rachisDelay p true).toNat))) 0 0 0)
        else s)
    ∧ (∀ (port : Fin 4) (m : RachisMsg) (t2 : Vt96) (t4 : Vt96), Gives (.delayResponse t port m t2 t4) t s0 fun s =>
      let p := port.val
      let (ok, s) := s.takeWhole p m
      if !ok || m.a.type != 8 then s
      else
        let (keep, s) := (s.beginTraining p).meetPeer p m.a.origin
        match keep, (s.rport p).t1 with
        | true, some t1 =>
          let quench := s.rachisQuench
          let d := exchangeDelay t1 t2 ⟨m.a.sec, m.frac⟩ (vtAdd t4 (-(unitsOfFs (Config.rachisDelay p true).toNat))) ((s.rachis.cfg.asym[p]?).getD 0)
          ((s.modRport p fun x => { x with t1 := none }).takeDelay p d).rachisQuenchChange quench
        | _, _ => s)
    ∧ (∀ (port : Fin 4) (m : RachisMsg) (arrival : Vt96), Gives (.timeMessage t port m arrival) t s0 fun s =>
      let p := port.val
      let (ok, s) := s.takeOn p m 9
      if !ok then s
      else if s.rachis.cfg.role = 1 then
        ((s.linkDown p).modRport p fun x => { x with state := .standby }).raise 0x527 (w8 p ++ w8 m.a.origin.toNat)
      else
        let s := (s.modRachis fun r => { r with upstream := s.chooseUpstream }).sendLosses
        if s.rachis.upstream = some port then
          let s := s.followTime p m arrival
          if m.a.hops = 7 then s
          else s.each (s.upPorts.filter (· != p)) fun s q =>
            let v := s.launchAt q
            s.sendMsg q { m with a := { m.a with hops := m.a.hops + 1, sec := v.sec }, frac := v.frac } (some p)
        else s)
    ∧ (∀ (port : Fin 4), Gives (.delayExchangeTimer t port) t s0 fun s =>
      let p := port.val
      let loop := s.loopDepth 10 p = 3
      if !s.portLive p && !loop then s
      else
        let s := if loop then s else s.beginTraining p
        if loop || s.exchanges p then
          let t1 := vtAdd (s.launchAt p) (unitsOfFs (Config.rachisDelay p false).toNat)
          let room := decide ((s.rport p).queued s.clock < 64)
          (s.sendMsg p (s.newMsg 7 0 t1 0 0 0)).modRport p fun x => { x with t1 := if room then some t1 else none }
        else s)

/-- R209, R213, R214, R216 to R221, R224, R227, R236, R238, R240: segments, circular and block records and accumulations end, are written to
their rings and go on; a full Ear FIFO ends its stream with an overflow mark; a consumer releases its oldest item. -/
def Obligations.CaptureRecordsClose : Prop :=
  ∀ (t : Nat) (s0 : State),
    (∀ (c : Fin 128) (d : SampleData), Gives (.segmentEnd t c d) t s0 fun s =>
      match s.finishEnded c.val d with
      | some s => s
      | none =>
        s.modChan c.val fun x => ({ x with ear := fillOldest (fun g => s.fillRecord g.record (g.record.stopOutput (some g.len)) d) d x.ear }).endAcquisition)
    ∧ (∀ (c : Fin 128), Gives (.segmentDrained t c) t s0 fun s => s.drainOne c.val)
    ∧ (∀ (c : Fin 128) (d : SampleData), Gives (.circularDone t c d) t s0 fun s =>
      match s.finishEnded c.val d with
      | some s => s
      | none =>
        let x := s.chan c.val
        match x.openRec with
        | some r =>
          if r.kind = 2 ∧ x.postPhase ∧ s.brings r d then
            let s := s.modChan c.val fun x => { x with openRec := none, postPhase := false, capState := 2 }
            s.writeRecord c.val (s.finishStream r d)
          else s
        | none => s)
    ∧ (∀ (c : Fin 128) (d : SampleData), Gives (.blockRecordEnd t c d) t s0 fun s =>
      match s.finishEnded c.val d with
      | some s => s
      | none =>
        let x := s.chan c.val
        match x.openRec with
        | some r =>
          if r.kind = 3 ∧ s.brings r d then
            let s := s.modChan c.val fun x => { x with openRec := none }
            let out := s.finishStream r d
            (s.writeRecord c.val out).openStream c.val r.sync (r.firstOut + out.count.toNat)
          else s
        | none => s)
    ∧ (∀ (c : Fin 128) (d : SampleData), Gives (.earFifoFull t c d) t s0 fun s =>
      let x := s.chan c.val
      match x.openRec with
      | some r =>
        if r.kind = 2 ∨ r.kind = 3 then
          let out := s.finishStream { r with endCause := 1, endSample := some d.stop } d
          let reason := if x.circ.waiting || !x.circ.takesWith out 128 then 3 else 2
          let port := if reason = 2 then sheafOf c.val else 0xFF
          let out := { out with mark := some ((s.newMark c.val reason port).place out) }
          let s := (s.modChan c.val fun x => { x with openRec := none }).writeRecord c.val out
          let s := s.modChan c.val fun x => { x with markRecord := some r.recordId }
          s.stopOverflow c.val reason port (s.outputVt r (max (r.firstOut + 1) (r.firstOut + out.count.toNat) - 1))
        else s
      | none => s)
    ∧ (∀ (c : Fin 128) (start : Nat) (raw : List RawSample), Gives (.accumRecordAdd t c start raw) t s0 fun s =>
      let x := s.chan c.val
      match x.ear.find? Segment.waits with
      | some g =>
        let s := s.modChan c.val fun x => { x with ear := x.ear.erase g }
        if g.record.endSample.isSome then
          s.modChan c.val fun x => match x.copyRec with
            | some r => let (r, sums) := s.addAccum c.val g { start, raw } r x.copy
                        { x with copyRec := some r, copy := sums }
            | none => x
        else
          match x.openRec with
          | some r =>
            let (r, sums) := s.addAccum c.val g { start, raw } r x.sums
            let s := s.modChan c.val fun x => { x with openRec := some r, sums }
            if x.accum.target ≤ r.accumCount.toNat then
              (s.closeAccum c.val 0 (g.first + g.len)).modChan c.val fun x => { x with capState := 2 }
            else s
          | none => s
      | none => s)
    ∧ (∀ (c : Fin 128), Gives (.accumCopyDone t c) t s0 fun s =>
      let x := s.chan c.val
      match x.copyRec.filter fun _ => !x.ear.any fun g => g.waits && g.record.endSample.isSome with
      | some r =>
        let last := s.sampleTick c.val r.fe (r.endSample.getD 1 - 1)
        let r := { r with payload := sumBytes x.copy, count := BitVec.ofNat 32 x.copy.length, tsb := s.tsbOver r.startTick (last + 1) }
        (s.modChan c.val fun x => { x with copyRec := none, copy := [] }).writeRecord c.val r
      | none => s)
    ∧ (∀ (ring : RingId) (consumer : Consumer), Gives (.ringItemRelease t ring consumer) t s0 fun s =>
      (s.modRing ring (·.release consumer)))

/-- R217, R275 to R279, R294, R297: a writer that waits goes on when its ring has room; a gate of a measurement closes once its sources are
complete to its end, and a gate of an engine instance folds the partials of its units into results. -/
def Obligations.GatesAndWaitingWriters : Prop :=
  ∀ (t : Nat) (s0 : State),
    (∀ (ring : RingId), Gives (.ringWriterResume t ring) t s0 fun s =>
      if !(s.ring ring).waiting then s
      else
        match ring with
        | .record c => s.drainOne c.val
        | .circular c => s.drainOne c.val
        | .stamps i => if (s.ring ring).hasRoom 8 then s.modSource i.val fun x => { x with ring := { x.ring with waiting := false } } else s
        | .results i => (if (s.ring ring).hasRoom 1 then s.modRing ring fun q => { q with waiting := false } else s).serveInstance i.val)
    ∧ (∀ (inst : Fin 1024), Gives (.gateClose t inst) t s0 fun s =>
      let k := s.gateKey inst.val
      let s := s.formUnits k
      match s.inst k with
      | some x =>
        match s.gateReady x, s.combiner x with
        | some stop, some e =>
          let ring := resultRing (k % 1024)
          if !x.measure then s
          else if (x.kind ≠ 3 ∨ x.front.nextGate % 2 = 1) ∧ !(s.ring ring).hasRoom 80 then s.modRing ring fun q => { q with waiting := true }
          else
            let g := s.sumGate x (if x.kind = 3 ∧ x.front.nextGate % 2 = 1 then x.f2 else x.f1) stop
            let s := (s.initEngine k e).enterImage e x 2
            let s := s.modInst k fun y => { y with gap := y.gap || (x.partUnits x.front stop).any (·.poisoned) }
            let s := if x.kind = 3 then s.pairGate k x g else s.plainResult k x g
            (s.gateClosed k stop).serveInstance k
        | _, _ => s
      | none => s)
    ∧ (∀ (inst : Fin 1024) (bodies : List Bytes), Gives (.engineGateClose t inst bodies) t s0 fun s =>
      let k := s.gateKey inst.val
      let s := s.formUnits k
      match s.inst k with
      | some x =>
        match s.gateReady x, s.combiner x with
        | some stop, some e =>
          let mine := x.partUnits x.front stop
          let (v, s) := s.free3
          let out := (s.gateBodies x stop bodies v).filter fun b => decide (8 ≤ b.length ∧ b.length ≤ x.resultMax)
          let ring := resultRing (k % 1024)
          if x.measure then s
          else if !(s.ring ring).hasRoom (bodiesSize out) then s.modRing ring fun q => { q with waiting := true }
          else
            let gen := (mine.getLast?.map (·.gen)).getD s.jr.generation
            let first := (mine.head?.map (·.genFirst)).getD gen
            let s := (s.initEngine k e).modEngine e fun y => { y with mem := memWrite y.mem 0x18000 (((mine.map (·.part)).flatten).take 8192) }
            let s := s.enterImage e x 2
            let s := s.modInst k fun x => { x with gap := x.gap || mine.any (·.poisoned) }
            let s := out.foldl (fun s b => (s.pushResult k first gen ((mine.head?.map (·.firstAt.sec.toNat)).getD s.time.vtSec.toNat) b).2) s
            (s.gateClosed k stop).serveInstance k
        | _, _ => s
      | none => s)

/-- R294, R296, R299 to R301, R306, R308: the service calls of a Flail engine on the unit it runs: FETCH, EMIT, END_UNIT, ABORT and UNIT_TIME. -/
def Obligations.EngineServiceCalls : Prop :=
  ∀ (t : Nat) (s0 : State),
    (∀ (e : Fin 512) (g1 : U32), Gives (.fetch t e g1) t s0 fun s =>
      let s := s.pull e.val
      match s.runningUnit e.val with
      | some (_, _, u) =>
        if 1 < g1.toNat then s.softFaultFree e.val
        else
          let bytes := ((s.unitInput u).drop (s.engine e.val).fetchPos).take 8192
          let s := s.modEngine e.val fun y =>
            { y with fetchPos := y.fetchPos + bytes.length, mem := memWrite y.mem (0x18000 + 0x2000 * g1.toNat) bytes }
          s.serviceReturn e.val (BitVec.ofNat 32 bytes.length)
      | none => s)
    ∧ (∀ (e : Fin 512) (g1 : U32) (buffer : Bytes), Gives (.emit t e g1 buffer) t s0 fun s =>
      let s := s.pull e.val
      match s.runningUnit e.val with
      | some (_, x, _) =>
        let n := g1.toNat
        let s := s.modEngine e.val fun y => { y with mem := memWrite y.mem 0x1D000 (buffer.take 4096) }
        if x.resultMax < n then s.serviceReturn e.val 1
        else if n < 8 then s.softFaultFree e.val
        else (s.modEngine e.val fun y => { y with out := y.out ++ [(buffer ++ zeros n).take n] }).serviceReturn e.val 0
      | none => s)
    ∧ (∀ (e : Fin 512) (given : Bytes), Gives (.endUnit t e given) t s0 fun s =>
      let s := s.pull e.val
      match s.runningUnit e.val with
      | some (k, x, u) =>
        let took := s.clock - (s.engine e.val).startedAt
        let (v, s) := s.free3
        let out := s.unitBodies x u (s.engine e.val).out v
        let seen := if x.measure ∨ x.imageSlot = 5 ∨ x.imageSlot = 7 then s.unitSeen x u else []
        let region := x.endRegion
        let s := if x.mode = 0 then s else s.modEngine e.val fun y => { y with mem := memWrite y.mem region.1 (given.take region.2) }
        let taken := memRead (s.engine e.val).mem region.1 region.2
        let s := s.modEngine e.val fun y => { y.idle with unitsDone := y.unitsDone + 1, times := lastN 64 (y.times ++ [took]) }
        let s := s.modInst k fun x =>
          { x with unitsDone := x.unitsDone + 1, consecutivePoisoned := 0, durations := lastN 64 (x.durations ++ [took])
                   serial := if x.mode = 2 then taken else x.serial }
        let s := s.cancelCopies k u.number
        let s := s.modUnit k u.number fun v => { v with accepted := true, bodies := out, part := if x.mode = 1 then taken else [], seen }
        (s.judgeSlow k e.val).serveInstance k
      | none => s)
    ∧ (∀ (engine : Fin 512) (g1 : U32), Gives (.abort t engine g1) t s0 fun s =>
      let s := s.pull engine.val
      (if g1.toNat < 256 then s.softFault engine.val (g1.setWidth 8) else s.softFaultFree engine.val))
    ∧ (∀ (e : Fin 512) (g1 : U32), Gives (.unitTime t e g1) t s0 fun s =>
      let s := s.pull e.val
      match s.runningUnit e.val with
      | some (_, _, u) =>
        let a := g1.toNat
        let inside (lo hi : Nat) : Bool := decide (lo ≤ a ∧ a + 12 ≤ hi)
        if inside 0x10000 0x18000 || inside 0x1C000 0x1E000 || inside 0x1F000 0x20000 then
          (s.modEngine e.val fun y => { y with mem := memWrite y.mem a (vt96Bytes u.firstAt) }).serviceReturn e.val g1
        else s.softFaultFree e.val
      | none => s)

/-- R40, R306, R308 to R310, R582, R610: faults of an engine poison or re-issue its unit, a hardware fault retires it, a slow unit is issued
twice; a node or a sheaf that fails is out and says so in its events. -/
def Obligations.EngineFaultsAndNodes : Prop :=
  ∀ (t : Nat) (s0 : State),
    let fault (e : Nat) (code : Byte) (s : State) : State :=
      match s.runningUnit e with
      | some (k, x, u) =>
        if u.faults = 0 then
          let s := s.modUnit k u.number fun v => { v with issued := v.issued - 1, lastEngine := some e, faults := v.faults + 1 }
          let s := s.modInst k fun y => { y with active := if y.mode = 2 then s.engineAfter x e else y.active }
          (s.modEngine e fun y => { y with reissued := y.reissued + 1 }).modEngine e Engine.idle
        else (s.modEngine e Engine.idle).poisonUnit k u.number code
      | none => s
    let sheafOut (b cause : Nat) (s : State) : State := (s.raise (sheafEvent b 0) (w8 cause)).isolateUnit 3 b 1
    (∀ (engine : Fin 512) (code : Byte), Gives (.engineSoftwareFault t engine code) t s0 fun s =>
      (fault engine.val code (s.pull engine.val)))
    ∧ (∀ (e : Fin 512), Gives (.engineWatchdog t e) t s0 fun s =>
      match s.runningUnit e.val with
      | some (_, x, _) => if x.maxUnitCycles < s.clock - (s.engine e.val).startedAt then fault e.val (s.free.1.setWidth 8) s.free.2 else s
      | none => s)
    ∧ (∀ (e : Fin 512), Gives (.engineHardwareFault t e) t s0 fun s =>
      if (s.engine e.val).retired then s
      else
        let (v, s) := s.free
        let s := (s.giveBackUnit e.val false).modEngine e.val fun y => { y with retired := true, selfTested := false, eccCorrected := v.setWidth 32 }
        let s := s.raise (sheafEvent (engineSheaf e.val) 6) (w16 e.val) [s.engineOwner e.val]
        s.each (s.instancesOf e.val) State.stopWithoutEngines)
    ∧ (∀ (e : Fin 512), Gives (.unitReissue t e) t s0 fun s =>
      match s.runningUnit e.val with
      | some (k, x, u) =>
        let ran := s.clock - (s.engine e.val).startedAt
        if x.mode ≠ 2 ∧ x.durations ≠ [] ∧ !u.wantDup ∧ x.shedFactor * medianNat x.durations ≤ ran then
          (s.modUnit k u.number fun v => { v with wantDup := true }).modEngine e.val fun y => { y with reissued := y.reissued + 1 }
        else s
      | none => s)
    ∧ (∀ (node : Fin 8), Gives (.nodeFault t node) t s0 fun s =>
      if (vget s.nodes node.val).failed then s
      else
        let s := { s with nodes := vmod s.nodes node.val fun x => { x with failed := true } }
        ((s.stopNode node.val).raise 0x501 (w8 node.val)).raise 0x5E2 (w8 4 ++ w8 1 ++ w16 node.val))
    ∧ (∀ (i : Fin 16) (cause : Fin 5), Gives (.sheafFault t i cause) t s0 fun s => (sheafOut i.val cause.val s))
    ∧ (∀ (i : Fin 16), Gives (.sheafThermal t i) t s0 fun s => (sheafOut i.val 1 s))

/-- R322 to R325, R327, R334, R335, R340, R344, R345: the DRAM controllers: refresh stalls for 311 ns and closes every row, temperature moves the
refresh class with its event, requests are accepted and issued clock by clock, reads are clean, corrected or poisoned, the patrol scrub
goes on in ascending address, the write delay drifts. The request issued is the first in the order of level, row hit, acceptance and port
among those that may be; the levels begin at 0.5, 0.75 and 0.9 of the target (waits in fifths of a nanosecond). -/
def Obligations.DramServes : Prop :=
  ∀ (t : Nat) (s0 : State),
    let traffic (k : Nat) (a : DramTraffic) (s : State) : State :=
      let x := { s.ctrl k with offered := (s.ctrl k).offered ++ a.offered.filter fun r => 16 ≤ r.port.val || r.port.val / 2 == k }
      let (x, ports) := (a.clocks.filter fun c => decide (c.at_ ≤ s.clock)).foldl (dramClock s.dram.hammerK) (x, s.dram.ports)
      let (x, ports) := x.accepts ports s.clock
      let s := s.modDram k fun _ => x
      { s with dram := { s.dram with ports } }
    (∀ (k : Fin 8), Gives (.dramRefresh t k) t s0 fun s =>
      s.modDram k.val fun x =>
        { x with stallUntil := s.clock + ticksOfNs 311, openRow := Vector.replicate 32 none, hits := Vector.replicate 32 0
                 closed := Vector.replicate 32 none })
    ∧ (∀ (k : Fin 8) (temp : Int), Gives (.dramTempRead t k temp) t s0 fun s =>
      let was := (s.ctrl k.val).hot
      let s := s.modDram k.val fun x => { x with temp, hot := if 85 < temp then true else if temp ≤ 80 then false else x.hot }
      if (s.ctrl k.val).hot = was then s else s.raiseStook k.val 10 (w16 (s.ctrl k.val).refi))
    ∧ (∀ (k : Fin 8) (offered : List DramRequest) (clocks : List Nat) (banks : List (BitVec 32)) (beats : List BeatDecode), Gives (.dramReadReturn t k offered clocks banks beats) t s0 fun s =>
      if !(s.ctrl k.val).serves then s.each (offered.filter fun r => !r.write) fun s r => s.poisonReader r.user
      else
        let s := traffic k.val { offered, clocks := clocks.zipWith DramClock.mk banks } s
        if s.clock < (s.ctrl k.val).stallUntil then s
        else match (s.ctrl k.val).issued with
        | [] => s
        | r :: rest =>
          let s := s.modDram k.val fun x => { x with issued := rest }
          let s := { s with dram := { s.dram with ports := answered s.dram.ports r s.clock } }
          match transferResult (s.ctrl k.val).marked beats with
          | .clean => s
          | .corrected lane => (s.modDram k.val fun x => if r.written then x else x.writeBack r.addr s.clock).dramCorrected k.val lane
          | .uncorrectable => s.dramUncorrectable k.val r.port.val r.addr r.user)
    ∧ (∀ (k : Fin 8) (beats : List BeatDecode), Gives (.patrolScrubRead t k beats) t s0 fun s =>
      if !(s.ctrl k.val).patrols s.dram.scrubHours s.clock then s
      else
        let a := (s.ctrl k.val).scrubAddr
        let queued := (s.ctrl k.val).writes.any (requestCovers · { port := 28, addr := a, at_ := s.clock })
        let s := s.modDram k.val (·.patrolStep s.dram.hammerK s.clock)
        if queued then s
        else match transferResult (s.ctrl k.val).marked beats with
          | .clean => s
          | .corrected lane => (s.modDram k.val fun x => x.writeBack a s.clock).dramCorrected k.val lane
          | .uncorrectable => s.dramUncorrectable k.val 0xFF a .other)
    ∧ (∀ (k : Fin 8) (lane : Fin 10) (up : Bool), Gives (.dramDriftTrack t k lane up) t s0 fun s =>
      if !(s.ctrl k.val).serves then s
      else
        let d : Int := if up then 1 else -1
        let s := s.modDram k.val fun x => { x with lanes := vmod x.lanes lane.val fun y =>
          { y with drift := y.drift + d, eyes := { y.eyes with writeDelay := y.eyes.writeDelay + BitVec.ofInt 8 d } } }
        let y := vget (s.ctrl k.val).lanes lane.val
        if 16 < y.drift.natAbs && !y.driftRaised then
          (s.modDram k.val fun x => { x with lanes := vmod x.lanes lane.val fun y => { y with driftRaised := true } }).raiseStook k.val 12
            (w8 lane.val ++ leInt 1 y.drift)
        else s)
    ∧ (∀ (x : Dram) (ports : List DramPort) (c : DramClock) (r : DramRequest), x.choose ports c = some r →
        r ∈ x.candidates ports c ∧ ∀ o ∈ x.candidates ports c, lexLt (x.rank ports c.at_ o) (x.rank ports c.at_ r) = false)
    ∧ ∀ wait target n, n < 4 → (n ≤ urgency wait target ↔ [0, 50, 75, 90].getD n 0 * (5 * target) ≤ 100 * wait)

/-- R343, R345, R347, R509, R512: training takes three attempts at most and ends in service, exposed or failed; sweeps complete, or say in
EV_SWEEP_FAULT that they cannot write. -/
def Obligations.DramTrainsAndSweeps : Prop :=
  ∀ (t : Nat) (s0 : State),
    (∀ (k : Fin 8) (lanes : List LaneTraining), Gives (.dramTrainingDone t k lanes) t s0 fun s =>
      let x := s.ctrl k.val
      if x.state ≠ .training ∨ !s.time.locked then s
      else
        let (noise, s) := s.free
        let s := s.modDram k.val fun x =>
          { x with attempts := x.attempts + 1, trainedVt := s.time.vtSec, generator := noise.setWidth 32
                   lanes := vmodAll x.lanes fun i y =>
                     { y with eyes := (lanes[i]?).getD y.eyes, drift := 0, driftRaised := false } }
        if trainingPassed lanes then
          let marks := s.marksLeft x
          let s := s.modDram k.val fun x =>
            { x with marked := marks, state := if marks = 0 then .inService else .exposed, swept := false }
          if x.restoring.isSome then s.logDram (s.dramEntry 5 k.val) else s
        else if (s.ctrl k.val).attempts < 3 then s
        else
          let s := (s.raiseStook k.val 11 (w8 3)).logDram (s.dramEntry 3 k.val)
          match x.restoring with
          | some j =>
            (s.modDram k.val fun x => { x with state := .isolated, restoring := none }).notStarted j .degraded 1
          | none => s.isolateDram k.val 1 .failed)
    ∧ (∀ (k : Fin 8), Gives (.controllerSweepDone t k) t s0 fun s =>
      let x := s.ctrl k.val
      if !x.serves || x.swept then s
      else
        let s := s.modDram k.val fun x => { x with swept := true }
        let others := if x.restoring.isSome then 8192 else 8192 - (s.pagesWith k.val fun p => p.sweeping).length
        let s := { s with own := { s.own with swept := s.own.swept + BitVec.ofNat 64 others } }
        match x.restoring with
        | some j =>
          let s := s.each (s.pagesWith k.val fun p => !p.retired) State.poolPage
          (s.modDram k.val fun x => { x with restoring := none, resumeDrain := true }).completeAll j
        | none => s.each (s.pagesWith k.val fun p => p.sweeping) State.pageSwept)
    ∧ (∀ (what : SweepId) (ok : Bool), Gives (.chaffSweepDone t what ok) t s0 fun s =>
      match what with
      | .page p =>
        if !(s.page p.val).sweeping || !(s.ctrl (p.val / 8192)).serves then s
        else if ok then s.pageSwept p.val
        else s.raiseStook (p.val / 8192) 13 (w32 p.val)
      | .ear c =>
        if !(s.chan c.val).earSweep then s
        else if ok then (s.modChan c.val fun x => { x with earSweep := false }).channelSwept c.val
        else s.raise (sheafEvent (sheafOf c.val) 13) (w32 0xFFFFFFFF ++ w8 c.val)
      | .accum c =>
        if !(s.chan c.val).accSweep then s
        else if ok then (s.modChan c.val fun x => { x with accSweep := false }).channelSwept c.val
        else s.raise (sheafEvent (sheafOf c.val) 13) (w32 0xFFFFFFFF ++ w8 c.val))

/-- R361, R366, R367, R397: an open block is flushed after flush_ms; a lane that is done hands its block on, one that mismatches stores it raw or
hands it to the next lane; a read block that fails its CRC is damage. -/
def Obligations.WinnowBlocks : Prop :=
  ∀ (t : Nat) (s0 : State),
    (∀ (job : Fin 1024), Gives (.winnowFlushTimer t job) t s0 fun s =>
      let s := s.serveArchive
      match s.job job.val with
      | some j =>
        if j.open_ ≠ [] ∧ j.openSince + ticksOfMs s.winnow.flushMs ≤ s.clock then (s.flushJob job.val).serveArchive else s
      | none => s)
    ∧ (∀ (lane : Fin 4) (mismatch : BlockFaults), Gives (.winnowBlockDone t lane mismatch) t s0 fun s =>
      let s := s.serveArchive
      match (s.wlane lane.val).block with
      | some b =>
        let (v, s) := s.free
        let (type, bytes) := b.stored (v.toNat % classWidth b.cls)
        (s.verifyBlock lane.val b type bytes mismatch).serveArchive
      | none => s)
    ∧ (∀ (lane : Fin 4) (recordId : U48) (offset : Nat) (packed : Bool) (block : Bytes), Gives (.winnowReadDecode t lane recordId offset packed block) t s0 fun s =>
      (if blockSound packed block then s else s.addDamage recordId [(offset, p16 block 4 + 1)] 1))

/-- R378, R380, R386, R388, R389, R391, R392, R394 to R398: programs, erases, codeword reads, the scrub of Glean, checkpoints, trials of benched
dies, the seal of a record, and a job whose ring has stalled under policy 2. -/
def Obligations.GranaryWritesAndReads : Prop :=
  ∀ (t : Nat) (s0 : State),
    let bad (d block : Nat) (s : State) : State :=
      let c := dieCassette d
      if (s.die d).bad.contains block then s else
      let s := (s.modDie d fun x => { x with badBlocks := x.badBlocks + 1, bad := block :: x.bad }).moveBlock d block
      if 140 < (s.die d).badBlocks ∧ !(s.die d).failed then
        let s := (s.modDie d fun x => { x with failed := true }).raise 0x544 (w8 d)
        if 8 < s.failedDies c then
          (s.modCassette c fun x => { x with state := .failed }).restartJobsOn c
        else s
      else s
    let rebuilds (d block : Nat) (group : List (Fin 128 × Bool)) (s : State) : Bool := group.all (·.2) && !s.dieLost d block group
    (∀ (die : Fin 128) (block : Fin 2800) (erase : Bool) (ok : Bool) (micros : Nat), Gives (.granaryProgramDone t die block erase ok micros) t s0 fun s =>
      let d := die.val
      let c := dieCassette d
      if !ok then (bad d block.val s).serveArchive
      else if erase then (((s.eraseBlock d block.val).modCassette c fun x => { x with eraseTotal := x.eraseTotal + 1 }).wearCheck c).serveArchive
      else
        let s := s.modCassette c fun x =>
          { x with times := lastN 256 (x.times ++ [micros]), reads := adel x.reads (blockKey d block.val) }
        (s.modDie d fun x => { x with times := lastN 64 (x.times ++ [micros]) }).benchCheck d)
    ∧ (∀ (job : Fin 1024), Gives (.granaryRecordSeal t job) t s0 fun s => ((s.serveArchive.sealJob job.val).serveArchive))
    ∧ (∀ (id : U48) (die : Fin 128) (block : Fin 2800) (outcome : CodewordOutcome), Gives (.granaryRead t id die block outcome) t s0 fun s =>
      let d := die.val
      let s := s.countReads d block.val 1
      match outcome with
      | .uncorrectable word off len group =>
        if rebuilds d block.val group s then
          ((s.modCassette (dieCassette d) fun x => { x with repaired := x.repaired + 1 }).moveBlock d block.val).raise 0x542 (w48 id.toNat)
            ((s.archived id).map (·.entry.tenant.val)).toList
        else
        let extent := match s.archived id with
          | some r => if r.laid.isEmpty then (off, len) else r.extent word
          | none => (off, len)
        if extent.2 = 0 then s else s.addDamage id [extent] (if (s.die d).failed || s.dieLost d block.val group then 3 else 0)
      | _ => s)
    ∧ (∀ (die : Fin 128) (block : Fin 2800) (worstBits : Nat) (shifted : Bool), Gives (.gleanBlockScrub t die block worstBits shifted) t s0 fun s =>
      let c := dieCassette die.val
      let key := blockKey die.val block.val
      let s := s.countReads die.val block.val (if (s.cassette c).tlc then 3072 else 1024)
      let s := if shifted || decide (s.granary.refreshBits ≤ worstBits) then
          (s.moveBlock die.val block.val).modCassette c fun x => { x with reads := adel x.reads key }
        else s
      (s.gleanMoves c).modCassette c fun x =>
        let queued := x.gleanQueue.contains key
        if queued then { x with gleanQueue := x.gleanQueue.erase key }
        else { x with scrubbed := key, scrubPassAt := if key ≤ x.scrubbed then s.clock else x.scrubPassAt })
    ∧ (∀ (cassette : Fin 2), Gives (.catalogueCheckpoint t cassette) t s0 fun s => (s.modCassette cassette.val fun x =>
        if x.powered then { x with changes := 0, checkpointAt := s.clock } else x))
    ∧ (∀ (die : Fin 128) (medianMicros : Nat), Gives (.benchTrial t die medianMicros) t s0 fun s =>
      s.modDie die.val fun x =>
        if x.benched && decide (2 * medianMicros ≤ 3 * medianNat (s.cassette (dieCassette die.val)).times) && !benchedThrice x.benchTimes then
          { x with benched := false } else x)
    ∧ (∀ (job : Fin 1024), Gives (.archiveStallTimeout t job) t s0 fun s =>
      let k := job.val
      let s := s.serveArchive
      match s.job k with
      | some j =>
        if j.fullPolicy = 2 ∧ j.holding ∧ j.stallSince + ticksOfMs j.stallMs ≤ s.clock then
          let n := j.taken.length + (s.jobItems k j).length
          let s := s.releaseTaken k { j with taken := j.taken ++ (s.jobItems k j).map (·.id) }
          let s := (s.restartRecord k).modJob k fun j => { j with skipped := j.skipped + BitVec.ofNat 32 n }
          if j.skippedSec = some s.time.vtSec then s
          else (s.modJob k fun j => { j with skippedSec := some s.time.vtSec }).raise 0x541 (w16 k ++ zeros 2 ++ w32 n) [j.owner.val]
        else s
      | none => s)

/-- R400, R404 to R406, R414, R415, R597, R644: a cassette is fitted, powered and identified, removed, scanned, formatted, evacuated and
retired. -/
def Obligations.CassettesComeAndGo : Prop :=
  ∀ (t : Nat) (s0 : State),
    (∀ (cassette : Fin 2), Gives (.cassetteInsert t cassette) t s0 fun s =>
      s.modCassette cassette.val fun x => if x.present then x else { x with present := true, insertedAt := s.clock })
    ∧ (∀ (cassette : Fin 2) (identity : CassetteIdentity), Gives (.cassettePowerOn t cassette identity) t s0 fun s =>
      let c := cassette.val
      let x := s.cassette c
      if !x.present || x.powered || x.state != .absent || decide (s.clock < x.insertedAt + ticksOfMs 500) || s.time.lockCount == 0 then s
      else
        let back (e : CatEntry) : CatEntry := { e with offline := false }
        let again : CassetteState → Cassette → Cassette := fun st y =>
          if st = .scanning then { y with state := .scanning } else if st = .formatting then { y with state := .unformatted } else y.enter
        let fresh : Cassette := { present := true, powered := true, insertedAt := x.insertedAt, scrubPassAt := s.clock, checkpointAt := s.clock }
        match identity, x.resume with
        | .known _ true _ _ _, some st =>
          let s := if st = .scanning then s else s.modEntries (fun e => e.cassette == cassette) back
          (s.modCassette c fun y => { again st y with powered := true, resume := none, scrubPassAt := s.clock, checkpointAt := s.clock }).serveArchive
        | .blank, _ => (s.freshDies c).modCassette c fun _ => { fresh with state := .unformatted }
        | .unreadable, _ => (s.freshDies c).modCassette c fun _ => { fresh with state := .failed }
        | .known clean same tlc worn records, _ =>
          let x : Cassette :=
            { fresh with tlc, worn, eraseTotal := (Config.cassetteErase c).toNat * 134400
                         nextStripe := (records.map fun e => e.firstStripe.toNat + 1).foldl max 0 }
          let s := (if same then s else s.freshDies c).bringRecords cassette same records
          if 8 < s.failedDies c then s.modCassette c fun _ => { x with state := .failed }
          else if clean then (s.modCassette c fun _ => x.enter).serveArchive
          else ((s.modCassette c fun _ => { x with state := .scanning }).recordsOffline c).serveArchive)
    ∧ (∀ (cassette : Fin 2), Gives (.cassetteRemove t cassette) t s0 fun s =>
      let c := cassette.val
      let x := s.cassette c
      if !x.present then s
      else
        let quiet := x.state == .absent || x.state == .unformatted || x.state == .retired
        let s := s.recordsOffline c
        let s := s.withEntry x.formatJournal fun s j => s.partialEntry j 1
        let s := s.withEntry (x.evacuation.map (·.1)) fun s j => s.partialEntry j 1
        let s := s.withEntry x.retireJournal fun s j => s.partialEntry j 1
        let s := s.modCassette c fun _ => {}
        let s := if quiet then s else s.raise 0x547 (w8 c ++ w8 0)
        (s.restartJobsOn c).serveArchive)
    ∧ (∀ (cassette : Fin 2) (torn : List U48), Gives (.cassetteScanDone t cassette torn) t s0 fun s =>
      let c := cassette.val
      if (s.cassette c).state ≠ .scanning then s
      else
        let s := s.each torn fun s id =>
          let (a, s) := s.free
          let (b, s) := s.free
          s.addDamage id [(a.toNat, b.toNat % 2 ^ 32)] 2
        ((s.modCassette c Cassette.enter).modEntries (fun e => e.cassette.val == c) fun e => { e with offline := false }).serveArchive)
    ∧ (∀ (cassette : Fin 2), Gives (.cassetteFormatDone t cassette) t s0 fun s =>
      let c := cassette.val
      let x := s.cassette c
      match x.state, x.formatJournal with
      | .formatting, some j =>
        let s := (s.deleteRecords fun e => e.cassette == cassette && !e.offline).completeAll j
        let s := s.each (cassetteDies c) fun s d => s.modDie d fun y => { y with benched := false, benchTimes := [], times := [] }
        let s := s.modCassette c fun x =>
          { x with state := .inService, tlc := x.formatTlc, formatJournal := none, eraseTotal := x.eraseTotal + 134400
                   times := [], reads := [], gleanQueue := [], worn := false, stripes := [], openStripe := none, nextStripe := 0, writes := [] }
        (s.wearCheck c).serveArchive
      | _, _ => s)
    ∧ (∀ (cassette : Fin 2), Gives (.evacuationDone t cassette) t s0 fun s =>
      let c := cassette.val
      match (s.cassette c).evacuation with
      | some (j, all) =>
        let (n, s) := s.copyRecords c (s.evacuees c all) 0
        ((s.addUnits j n).completeEntry j).modCassette c fun x => { x with evacuation := none }
      | none => s)
    ∧ (∀ (cassette : Fin 2), Gives (.cassetteRetireDone t cassette) t s0 fun s =>
      let c := cassette.val
      match (s.cassette c).retireJournal with
      | some j =>
        let s := (s.checkpoint c).completeAll j
        let s := s.modCassette c fun x => { x with state := .retired, powered := false, retireJournal := none }
        let s := s.recordsOffline c
        (s.restartJobsOn c).serveArchive
      | none => s)

/-- R541, R542, R639: a waiting run begins to play at its start tick, ends after its last vector with EV_DRILL_DONE, and stops when VDRILL
leaves its range. -/
def Obligations.DrillRuns : Prop :=
  ∀ (t : Nat) (s0 : State),
    (∀ (pins : List PinSample), Gives (.drillRunStart t pins) t s0 fun s =>
      if s.drill.state = .waiting ∧ s.drill.waitRoute = none ∧ s.drill.startTick ≤ s.clock then
        (s.modDrill fun x => { x with state := .playing, pins }).drillUpTo
      else s)
    ∧ (Gives (.drillRunEnd t) t s0 fun s =>
      let s := s.drillUpTo
      let x := s.drill
      if x.state = .playing ∧ x.total = some x.played.toNat ∧ x.tickOf x.played.toNat ≤ s.clock then
        (s.modDrill fun x => { x with state := .done }).raiseAt (s.vtOfTick (x.tickOf (x.played.toNat - 1))) 0x5F0
          (w32 x.runId.toNat ++ w32 (min x.fails.toNat (2 ^ 32 - 1)))
      else s)
    ∧ (Gives (.vdrillOutOfRange t) t s0 fun s => (s.abortDrill 3).modDrill fun x => { x with vdrillOk := false })
    ∧ (Gives (.vdrillInRange t) t s0 fun s => s.modDrill fun x => { x with vdrillOk := true })

/-- R76, R548, R553 to R555, R557: a probe locks, loses its lock, searches again, opens its output once every gate cause has cleared, and starts
at a rising edge of SYNC; a profile point stands. -/
def Obligations.ProbesLockGateAndSync : Prop :=
  ∀ (t : Nat) (s0 : State),
    (Gives (.syncEdge t) t s0 fun s =>
      let s := if s.time.snapOnSync then s.snapAt s.now else s
      s.syncProbes 0 (s.grandTick (s.clock + 125)))
    ∧ (∀ (probe : Fin 8) (band : BitVec 7), Gives (.probeLock t probe band) t s0 fun s =>
      let x := s.probe probe.val
      if x.cfg.mode = 0 ∨ x.locked ∨ !s.time.locked then s
      else
        let s := (if x.phasePending then s else s.losePhase probe.val).modProbe probe.val fun y => { y with locked := true, band }
        (s.ungateProbe probe.val 2).ungateProbe probe.val 1)
    ∧ (∀ (probe : Fin 8), Gives (.probeUnlock t probe) t s0 fun s =>
      if !(s.probe probe.val).locked then s
      else
        let s := (s.modProbe probe.val fun y => { y with locked := false }).losePhase probe.val
        (s.raise 0x5F8 (w8 probe.val)).gateProbe probe.val 2)
    ∧ (∀ (probe : Fin 8), Gives (.probeRelockRetry t probe) t s0 fun s =>
      s.modProbe probe.val fun x => if x.cfg.mode ≠ 0 ∧ !x.locked then { x with relocks := x.relocks + 1 } else x)
    ∧ (∀ (probe : Fin 8), Gives (.probeSyncGateEnd t probe) t s0 fun s =>
      let x := s.probe probe.val
      if !x.gate.getLsbD 3 || decide (s.clock < x.syncTick + 31250) || !x.phasePending then s
      else
        let l := (List.range 8).filter fun k =>
          let y := s.probe k
          y.gate.getLsbD 3 && y.phasePending && y.syncTick == x.syncTick && y.syncSource == x.syncSource
        let s := s.each l fun s k =>
          let more := (s.probe k).cfg.syncEnable.getLsbD 1 && !s.rachis.syncs.isEmpty
          let s := if more then s else s.ungateProbe k 3
          s.modProbe k fun y => if y.gate = 0 then { y with phaseValid := true, phasePending := false } else y
        s.raiseAt x.lastSync 0x5FA (w8 (maskOf 8 l).toNat ++ w8 x.syncSource))
    ∧ (∀ (probe : Fin 8), Gives (.probeGateOpen t probe) t s0 fun s =>
      let x := s.probe probe.val
      if x.gate ≠ 0 ∨ x.opened ∨ !x.locked then s
      else
        let p := s.phaseOf probe.val s.clock
        let s := s.modProbe probe.val fun y =>
          { y with opened := true, openPhase := p.ceil, phaseValid := y.phaseValid || y.phasePending, phasePending := false }
        s.raise 0x5F9 (w8 probe.val ++ w8 1 ++ w8 0))
    ∧ (∀ (probe : Fin 8), Gives (.probeProfilePoint t probe) t s0 fun s =>
      (s.modProbe probe.val fun x =>
        if x.cfg.mode = 2 then
          { x with point := (x.standing s.now).1, cycles := BitVec.ofNat 64 (x.standing s.now).2.1, sweeping := (x.standing s.now).2.2 }
        else { x with point := 0, sweeping := false }))

/-- R576 to R578, R591: a step of the self-test run in progress is counted, its failure reported and acted on, and the last one ends the run. -/
def Obligations.SelfTestSteps : Prop :=
  ∀ (t : Nat) (s0 : State),
    (∀ (step : TestStep), Gives (.selfTestStepDone t step) t s0 fun s =>
      let x := s.judgeStep step
      match s.test.runs.getLast?, s.test.active with
      | some r, true =>
        let kind := x.unitKind.val
        let i := x.index.toNat
        let skip := r.skips x
        let failed := !skip && x.outcome == .fail
        let unit := (kind, i)
        let slice := kind == 1 && failed && !((s.chan (i / 9)).retired.map (·.val) == some (i % 9))
        let s := s.modRun fun y =>
          { y with stepsFailed := if failed then y.stepsFailed + 1 else y.stepsFailed
                   fails := if failed then y.fails ++ [x] else y.fails
                   seen := if y.seen.contains unit then y.seen else y.seen ++ [unit]
                   badSlices := if slice then y.badSlices ++ [i / 9] else y.badSlices
                   summaries := lmod y.summaries kind fun z =>
                     { tested := if y.seen.contains unit then z.tested else z.tested + 1
                       run := if skip then z.run else z.run + 1
                       failed := if failed then z.failed + 1 else z.failed
                       skipped := if skip then z.skipped + 1 else z.skipped } }
        let s := s.addUnits r.journal 1
        let s := if failed && r.stepsFailed == 0 then
            s.raise 0x5E1 (w32 r.runId.toNat ++ w8 kind ++ w8 x.step.val ++ w16 i)
          else s
        let s := if skip || x.outcome == .notJudged then s else s.stepEffect r x failed
        if x.last || (failed && r.stopOnFail) then s.endRun { r with stepsFailed := if failed then r.stepsFailed + 1 else r.stepsFailed }
        else s
      | _, _ => s)

/-- R41, R597, R598, R601, R616, R618, R622: the block is released from reset with the cause of its last full restart, start-up ends in recovery,
the Culm restarts on a watchdog and comes back, firmware that does not start reverts. -/
def Obligations.StartUpAndRestarts : Prop :=
  ∀ (t : Nat) (s0 : State),
    let restart (cause : Nat) (s : State) : State :=
      if !s.power.culmUp || s.power.opState = .powerFail then s
      else
        let s := s.abortRun.modPower fun p =>
          { p with culmUp := false, culmCause := BitVec.ofNat 4 cause, culmRestarts := satInc p.culmRestarts, bootCount := p.bootCount + 1 }
        let s := { s with tenants := vmodAll s.tenants fun _ t => { t with held := [] } }
        let s := s.modRachis fun x => { x with domains := [] }
        s.modJr fun j => { j with waiting := [], step := j.step.filter (·.armed) }
    let watchdog (cause : Nat) (s : State) : State :=
      if !s.power.culmUp then s else restart cause (s.modFw fun w => { w with watchdogs := (s.clock :: w.watchdogs).take 3 })
    (∀ (modId : BitVec 5), Gives (.startupRelease t modId) t s0 fun s =>
      if s.power.released then s
      else
        let report := s.power.reports.head?
        let cause := (report.map (·.cause)).getD 0
        let s := s.modPower fun p =>
          { p with released := true, culmUp := true, mainOn := true, pwrFailPin := false, bootCount := p.bootCount + 1
                   fullCause := BitVec.ofNat 4 cause, restartTimes := (s.clock :: p.restartTimes).take 3 }
        let s := s.modTime fun t => { t with secStart := s.clock, searching := true, utcValid := true }
        let s := s.modRachis fun x => { x with modId }
        let s := s.modCal fun k => { k with tFilt := s.power.plate }
        let s := { s with chans := vmodAll s.chans fun c x => { x with live := s.liveFor c [] } }
        let s := s.firmwareUp
        let s := match report with
          | some r => s.raiseAt r.t 0x5C0 (w8 r.cause ++ w8 (boolNat r.complete) ++ w16 0 ++ w32 r.endUs.toNat)
          | none => s
        s.raise 0x5C1 (w8 cause ++ zeros 3 ++ w32 s.power.bootCount.toNat))
    ∧ (Gives (.startupEnd t) t s0 fun s =>
      if !s.power.released || s.power.opState != .startUp then s
      else
        let s := if s.time.locked then s
          else ((s.modTime fun t => { t with freqSource := 3 }).modPower fun p => { p with lateLock := true }).raise 0x510 []
        let auto := s.mayAutoService
        let s := s.each (List.range 32) fun s r => s.modRoute r fun x =>
          if x.cfg.sourceKind = 6 then x.atInstant (x.cfg.instantsUpTo s.now) else x
        (s.modPower fun p => { p with started := true, endedAt := s.clock, autoService := auto }).enterState .recovery)
    ∧ (Gives (.commandCoreWatchdog t) t s0 fun s => watchdog 8 s)
    ∧ (Gives (.managementCoreWatchdog t) t s0 fun s => watchdog 9 s)
    ∧ (Gives (.culmRestartComplete t) t s0 fun s =>
      if s.power.culmUp || !s.power.released || s.power.opState == .powerFail then s
      else
        let waiting := s.jr.outbox
        let s := ((s.modJr fun j => { j with outbox := [] }).modPower fun p => { p with culmUp := true }).raise 0x500 (w32 s.power.bootCount.toNat)
        let s := s.modJr fun j => { j with outbox := j.outbox ++ waiting }
        let s := { s with tenants := vmodAll s.tenants fun _ t => { t with culmRestarted := true } }
        let missed (t : Nat) (i : Pending) : Bool :=
          if i.isCommit then decide (s.tickOfSecond i.second ≤ s.clock + ticksOfMs 20) && !s.inStep t i
          else decide (s.tickOfSecond i.second ≤ s.clock)
        (s.failItems .fault missed).firmwareUp)
    ∧ (Gives (.firmwareRevert t) t s0 fun s =>
      let w := s.power.fw
      if w.otherState ≠ 2 ∨ w.journal.isNone ∨ !w.failed s.clock then s
      else
        let s := s.modFw fun w =>
          { w with activeSlot := w.activeSlot + 1, otherState := 3, otherVersion := w.activeVersion, activeVersion := w.otherVersion
                   activation := false, watchdogs := [] }
        let s := s.withEntry w.journal fun s j => s.partialEntry j 1
        (s.raise 0x5C7 (w8 s.power.fw.activeSlot.toNat)).restartAt w.level 7)

/-- R601, R610, R613 to R615: power-fail handling by its cause, and the stop of the main domain. -/
def Obligations.PowerFails : Prop :=
  ∀ (t : Nat) (s0 : State),
    let fail (cause : Nat) (s : State) : State :=
      if !s.power.released || s.power.opState = .powerFail then s
      else
        let lost := s.countItems s.beyondHoldup
        let report : PfReport :=
          { cause, prior := s.power.opState, holdupReady := s.power.holdupReady, t := s.now, lastGeneration := s.jr.recGeneration
            lastCommitSec := s.jr.recSecond, holdupMs := s.power.holdupMs, notStarted := BitVec.ofNat 32 lost }
        let s := s.modPower fun p =>
          { p with opState := .powerFail, reports := (report :: p.reports).take 4, armingCaptures := s.armedCaptures
                   armingStamps := s.armedStamps, pfTick := s.clock, pfSealed := s.granary.catalogue.length, autoService := false }
        let s := (s.abortDrill 2).abortTest.haltTiller
        let s := (s.gateAll 4).each (List.range 8) fun s k => s.modProbe k fun y => { y with phaseValid := false }
        let s := { s with tenants := vmodAll s.tenants fun _ t => { t with held := [] } }
        let s := (s.modJr fun j => { j with waiting := [] }).archivePowerFail
        let s := s.free.2.modReport fun r => { r with flushUs := BitVec.ofNat 32 (s.free.1.toNat % 101) }
        let s := s.failItems .fault s.beyondHoldup
        s.modTime fun x => { x with savedVtSec := s.recordedSecond }
    (Gives (.powerFail t) t s0 fun s => fail 2 (s.modPower fun p => { p with pwrFailPin := true }))
    ∧ (Gives (.resetNFall t) t s0 fun s => fail 4 s)
    ∧ (Gives (.inputUndervoltage t) t s0 fun s => fail 1 s)
    ∧ (Gives (.inputOvervoltage t) t s0 fun s => fail 3 s)
    ∧ (Gives (.inputOvercurrent t) t s0 fun s => fail 10 s)
    ∧ (Gives (.thermalShutdown t) t s0 fun s => fail 6 s)
    ∧ (Gives (.mainDomainDown t) t s0 fun s =>
      if s.power.opState ≠ .powerFail ∨ !s.power.mainOn then s
      else
        let s := ((s.modPower fun p => { p with mainOn := false }).modReport fun r => { r with mainDownUs := s.sinceCut }).stopMain
        match s.jr.step with
        | some x =>
          if x.armed then s
          else ((s.countNotStarted (s.countItems s.inStep)).failItems .degraded s.inStep).modJr fun j => { j with step := none }
        | none => s)

/-- R593, R603, R606, R607, R610, R612, R629: the protection scan, the housekeeping pass, the thermal warning, the blade imbalance, a faulty plate
sensor and the measured hold-up. -/
def Obligations.HousekeepingAndProtection : Prop :=
  ∀ (t : Nat) (s0 : State),
    (∀ (codes : List Int), Gives (.protectionScan t codes) t s0 fun s =>
      let at_ (i : Nat) : Int := (codes[i]?).getD 0
      let a := at_ 3
      let b := at_ 4
      let la := codeClipped 12 a
      let lb := codeClipped 13 b
      let limit : BitVec 2 := BitVec.ofNat 2 (boolNat la + 2 * boolNat lb)
      let near := decide (((a - b) * 625).natAbs ≤ 50000)
      let diff := if near then none else s.power.sensorDiff
      let iin := at_ 1 * 25
      let p := s.power
      let plate :=
        if la && lb then p.plate
        else if la || diff == some 0 && !lb then tempOf b
        else if lb || diff == some 1 then tempOf a
        else (a + b) * 625 / 200
      let high := if la && lb then p.plateHigh else if la then tempOf b else if lb then tempOf a else max (tempOf a) (tempOf b)
      let alarm (s : State) (i : Nat) (c : Int) : State :=
        if limit.getLsbD i && !p.sensorLimit.getLsbD i then s.raise 0x5C5 (w8 255 ++ w8 (12 + i) ++ leInt 2 c) else s
      let s := alarm (alarm s 0 a) 1 b
      s.modPower fun p =>
        { p with vinMv := BitVec.ofInt 32 (at_ 0 * 5), iinMa := BitVec.ofInt 32 iin, plate0 := tempOf a, plate1 := tempOf b, plate
                 plateHigh := high, sensorLimit := limit, sensorDiff := diff, sheafTemps := (List.range 16).map fun k => tempOf (at_ (5 + k))
                 thermalWarn := p.thermalWarn && decide (7000 ≤ high), bladeRaised := p.bladeRaised && decide (20000 < iin) })
    ∧ (∀ (codes : List (List Int)), Gives (.hkReportingPass t codes) t s0 fun s =>
      (s.each (List.range 32) (·.hkEntry codes ·)).modPower fun p => { p with passCount := p.passCount + 1 })
    ∧ (Gives (.thermalWarn t) t s0 fun s =>
      if s.power.thermalWarn then s
      else (s.modPower fun p => { p with thermalWarn := true }).raise 0x5C4 (leInt 2 s.power.plateHigh))
    ∧ (∀ (code : Int), Gives (.bladeImbalance t code) t s0 fun s =>
      if s.power.bladeRaised then s
      else (s.modPower fun p => { p with bladeRaised := true }).raise 0x5C6 (leInt 2 code))
    ∧ (Gives (.plateSensorFault t) t s0 fun s =>
      let p := s.power
      if p.sensorDiff.isSome || p.sensorLimit != 0 then s
      else
        let d (v : Int) : Nat := (2 * v - s.sheafMedian2).natAbs
        let i := if d p.plate1 < d p.plate0 then 0 else 1
        let bad := if i = 0 then p.plate0 else p.plate1
        let good := if i = 0 then p.plate1 else p.plate0
        (s.modPower fun p => { p with sensorDiff := some i, plate := good }).raise 0x5C5 (w8 255 ++ w8 (12 + i) ++ leInt 2 (bad * 100 / 625)))
    ∧ (∀ (ms : U16), Gives (.holdupMeasure t ms) t s0 fun s =>
      let s := s.modPower fun p => { p with holdupMs := ms, holdupAt := s.clock, holdupReady := decide (60 ≤ ms.toNat) }
      if ms.toNat < 60 then s.raise 0x5C3 (w16 ms.toNat) else s)

/-! ## Commands in frames (chapter 13) -/

/-- R30, R471: a configuration command that passes its checks enters the open stage of its tenant and is answered ST_DONE; what it
supersedes leaves the stage, the entries of superseded calibration runs end (log entry 30); a stage beyond 65,536 payload bytes is
refused with ST_EXHAUSTED and stands. CAL_RUN takes a journal entry first, or is refused where the journal has none free.
Each of the 45 commands completes: execution answers a next state wherever Ready holds, a condition on the frame and the state alone. -/
def Obligations.ConfigurationCommandsEnterTheStage : Prop :=
  ∀ (f : Frame) (s : State),
    let a := s.atTurn f
    let completes (c : Instr) (r : Reply) (b : State) : Prop := ∃ t, Sys2Proof.Machine.exec c s = .next t ∧ Closes (b.answered c f r) t
    let n := f.tenant.val
    let left (c : Instr) (a : State) : List Instr := pruneStage ((a.tenant n).stage ++ [c])
    let staged (c : Instr) (a : State) : State :=
      (a.endRuns n (((a.tenant n).stage ++ [c]).filter fun i => !(left c a).contains i) .done 4).modTenant n fun t => { t with stage := left c a }
    let run : JournalEntry :=
      { a.pendingEntry n f.seq 0x0403 a.time.vtSec with total := BitVec.ofNat 32 (a.enabledIn (maskAt 128 f.payload 0 16)).length }
    let enters (c : Instr) : Prop := Ready c f s →
      (stageSize (left c a) ≤ 65536 → completes c {} (staged c a)) ∧ (65536 < stageSize (left c a) → completes c (refuse .exhausted) a)
    enters (.timebaseConfig f) ∧ enters (.timeSet f) ∧ enters (.leapSchedule f) ∧ enters (.timeAlign f) ∧ enters (.holdoverForce f)
    ∧ enters (.channelConfig f) ∧ enters (.comparatorConfig f) ∧ enters (.rotationConfig f) ∧ enters (.sliceSubstitute f)
    ∧ enters (.calConfig f) ∧ enters (.calChannelConfig f) ∧ enters (.triggerRouteConfig f) ∧ enters (.trigOutConfig f)
    ∧ enters (.routeAssign f) ∧ enters (.tillerLoad f) ∧ enters (.rachisConfig f) ∧ enters (.captureConfig f)
    ∧ enters (.reductionConfig f) ∧ enters (.accumConfig f) ∧ enters (.stampConfig f) ∧ enters (.tiConfig f) ∧ enters (.measureConfig f)
    ∧ enters (.engineAssign f) ∧ enters (.reducerConfig f) ∧ enters (.engineRestore f) ∧ enters (.dramQosConfig f)
    ∧ enters (.dramConfig f) ∧ enters (.dramMapConfig f) ∧ enters (.dramIsolate f) ∧ enters (.winnowConfig f)
    ∧ enters (.archiveJobConfig f) ∧ enters (.gleanConfig f) ∧ enters (.portConfig f) ∧ enters (.streamConfig f)
    ∧ enters (.streamStart f) ∧ enters (.tenantConfig f) ∧ enters (.channelAssign f) ∧ enters (.pageGrant f) ∧ enters (.drillConfig f)
    ∧ enters (.probeConfig f) ∧ enters (.loopbackSet f) ∧ enters (.unitIsolate f) ∧ enters (.testSourceConfig f)
    ∧ enters (.operatingStateSet f)
    ∧ (∀ j b, Ready (.calRun f) f s → a.newEntry run = some (j, b) →
      (stageSize (left (.calRun f) b) ≤ 65536 → completes (.calRun f) { journal := some j } (staged (.calRun f) b))
      ∧ (65536 < stageSize (left (.calRun f) b) → completes (.calRun f) (refuse .exhausted) a))
    ∧ (Ready (.calRun f) f s → a.newEntry run = none → completes (.calRun f) (refuse .exhausted) a)

/-- R457, R481, R494, R496, R498 and the tables of chapters 02 to 06: a readback that passes its checks, with no snapshot asked for or
with the snapshot of the last recorded generation, is answered with its bytes in the state it finds and changes nothing else.
Each completes wherever Ready holds, a condition on the frame and the state alone. -/
def Obligations.ReadbacksOfAcquisitionAnswer : Prop :=
  ∀ (f : Frame) (s : State),
    let a := s.atTurn f
    let completes (c : Instr) (r : Reply) (b : State) : Prop := ∃ t, Sys2Proof.Machine.exec c s = .next t ∧ Closes (b.answered c f r) t
    let p := f.payload
    let reads (c : Instr) (b : Bytes) : Prop :=
      Ready c f s → (wantsSnapshot f = false ∨ f.target = a.jr.recGeneration) → completes c { payload := b } a
    reads (.stageGet f) (a.tenant (p8 p 0)).stageBytes
    ∧ reads (.journalList f) (a.journalPage p)
    ∧ reads (.identityGet f) a.identity
    ∧ reads (.timeGet f) (a.time.block a.coreNow)
    ∧ reads (.timeConvert f) (if p8 p 0 = 0 then
        p.take 8 ++ vt96Bytes ⟨BitVec.ofNat 48 (civilToVt a.time.leaps (p8 p 31 == 1) (calAt p 24)), BitVec.ofNat 48 (p48 p 32)⟩ ++ p.drop 20
      else
        p.take 24 ++ calBytes ((civilOfVt a.time.leaps (p8 p 1 == 1) (vtAt p 8).sec.toNat).getD ⟨2000, 1, 1, 0, 0, 0⟩) (p8 p 1 == 1)
          (vtAt p 8).frac)
    ∧ reads (.leapTableGet f) (w16 a.time.leaps.length ++ zeros 6 ++ (a.time.leaps.map LeapEntry.bytes).flatten)
    ∧ (Ready (.channelStatusGet f) f s → (wantsSnapshot f = false ∨ f.target = a.jr.recGeneration) →
        completes (.channelStatusGet f) { payload := a.channelStatus (p8 p 0) (a.free.1.getLsbD 0) } a.free.2)
    ∧ reads (.delayTableGet f) (a.delayTable (p8 p 0))
    ∧ reads (.calStatusGet f) (a.calStatus (p8 p 0))
    ∧ reads (.calSetGet f) ((List.range 5).map (a.setBytes (p8 p 0))).flatten
    ∧ reads (.calLogGet f) (w16 (oldestIndex a.cal.log a.cal.logNext 4096) ++ w16 a.cal.logNext ++ zeros 4
        ++ ((logPage a.cal.log a.cal.logNext 4096 (p16 p 0) (p16 p 2)).map CalLogEntry.bytes).flatten)
    ∧ reads (.triggerStatusGet f) (a.triggerStatus (p8 p 0))
    ∧ reads (.rachisStatusGet f) a.rachisStatus
    ∧ reads (.captureStatusGet f) (a.captureStatus (p8 p 0))
    ∧ reads (.awnStatusGet f) (a.awnStatus (p16 p 0))

/-- R353 to R355, R374, R410, R412, R416, R449, R450, R533 to R535, R561, R564, R591, R627, R629, R630 and the tables of chapters 08 to 17:
the readbacks of the other units. GRANARY_STATUS_GET uses up one free value, for the write amplification the spec does
not state, ENGINE_STATUS_GET one for the corrected errors no row reports, and PORT_STATUS_GET two for the
codewords of RS-FEC no row reports.
Each completes wherever Ready holds, a condition on the frame and the state alone. -/
def Obligations.ReadbacksOfUnitsAnswer : Prop :=
  ∀ (f : Frame) (s : State),
    let a := s.atTurn f
    let completes (c : Instr) (r : Reply) (b : State) : Prop := ∃ t, Sys2Proof.Machine.exec c s = .next t ∧ Closes (b.answered c f r) t
    let p := f.payload
    let wants : Prop := wantsSnapshot f = false ∨ f.target = a.jr.recGeneration
    let reads (c : Instr) (b : Bytes) : Prop := Ready c f s → wants → completes c { payload := b } a
    let readsFree (c : Instr) (b : Bytes) : Prop := Ready c f s → wants → completes c { payload := b } { a with freeCtr := a.freeCtr + 1 }
    readsFree (.engineStatusGet f) (a.engineStatus (p16 p 0) ((Config.freeValue a.freeCtr).setWidth 32))
    ∧ reads (.reducerStatusGet f) (a.reducerStatus (p16 p 0))
    ∧ reads (.imageList f) ((List.range 64).map a.imageEntry).flatten
    ∧ reads (.dramStatusGet f) (a.dramStatus (p8 p 0))
    ∧ reads (.dramPortStatsGet f) ((List.range 29).flatMap fun i => portEntry i (a.portLevel i) ((a.dram.ports[i]?).getD { targetNs := 0 }))
    ∧ reads (.dramErrorLogGet f) (w16 (oldestIndex a.dram.log a.dram.logNext 1024) ++ w16 a.dram.logNext ++ zeros 4
        ++ ((logPage a.dram.log a.dram.logNext 1024 (p16 p 0) (p16 p 2)).map DramLogEntry.bytes).flatten)
    ∧ reads (.winnowStatusGet f) a.winnowStatus
    ∧ readsFree (.granaryStatusGet f)
        (w64 a.granary.catalogue.length ++ w64 a.granary.nextRecordId ++ a.cassetteEntry 0 ++ a.cassetteEntry 1)
    ∧ reads (.archiveList f) (
        let l := ((a.granary.catalogue.map (·.entry)).filter fun e =>
          sees f e && (p16 p 0 == 0xFFFF || e.source.toNat == p16 p 0) && (p8 p 2 == 0 || e.inputKind.toNat == p8 p 2)
            && decide (p64 p 8 < e.recordId.toNat) && a.overlaps e (p64 p 16) (p64 p 24)).take (p32 p 4)
        w32 l.length ++ zeros 4 ++ (l.map CatEntry.bytes).flatten)
    ∧ reads (.damageListGet f) (
        let mine (d : Damage) : Bool :=
          if p64 p 0 = 0 then ((a.archived d.recordId).map fun r => r.entry.tenant == f.tenant).getD false
          else d.recordId.toNat == p64 p 0
        let l := a.granary.damage.filter mine
        w32 l.length ++ zeros 4 ++ (((l.drop (p32 p 8)).take (p16 p 12)).map Damage.bytes).flatten)
    ∧ (Ready (.portStatusGet f) f s → wants → completes (.portStatusGet f)
        { payload := a.portStatus (p8 p 0) (Config.freeValue a.freeCtr) (Config.freeValue (a.freeCtr + 1)) } { a with freeCtr := a.freeCtr + 2 })
    ∧ reads (.streamStatusGet f) (a.streamStatus (p8 p 0))
    ∧ reads (.tenantStatusGet f) (a.tenantStatus (p8 p 0))
    ∧ reads (.eventQuery f) (
        let t := a.tenant f.tenant.val
        let l := (t.queue.filter fun e => decide (0 ≤ modDiff e.seq (BitVec.ofNat 32 (p32 p 0)))).take (p16 p 4)
        w32 ((t.queue.head?.map (·.seq)).getD t.eventSeq).toNat ++ w16 l.length ++ w16 0 ++ (l.map (·.bytes)).flatten)
    ∧ reads (.sweepStatusGet f) (
        let chans := (List.range 128).filter fun c => (a.chan c).earSweep || (a.chan c).accSweep
        ((List.range 8).flatMap fun k => w32 (a.sweepingPages k)) ++ w64 a.own.swept.toNat ++ leBytes 16 (maskOf 128 chans).toNat ++ zeros 8)
    ∧ (Ready (.drillStatusGet f) f s → wants → completes (.drillStatusGet f) { payload := a.drillUpTo.drill.status } a.drillUpTo)
    ∧ reads (.probeStatusGet f) ((a.standProbe (p8 p 0) a.now).probeStatus (p8 p 0))
    ∧ reads (.testResultGet f) (((a.findRun (p32 p 0)).map TestRun.bytes).getD [])
    ∧ reads (.powerStatusGet f) a.powerStatus
    ∧ reads (.housekeepingGet f) a.hkStatus
    ∧ reads (.powerFailReportGet f) ((a.power.reports[p8 p 0]?).map PfReport.bytes).toList.flatten

/-- R252, R427 to R430, R487, R495, R497: the readbacks with more than an answer. JOURNAL_QUERY answers by index or by sequence
(what is not stated of a sequence that was not received is two free values); RESPONSE_REPLAY sends the held numbers of its range again
and counts them with those that are not held; RECORD_FETCH takes a journal entry and a transfer of its records, whose destination is asked for
where no cache holds it, or is refused where the journal has no entry free.
Each completes wherever Ready holds, a condition on the frame and the state alone. -/
def Obligations.QueriesReplaysAndFetchesAnswer : Prop :=
  ∀ (f : Frame) (s : State),
    let a := s.atTurn f
    let completes (c : Instr) (r : Reply) (b : State) : Prop := ∃ t, Sys2Proof.Machine.exec c s = .next t ∧ Closes (b.answered c f r) t
    let p := f.payload
    let t := a.tenant (p8 p 1)
    let seq : U32 := BitVec.ofNat 32 (p32 p 4)
    let asked (c : Instr) : Prop := Ready c f s ∧ (wantsSnapshot f = false ∨ f.target = a.jr.recGeneration)
    let entry (index source : Nat) (e : JournalEntry) : Reply := { payload := w16 index ++ w8 source ++ zeros 5 ++ e.bytes }
    let first : U32 := BitVec.ofNat 32 (p32 p 0)
    let count := min (modDiff ((a.tenant f.tenant.val).respSeq - 1) first + 1).toNat (p16 p 4)
    let again := a.replayRange f first count
    let records := a.fetchIds (p8 p 0) (p64 p 4) (p32 p 12)
    let opened (x : Transfer) (b : State) : State :=
      let b := { b with transfers := b.transfers ++ [x] }
      if x.resolved then b else b.seek x.port x.v6 x.destIp
    (asked (.journalQuery f) →
      (∀ e, p8 p 0 ≠ 0 → aget a.jr.entries (p32 p 4) = some e → completes (.journalQuery f) (entry (p32 p 4) 0 e) a)
      ∧ (∀ i e, p8 p 0 = 0 → a.entryFor (p8 p 1) seq = some (i, e) → completes (.journalQuery f) (entry i 0 e) a)
      ∧ (∀ r, p8 p 0 = 0 → a.entryFor (p8 p 1) seq = none → t.replay.find? (fun r => r.resp.seq == seq) = some r →
          completes (.journalQuery f) (entry 0xFFFF 1 (entryOfReplay r.resp)) a)
      ∧ (p8 p 0 = 0 → a.entryFor (p8 p 1) seq = none → t.replay.find? (fun r => r.resp.seq == seq) = none →
          (modDiff seq t.nextSeq < 0 → completes (.journalQuery f) (refuse .exhausted) a)
          ∧ (0 ≤ modDiff seq t.nextSeq →
              let x := a.free
              let y := x.2.free
              completes (.journalQuery f) (entry 0xFFFF 2
                { seq, tenant := ten (p8 p 1), state := 0, opcode := x.1.setWidth 16, vtSecond := 0, status := .gap, remainder := 1, done := 0
                  total := (x.1 >>> 16).setWidth 32, generation := y.1.setWidth 32 }) y.2)))
    ∧ (asked (.responseReplay f) →
        completes (.responseReplay f) { status := if again.2.1 = 0 then .done else .part, payload := w16 again.1 ++ w16 again.2.1 } again.2.2)
    ∧ (asked (.recordFetch f) →
        (∀ j b, a.newEntry (a.workEntry f.tenant.val f.seq 0x0606 records.length) = some (j, b) →
          completes (.recordFetch f) { journal := some j }
            (opened (b.newTransfer f j (p8 p 0) (p8 p 1) 16 false records) b))
        ∧ (a.newEntry (a.workEntry f.tenant.val f.seq 0x0606 records.length) = none → completes (.recordFetch f) (refuse .exhausted) a))

/-- R195, R250, R283, R369, R441, R442 with R476: a schedulable command without a target takes effect at once; with a target, or under
ASAP, it takes a journal entry and waits for its second in the tenant's queue of at most 16 items, its response ST_SCHEDULED naming the
second.
Each completes wherever Ready holds, a condition on the frame and the state alone. -/
def Obligations.SchedulableCommandsActNowOrWait : Prop :=
  ∀ (f : Frame) (s : State),
    let a := s.atTurn f
    let completes (c : Instr) (r : Reply) (b : State) : Prop := ∃ t, Sys2Proof.Machine.exec c s = .next t ∧ Closes (b.answered c f r) t
    let p := f.payload
    let n := f.tenant.val
    let now (c : Instr) (b : State) : Prop := Ready c f s → f.target = 0 → asap f = false → completes c {} b
    now (.armTrigger f) (a.tillerDue.expireTimers.each (bitsOf (maskAt 32 p 0 4)) fun s r => s.armRoute r (p8 p 4 == 1))
    ∧ now (.softTrigger f) (a.tillerDue.expireTimers.each (bitsOf (maskAt 32 p 0 4)) fun s r => s.offer r (s.seed 7 0 2 s.now))
    ∧ now (.armCapture f) (a.each (maskChannels p) fun s c => if p8 p 16 = 1 then s.armCapture c else s.disarmNow c)
    ∧ now (.armStamps f) (a.each (maskSources p) fun s i => if p8 p 17 = 1 then s.armSource i else s.disarmSource i)
    ∧ now (.winnowFlush f) (let b := a.serveArchive; (b.each (b.flushJobs f) State.flushJob).serveArchive)
    ∧ now (.streamStop f) (a.each (streamMask p) fun s i => s.stopStream i 3)
    ∧ (∀ c ∈ [Instr.armTrigger f, .softTrigger f, .armCapture f, .armStamps f, .winnowFlush f, .streamStop f],
        Ready c f s → ¬(f.target = 0 ∧ asap f = false) →
        (∀ sec j b, a.effectSecond f a.earliestSecond = .ok sec → (a.tenant n).items.length < 16 →
          a.newEntry (a.pendingEntry n f.seq (opcodeOf c) (BitVec.ofNat 48 sec)) = some (j, b) →
          completes c { status := .scheduled, payload := w64 sec, journal := some j }
            (b.modTenant n fun t => { t with items := t.items ++ [.scheduled (BitVec.ofNat 48 sec) f.seq j c] }))
        ∧ (∀ r, a.effectSecond f a.earliestSecond = .error r → completes c r a)
        ∧ (∀ sec, a.effectSecond f a.earliestSecond = .ok sec → 16 ≤ (a.tenant n).items.length
            ∨ a.newEntry (a.pendingEntry n f.seq (opcodeOf c) (BitVec.ofNat 48 sec)) = none → completes c (refuse .exhausted) a))

/-- R192, R199, R203, R442, R443, R471, R519, R532, R541, R542, R556, R558, R626, R631: the commands that act at once and answer ST_DONE
without a journal entry.
Each completes wherever Ready holds, a condition on the frame and the state alone. -/
def Obligations.ImmediateCommandsAct : Prop :=
  ∀ (f : Frame) (s : State),
    let a := s.atTurn f
    let completes (c : Instr) (r : Reply) (b : State) : Prop := ∃ t, Sys2Proof.Machine.exec c s = .next t ∧ Closes (b.answered c f r) t
    let p := f.payload
    let n := f.tenant.val
    let acts (c : Instr) (b : State) : Prop := Ready c f s → completes c {} b
    acts (.stageDiscard f) ((a.endRuns n (a.tenant n).stage .done 4).modTenant n fun t => { t with stage := [] })
    ∧ acts (.tillerControl f) (a.tillerDue.expireTimers.modTiller fun x =>
        match p8 p 0 with
        | 0 => { x with running := false }
        | 1 => { x with running := x.loaded }
        | 2 => { x with poke := setBit (if x.pokeAt = a.coreOf a.clock then x.poke else 0) (p8 p 1) true, pokeAt := a.coreOf a.clock }
        | _ => { x with state := x.startState, counters := [0, 0, 0, 0], timers := [0, 0, 0, 0], timerRuns := 0, expired := 0, due := [] })
    ∧ acts (.rachisSend f) (a.sendAll (a.newMsg 2 0 (vtAt p 4) 0 0 0))
    ∧ acts (.rachisQuench f) (
        let b := (a.modRachis fun r => { r with ownQuench := p8 p 0 == 1 }).refreshFast
        if !a.rachisQuench && b.rachisQuench then b.quenchAssert else b)
    ∧ acts (.streamLeaseRenew f) (a.each (streamMask p) fun s i =>
        match (s.stream i).cfg with
        | some c =>
          if (s.stream i).running && (s.stream i).owner == f.tenant then s.modStream i fun x => { x with leaseUntil := s.clock + ticksOfMs c.leaseMs }
          else s
        | none => s)
    ∧ acts (.quench f) (
        if a.quench.mgmt = (p8 p 0 == 1) then a
        else
          let b := { a with quench := { a.quench with mgmt := p8 p 0 == 1 } }
          if p8 p 0 == 1 then b.quenchAssert else b)
    ∧ acts (.eventSubscribe f) (a.modTenant n fun t =>
        { t with eventMask := maskAt 1536 p 4 192
                 eventDest := if p8 p 0 = 2 then .none else if p8 p 0 = 1 || f.src.via == .service then .ring else .udp f.src })
    ∧ acts (.eventAck f) (a.modTenant n fun t =>
        let left := t.queue.filter fun e => decide (0 < modDiff e.seq (BitVec.ofNat 32 (p32 p 0)))
        let frees := decide (left.length < t.queue.length) && decide (left.length + 1 < t.eventDepth)
        { t with queue := left, lostOpen := t.lostOpen && !frees })
    ∧ acts (.drillSegmentLoad f) (a.modDrill fun x =>
        { x with segments :=
            if p8 p 1 = 0 then aset x.segments (p8 p 0) (p32 p 4, [])
            else if p8 p 1 = 2 then adel x.segments (p8 p 0)
            else amod x.segments (p8 p 0) fun e =>
              (e.1, (List.range (p16 p 12)).foldl (fun m i => aset m (p32 p 8 + i) (drillVector p i)) e.2) })
    ∧ acts (.drillControl f) (if p8 p 0 = 1 then a.startDrill p else a.abortDrill 0)
    ∧ acts (.probeProfileLoad f) (
        let point (i : Nat) : ProfilePoint := ⟨p48 p (16 + 16 * i), p8 p (22 + 16 * i) == 1, p64 p (24 + 16 * i)⟩
        a.modProbe (p8 p 0) fun x =>
          { x with buffers := vmod x.buffers (p8 p 1) fun b =>
              { length := p16 p 2
                points := (List.range (p16 p 6)).foldl (fun m i => aset m (p16 p 4 + i) (point i))
                  (b.points.filter fun e => decide (e.1 < p16 p 2)) } })
    ∧ acts (.housekeepingConfig f) (a.modPower fun x =>
        { x with hkPeriod := p16 p 0, hk := hkEntriesOf p
                 hkRes := vmodAll x.hkRes fun _ r => { result := r.result, updateCount := r.updateCount, vt := r.vt } })
    ∧ acts (.moduleReset f) ((a.modDrill fun x => { x with segments := x.segments.filter fun e => x.uses e.1 }).modPower fun x =>
        if p8 p 0 = 0 then { x with culmPending := some 5 } else { x with restartPending := some 5 })

/-- R313, R317, R405, R406, R409, R411, R414, R415, R427 to R430, R483, R576 to R580, R620, R621: the commands that act at once under a
journal entry: where the journal has one free they take it and answer its index, and where it has none they are refused with ST_EXHAUSTED.
Each completes wherever Ready holds, a condition on the frame and the state alone. -/
def Obligations.WorkCommandsActUnderAnEntry : Prop :=
  ∀ (f : Frame) (s : State),
    let a := s.atTurn f
    let completes (c : Instr) (r : Reply) (b : State) : Prop := ∃ t, Sys2Proof.Machine.exec c s = .next t ∧ Closes (b.answered c f r) t
    let p := f.payload
    let n := f.tenant.val
    let work (c : Instr) (units : Nat) (act : Nat → State → Reply × State) : Prop := Ready c f s →
      (∀ j b, a.newEntry (a.workEntry n f.seq (opcodeOf c) units) = some (j, b) → completes c (act j b).1 (act j b).2)
      ∧ (a.newEntry (a.workEntry n f.seq (opcodeOf c) units) = none → completes c (refuse .exhausted) a)
    let archived := (((a.granary.catalogue.map (·.entry)).filter fun e => sees f e && decide (p64 p 4 ≤ e.recordId.toNat)).map
      (·.recordId.toNat)).take (p32 p 12)
    let again (c : Nat) (s : State) : State :=
      (s.restartJobsOn c).serveArchive
    work (.imageLoad f) 1 (fun j b =>
      let c := b.completeAll j
      let x := (c.image (p8 p 0)).getD { owner := f.tenant }
      ({ journal := some j }, { c with images := aset c.images (p8 p 0) { x with staging := stageBlock x.staging (p32 p 4) (p.drop 8) } }))
    ∧ work (.imageVerify f) (blocksOf (p32 p 4)) (fun j b =>
      let c := b.completeAll j
      ({ journal := some j }, { c with images := amod c.images (p8 p 0) fun x =>
          { x with image := stagedFile x.staging (p32 p 4), staging := [], usable := true, keyRevoked := false } }))
    ∧ work (.imageDelete f) (blocksOf ((a.image (p8 p 0)).map (·.image.length)).toList.sum) (fun j b =>
      ({ journal := some j }, { b.completeAll j with images := adel (b.completeAll j).images (p8 p 0) }))
    ∧ work (.engineKeyEnroll f) 1 (fun j b =>
      let c := b.completeAll j
      ({ journal := some j }, if p8 p 1 = 1 then { c with keys := aset c.keys (p8 p 0) (BitVec.ofNat 256 (leNat (part p 4 32))) }
        else { c with keys := adel c.keys (p8 p 0)
                      images := c.images.map fun x =>
                        if !x.2.image.isEmpty && imageKey x.2.image == p8 p 0 then (x.1, { x.2 with usable := false, keyRevoked := true })
                        else x }))
    ∧ work (.archiveRead f) archived.length (fun j b =>
      let x := b.newTransfer f j 0 (p8 p 0) 24 true archived
      let b := { b with transfers := b.transfers ++ [x] }
      ({ journal := some j }, if x.resolved then b else b.seek x.port x.v6 x.destIp))
    ∧ work (.archiveRetain f) (a.granary.catalogue.filter fun r => retains f r.entry).length (fun j b =>
      let c := b.completeAll j
      let of := (c.granary.catalogue.filter fun r => retains f r.entry).map fun r => r.entry.cassette.val
      ({ journal := some j }, (if p8 p 12 = 0 then c.deleteRecords (retains f)
        else (c.modEntries (retains f) fun e => { e with prot := p8 p 12 == 1 }).each of State.catChange).serveArchive))
    ∧ work (.cassetteFormat f) 64 (fun j b => ({ journal := some j }, again (p8 p 0) (b.modCassette (p8 p 0) fun x =>
        { x with state := .formatting, formatJournal := some j, formatTlc := p8 p 1 == 1 })))
    ∧ work (.cassetteEvacuate f) (a.evacuees (p8 p 0) (p8 p 1 == 1)).length (fun j b =>
      ({ journal := some j }, again (p8 p 0) (b.modCassette (p8 p 0) fun x =>
        { x with state := .evacuating, evacuation := some (j, p8 p 1 == 1) })))
    ∧ work (.cassetteRetire f) 1 (fun j b =>
      ({ journal := some j }, if p8 p 1 = 0 then b.modCassette (p8 p 0) fun x => { x with retireJournal := some j }
        else (((b.completeAll j).modCassette (p8 p 0) fun x => { x.enter with powered := true }).modEntries (fun e => e.cassette.val == p8 p 0)
          fun e => { e with offline := false }).serveArchive))
    ∧ work (.selfTestRun f) 0 (fun j b =>
      let r : TestRun :=
        { runId := b.test.nextRunId, sequence := p8 p 0, unitKind := p8 p 1, index := p16 p 2, journal := j, startSec := b.time.vtSec
          startTick := b.clock, stopOnFail := p8 p 4 == 1, opState := b.power.opState.code }
      ({ payload := w32 r.runId.toNat, journal := some j }, (if p8 p 0 = 0 then b else { b with tiller := {} }).modTest fun x =>
        { x with active := true, nextRunId := x.nextRunId + 1, runs := lastN 8 (x.runs ++ [r]) }))
    ∧ (Ready (.firmwareActivate f) f s →
        let w := a.power.fw
        let b := (packageOf (w.blocks.length + 1) 0 w.blocks).getD []
        let level := (Config.fwLevel b).toNat
        completes (.firmwareActivate f) { journal := w.journal }
          ((a.modFw fun w =>
            { w with activeSlot := w.activeSlot + 1, otherState := 2, otherVersion := w.activeVersion
                     activeVersion := Config.fwPackageVersion b, blocks := [], activation := true, since := a.clock, watchdogs := [], level }).modPower fun x =>
            if level = 0 then { x with culmPending := some 7 } else { x with restartPending := some 7 }))
    ∧ (Ready (.firmwareLoad f) f s →
        let b := p.drop 4
        let c := if a.power.fw.otherState != 1 then
            a.modFw fun w => { w with blocks := [], journal := none, otherState := 1, otherVersion := 0 } else a
        let loaded (j : Option Nat) (d : State) : State :=
          let e := d.modFw fun w => { w with blocks := aset w.blocks (p32 p 0) b, journal := j }
          e.withEntry j fun s j => s.modEntry j fun x => { x with done := BitVec.ofNat 32 s.power.fw.blocks.length }
        (a.power.fw.activation = true → completes (.firmwareLoad f) (refuse .busy) a)
        ∧ (a.power.fw.activation = false →
          (∀ j d, p32 p 0 = 0 → c.power.fw.journal = none →
            c.newEntry (c.workEntry n f.seq 0x1006 (blocksOf (Config.fwLength b))) = some (j, d) →
            completes (.firmwareLoad f) { journal := some j } (loaded (some j) d))
          ∧ (¬(p32 p 0 = 0 ∧ c.power.fw.journal = none) →
            completes (.firmwareLoad f) { journal := c.power.fw.journal } (loaded c.power.fw.journal c))))

/-- R472 to R475, R477, R492, R493: COMMIT_AT moves the open stage into a pending commit of its second, an entry of the journal with it, a
domain commit besides into the list the Rachis votes on; COMMIT_CANCEL removes the items it names while their windows are open.
Both complete wherever Ready holds, a condition on the frame and the state alone. -/
def Obligations.CommitsAreScheduledAndCancelled : Prop :=
  ∀ (f : Frame) (s : State),
    let a := s.atTurn f
    let completes (c : Instr) (r : Reply) (b : State) : Prop := ∃ t, Sys2Proof.Machine.exec c s = .next t ∧ Closes (b.answered c f r) t
    let p := f.payload
    let n := f.tenant.val
    let domain := p8 p 0 == 1
    let second := a.effectSecond f (if domain then a.earliestDomain else a.earliestSecond)
    let named := (a.tenant n).named p
    (Ready (.commitAt f) f s →
      ((a.tenant n).stage = [] → completes (.commitAt f) (badParam 0) a)
      ∧ ((a.tenant n).stage ≠ [] → domain = true → a.inDomain = false → completes (.commitAt f) (refuse .degraded) a)
      ∧ ((a.tenant n).stage ≠ [] → (domain = true → a.inDomain = true) →
          (∀ r, second = .error r → completes (.commitAt f) r a)
          ∧ (∀ sec, second = .ok sec → (a.tenant n).items.any (fun i => i.isCommit && i.second.toNat == sec) = true →
              completes (.commitAt f) (refuse .busy) a)
          ∧ (∀ sec j b, second = .ok sec → (a.tenant n).items.any (fun i => i.isCommit && i.second.toNat == sec) = false →
              (a.tenant n).items.length < 16 →
              a.newEntry (a.pendingEntry n f.seq 0x0102 (BitVec.ofNat 48 sec)) = some (j, b) →
              let c := (b.modTenant n fun t => { t with items := t.items ++
                  [.commit (BitVec.ofNat 48 sec) f.seq j domain (BitVec.ofNat 32 (p32 p 4)) (a.tenant n).stage] }).modTenant n fun t =>
                { t with stage := [] }
              completes (.commitAt f) { status := .scheduled, payload := w64 sec, journal := some j }
                (if domain then c.modRachis fun x =>
                    { x with domains := x.domains ++ [{ tenant := f.tenant, second := BitVec.ofNat 48 sec, mask := BitVec.ofNat 32 (p32 p 4) }] }
                 else c))))
    ∧ (Ready (.commitCancel f) f s →
      (named.all a.windowOpen = false → completes (.commitCancel f) (refuse .late) a)
      ∧ (named.all a.windowOpen = true →
          let b := (a.each named fun s i => s.endItem n .done 4 i).modTenant n fun t =>
            { t with items := t.items.filter fun i => !named.contains i }
          let gone (d : DomainCommit) : Bool := d.tenant == f.tenant && named.any fun i => match i with
            | .commit sec _ _ dom _ _ => dom && sec == d.second
            | .scheduled _ _ _ _ => false
          completes (.commitCancel f) {} (b.modRachis fun x => { x with domains := x.domains.filter fun d => !gone d })))

/-- R460 to R462, R467, R468: a sequenced response is cut into parts that fit its transport; each part takes the next response number
whether it is sent or not, enters the replay store of 256 entries, its payload only up to 36 bytes, and is sent unless it is a suppressed
ST_DONE. Nothing else changes. -/
def Obligations.ResponsesAreNumberedStoredAndSent : Prop :=
  ∀ (s : State) (op : Nat) (f : Frame) (crc : U32) (readback : Bool) (r : Reply),
    let n := f.tenant.val
    let e := s.respond op f crc readback r
    let parts := chunks (s.partMax f.src) 255 r.payload
    let resp (p : Bytes) : Response := { s.responseTo op f r with payload := p }
    let stored (k : Nat) (p : Bytes) : ReplayEntry :=
      { resp := if p.length ≤ 36 then resp p else { resp [] with truncated := true }
        part := BitVec.ofNat 8 k, more := decide (k + 1 < parts.length), respSeq := (s.tenant n).respSeq + BitVec.ofNat 32 k, cmdCrc := crc }
    let frame (k : Nat) (p : Bytes) : Outgoing :=
      { dest := f.src, bytes := (resp p).bytes (BitVec.ofNat 8 k) (decide (k + 1 < parts.length)) ((s.tenant n).respSeq + BitVec.ofNat 32 k) }
    (e.tenant n).respSeq = (s.tenant n).respSeq + BitVec.ofNat 32 parts.length
    ∧ (e.tenant n).replay = lastN 256 ((s.tenant n).replay ++ parts.mapIdx stored)
    ∧ e.jr = { s.jr with outgoing := s.jr.outgoing ++ if readback || ackReq f || r.status != .done then parts.mapIdx frame else [] }
    ∧ e.tenant n = { s.tenant n with respSeq := (e.tenant n).respSeq, replay := (e.tenant n).replay }
    ∧ (∀ i, i ≠ n → e.tenant i = s.tenant i)
    ∧ OnlyChanges [.jr, .tenants] s e

/-- R41, R451, R455, R463, R478, R582: what keeps a command in a frame from its execution, in the order of the checks. A frame that is not
received changes nothing but the time; one on the service port waits while a response waits for room; steps 2 and 3 answer outside every
sequence; steps 6 to 10 consume the sequence, change nothing else and answer in it; a dry run that passes answers its status alone. -/
def Obligations.RefusalsComeInTheOrderOfTheChecks : Prop :=
  ∀ (c : Instr) (op : Nat) (f : Frame) (s : State), hostCommand c = some (op, f) → (∀ g, c ≠ .hello g) →
    let a := s.atTurn f
    let refused (r : Reply) : Prop := ∃ t, Sys2Proof.Machine.exec c s = .next t ∧ Closes (a.answered c f r) t
    let leads (e : State) : Prop := ∃ t, Sys2Proof.Machine.exec c s = .next t ∧ Closes e t
    ((s.advance f.t).receives f.src = false → leads (s.advance f.t))
    ∧ ((s.advance f.t).receives f.src = true → (s.arrived f).mustQueue f.src = true →
        leads ((s.arrived f).modRings fun r => { r with cmdWaiting := r.cmdWaiting ++ [c] }))
    ∧ ((s.advance f.t).receives f.src = true → (s.arrived f).mustQueue f.src = false → 8192 < f.payload.length →
        leads ((s.arrived f).answerUnsequenced op f (refuse .badFrame)))
    ∧ ((s.advance f.t).receives f.src = true → (s.arrived f).mustQueue f.src = false → f.payload.length ≤ 8192 →
        (s.arrived f).admits f.tenant.val f.src = false → leads ((s.arrived f).answerUnsequenced op f (refuse .noRights)))
    ∧ (∀ k, cmdOf c = some k → Reached c f s →
        let rights := (!k.steward || f.tenant == 0) && k.rights f a
        (onTransport c f = false → refused (refuse .badOpcode))
        ∧ (onTransport c f = true → rights = false → refused (refuse .noRights))
        ∧ (onTransport c f = true → rights = true → flagsOk k.kind f = false → refused (badParam headerField))
        ∧ (∀ r, onTransport c f = true → rights = true → flagsOk k.kind f = true → k.check f a = .error r → refused r)
        ∧ (∀ r, onTransport c f = true → rights = true → flagsOk k.kind f = true → k.check f a = .ok () → a.stateAllows k c = .error r →
            refused r)
        ∧ (∀ r b, onTransport c f = true → rights = true → flagsOk k.kind f = true → k.check f a = .ok () → a.stateAllows k c = .ok () →
            a.perform k c op f = .ok (r, b) → dryRun f = true →
            refused { r with journal := none, payload := if k.kind = .readback then [] else r.payload }))

/-- R464: the sequence of a command against the next one of its tenant, N: at N it has its turn (a readback waits once for a record that is
being written, R479); up to 64 ahead it is held, a second frame of a held sequence is dropped (R465); further ahead, up to 2³¹, it is
refused with ST_GAP and N; behind N it is a duplicate, answered from the replay store where the CRC of the command agrees, else with
ST_DUPLICATE and its detail. -/
def Obligations.SequencesDecideWhatIsExecuted : Prop :=
  ∀ (c : Instr) (op : Nat) (f : Frame) (s : State), hostCommand c = some (op, f) → (∀ g, c ≠ .hello g) → Admitted f s →
    let a := s.arrived f
    let leads (e : State) : Prop := ∃ t, Sys2Proof.Machine.exec c s = .next t ∧ Closes e t
    let t := a.tenant f.tenant.val
    let u := (f.seq - t.nextSeq).toNat
    let crc := crc32c (frameBytes op f)
    let held : Bool := t.held.any fun h => (arrivedFrame h.cmd).map (·.2.seq) == some f.seq
    let stored := t.replay.filter fun e => e.resp.seq == f.seq
    (u = 0 → a.mustWait c = true →
        leads (if a.alreadyWaiting f then a else a.modJr fun j => { j with waiting := j.waiting ++ [c] }))
    ∧ (u = 0 → a.mustWait c = false → leads ((a.execNext c op f).runHeld f.tenant.val 64))
    ∧ (0 < u → u ≤ 64 → held = true → leads a)
    ∧ (0 < u → u ≤ 64 → held = false → leads (a.modTenant f.tenant.val fun x =>
        { x with held := x.held ++ [{ cmd := c, crc, since := a.clock }] }))
    ∧ (64 < u → u ≤ 2 ^ 31 → leads (a.answerUnsequenced op f { status := .gap, payload := w32 t.nextSeq.toNat }))
    ∧ (2 ^ 31 < u → stored = [] → leads (a.answerUnsequenced op f { status := .duplicate, detail := 1 }))
    ∧ (∀ e l, 2 ^ 31 < u → stored = e :: l → e.cmdCrc ≠ crc → leads (a.answerUnsequenced op f { status := .duplicate, detail := 2 }))
    ∧ (∀ e l, 2 ^ 31 < u → stored = e :: l → e.cmdCrc = crc → leads (a.each (e :: l) fun x e =>
        x.sendOut f.src (({ e.resp with replayed := true } : Response).bytes e.part e.more e.respSeq)))

/-- R470, R478, R491: HELLO. A flag, a target or a payload out of range is refused with its detail; discard_held, or set_seq, refuses every
held command of the tenant with ST_GAP, set_seq sets N and empties the replay store; the answer tells the tenant's place in every
sequence, and the two flags it reports are then clear. It is outside every sequence, and a dry run of it changes nothing.
It completes wherever the frame is received and its tenant admitted (Admitted). -/
def Obligations.HelloTellsThePlaceInEverySequence : Prop :=
  ∀ (f : Frame) (s : State), Admitted f s →
    let a := s.arrived f
    let p := f.payload
    let n := f.tenant.val
    let answers (r : Reply) (b : State) : Prop :=
      ∃ t, Sys2Proof.Machine.exec (.hello f) s = .next t
        ∧ Closes (b.sendOut f.src (({ b.responseTo 0x0101 f r with unsequenced := true } : Response).bytes 0 false 0)) t
    let header := !asap f && f.target == 0 && !wantsSnapshot f
    let b := if p8 p 0 = 0 then a else a.refuseHeld n
    let d := if (p8 p 0).testBit 1 then b.modTenant n fun t => { t with nextSeq := BitVec.ofNat 32 (p32 p 4), replay := [] } else b
    let fine : Prop := p.length = 8 ∧ p8 p 0 < 4 ∧ zeroAt p 1 3 = true ∧ ((p8 p 0).testBit 1 = true ∨ p32 p 4 = 0)
    (header = false → answers (badParam headerField) a)
    ∧ (header = true → p.length ≠ 8 → answers (badParam headerField) a)
    ∧ (header = true → p.length = 8 → 4 ≤ p8 p 0 → answers (badParam 0) a)
    ∧ (header = true → p.length = 8 → p8 p 0 < 4 → zeroAt p 1 3 = false → answers (badParam 1) a)
    ∧ (header = true → p.length = 8 → p8 p 0 < 4 → zeroAt p 1 3 = true → (p8 p 0).testBit 1 = false → p32 p 4 ≠ 0 → answers (badParam 4) a)
    ∧ (header = true → fine → dryRun f = false →
        answers { payload := d.helloBytes n } (d.modTenant n fun t => { t with culmRestarted := false, powerLost := false }))
    ∧ (header = true → fine → dryRun f = true → answers {} a)

/-- R424, R451, R455, R456, R458, R459, R463, R466: a frame as bytes. One that is received and need not wait is dropped and flagged or
counted where its CRC fails, answered ST_BAD_FRAME where its framing does, and else is the command it spells, an unknown opcode among
them. A command held for 1,000 ms whose gap is still open takes every held command of its tenant with it, each refused with ST_GAP. -/
def Obligations.RawFramesAndHeldCommandsEnd : Prop :=
  ∀ (t : Nat) (src : Source) (b : Bytes) (s : State),
    let a := (s.advance t).countFrame src
    let f := parseFrame t src b
    let op := p16 b 0
    let takes (e : State) : Prop := ∃ u, Sys2Proof.Machine.exec (.badCommandFrame t src b) s = .next u ∧ Closes e u
    let comes : Prop := (s.advance t).receives src = true
    let now : Prop := comes ∧ a.mustQueue src = false
    ((s.advance t).receives src = false → takes (s.advance t))
    ∧ (comes → a.mustQueue src = true → takes (a.modRings fun r => { r with cmdWaiting := r.cmdWaiting ++ [.badCommandFrame t src b] }))
    ∧ (now → frameCrcOk b = false → src.via = .service → takes (a.modRings fun r => { r with cmdFrameError := true }))
    ∧ (now → frameCrcOk b = false → src.via ≠ .service → takes (a.modPort (portOf src.via) fun p => { p with rxDiscarded := p.rxDiscarded + 1 }))
    ∧ (now → frameCrcOk b = true → framingOk b = false → takes (a.answerUnsequenced op f (refuse .badFrame)))
    ∧ (∀ c, now → frameCrcOk b = true → framingOk b = true → ofOpcode op f = some c → takes (a.accept c op f))
    ∧ (now → frameCrcOk b = true → framingOk b = true → ofOpcode op f = none → takes (a.accept (.badCommandFrame t src b) op f))
    ∧ (∀ tenant : Fin 256, Gives (.heldCommandTimeout t tenant) t s fun a =>
        let x := a.tenant tenant.val
        let turn : Bool := a.jr.waiting.any fun w => (arrivedFrame w).map (·.2.tenant) == some tenant
        if a.power.culmUp && !turn && x.held.any fun h => decide (h.since + ticksOfMs 1000 ≤ a.clock) then
          (a.modTenant tenant.val fun y => { y with held := [] }).each x.held fun y h =>
            match arrivedFrame h.cmd with
            | some (op, g) => y.answerUnsequenced op g { status := .gap, payload := w32 x.nextSeq.toNat }
            | none => y
        else a)

/-- R31 to R36, R55, R61, R97, R145, R240, R267, R439, R476, R541: the tick that starts a VT second, in its order: the second and its
overrange counts end, with the status frames, the Drill vectors and the gates that end there; the commit armed for it switches; a new label is
taken; acquisition, stamp streams and calibration go on; the slew and the alignment follow; the commands scheduled for it run; the work of
the data plane goes on while the main domain is powered. Before the block is released nothing happens. -/
def Obligations.SecondBoundaryRunsInItsOrder : Prop :=
  (∀ (ovr : List (Fin 128 × U32)) (s : State),
    let ended := s.time.vtSec
    let start := s.time.secStart
    let held := if s.time.holdover then satInc s.time.holdoverSeconds else s.time.holdoverSeconds
    let a := { s with
      clock := max s.clock (start + ticksPerSec)
      time := { s.time with vtSec := ended + 1, secStart := start + ticksPerSec, holdoverSeconds := held } }
    let all := ((((a.closeSecond ended start ovr).commitAtBoundary (ended + 1)).relabel).startSecond).runSchedule (ended + 1)
    ∃ t, Sys2Proof.Machine.exec (.vtSecondBoundary ovr) s = .next t
      ∧ Closes (if !s.power.released then s else if all.power.mainOn then all.serveSecond else all) t)
  ∧ (∀ (s : State) (ended : U48) (start : Nat) (ovr : List (Fin 128 × U32)),
    let found (c : Nat) : U32 := ((ovr.find? fun e => e.1.val == c).map fun e => e.2).getD 0
    let counted := { s with chans := vmodAll s.chans fun c x => { x with ovrLast := found c } }
    let raised := counted.each (List.range 128) fun s c => if found c = 0 then s else s.raise (chanEvent c 1) (w32 (found c).toNat)
    s.closeSecond ended start ovr
      = (raised.each (List.range 128) fun s i => s.streamSecond ended start i).drillUpTo.closeGates)
  ∧ (∀ s : State,
    let acquiring := s.resumeAcquisition.tillerDue.expireTimers
    let thawed := { acquiring with chans := vmodAll acquiring.chans fun _ x => { x with pairFrozen := false } }
    let streaming := if thawed.time.outage then thawed else thawed.each (List.range 132) State.resumeStream
    let aligned := (streaming.startRun.closeRun.modTime fun t => t.boundarySlew streaming.startRun.closeRun.follows).boundaryAlign
    s.startSecond = if aligned.time.outage then aligned else aligned.each (List.range 132) State.boundaryMarker)
  ∧ ∀ s : State,
    s.serveSecond = ((s.sendTime.each (s.insts.map (·.1)) State.serveInstance).beginSpans.serveArchive).prune

/-- R602, R613 to R617: the end of power-fail handling completes the report with its times and counts (the Granary's time is a free value
up to 40 ms), undoes a switch without its record, starts nothing that was pending, ends the work in progress, and holds the block in reset
until it starts up again; outside power-fail it does nothing. -/
def Obligations.PowerFailHandlingEndHoldsTheBlock : Prop :=
  ∀ (t : Nat) (s : State),
    let a := s.advance t
    let v := a.free.1
    let b := a.free.2
    let done := b.modReport fun r =>
      { r with complete := true, endUs := b.sinceCut, granaryUs := BitVec.ofNat 32 (min (v.toNat % 40001) b.sinceCut.toNat)
               sealed_ := BitVec.ofNat 32 (b.granary.catalogue.length - b.power.pfSealed)
               freed := BitVec.ofNat 32 (b.granary.jobs.filter fun e => e.2.recordId.isSome).length }
    (a.power.opState ≠ .powerFail → ∃ u, Sys2Proof.Machine.exec (.powerFailHandlingEnd t) s = .next u ∧ Closes a u)
    ∧ (a.power.opState = .powerFail →
        ∃ u, Sys2Proof.Machine.exec (.powerFailHandlingEnd t) s = .next u
          ∧ Closes (done.undoSwitch.failItems .fault fun _ _ => true).endWork.held u)
end

