-- ==== Sys2Proof/Laws/Memory.lean ====
section
/-! SUPPORT. Byte memories: every operation keeps the canonical form; a read after a write. -/

namespace Sys2Proof.Machine

open Host

/-- Every address of a memory lies above `k`. -/
def Above (k : Nat) (m : List Cell) : Prop := ∀ a b, (a, b) ∈ m → k < a

theorem wf_cons_iff (k : Nat) (v : Byte) (m : List Cell) :
    Memory.wf ((k, v) :: m) = true ↔ v ≠ 0 ∧ Above k m ∧ Memory.wf m = true := by
  induction m generalizing k v with
  | nil => simp [Memory.wf, Above]
  | cons e m ih =>
    obtain ⟨a, b⟩ := e
    have h1 : Memory.wf ((k, v) :: (a, b) :: m) = true ↔ v ≠ 0 ∧ k < a ∧ Memory.wf ((a, b) :: m) = true := by
      simp [Memory.wf, and_assoc]
    rw [h1]
    constructor
    · rintro ⟨hv, hka, hm⟩
      refine ⟨hv, ?_, hm⟩
      intro x y hxy
      rcases List.mem_cons.mp hxy with h | h
      · cases h; exact hka
      · exact Nat.lt_trans hka (((ih a b).mp hm).2.1 x y h)
    · rintro ⟨hv, hab, hm⟩
      exact ⟨hv, hab a b (by simp), hm⟩

theorem memSet_above (m : List Cell) (j k : Nat) (v : Byte) (h : Above j m) (hjk : j < k) : Above j (memSet m k v) := by
  induction m with
  | nil =>
    unfold memSet; split
    · exact h
    · intro a b hab; simp at hab; omega
  | cons e m ih =>
    obtain ⟨a, b⟩ := e
    have hm : Above j m := fun x y hxy => h x y (by simp [hxy])
    unfold memSet
    split
    · split
      · exact h
      · intro x y hxy
        rcases List.mem_cons.mp hxy with hh | hh
        · cases hh; exact hjk
        · exact h x y hh
    · split
      · split
        · exact hm
        · intro x y hxy
          rcases List.mem_cons.mp hxy with hh | hh
          · cases hh; exact hjk
          · exact hm x y hh
      · intro x y hxy
        rcases List.mem_cons.mp hxy with hh | hh
        · cases hh; exact h a b (by simp)
        · exact ih hm x y hh

/-- Writing a byte keeps the canonical form. -/
theorem memSet_wf (m : List Cell) (k : Nat) (v : Byte) (h : Memory.wf m = true) : Memory.wf (memSet m k v) = true := by
  induction m with
  | nil =>
    unfold memSet; split
    · rfl
    · rename_i hv; simpa [Memory.wf] using hv
  | cons e m ih =>
    obtain ⟨a, b⟩ := e
    obtain ⟨hb, hab, hm⟩ := (wf_cons_iff a b m).mp h
    unfold memSet
    split
    · rename_i hka
      split
      · exact h
      · rename_i hv
        refine (wf_cons_iff _ _ _).mpr ⟨hv, ?_, h⟩
        intro x y hxy
        rcases List.mem_cons.mp hxy with hh | hh
        · cases hh; exact hka
        · exact Nat.lt_trans hka (hab x y hh)
    · split
      · rename_i hka
        subst hka
        split
        · exact hm
        · rename_i hv
          exact (wf_cons_iff _ _ _).mpr ⟨hv, hab, hm⟩
      · refine (wf_cons_iff _ _ _).mpr ⟨hb, ?_, ih hm⟩
        exact memSet_above m a k v hab (by omega)

theorem memWrite_wf (m : List Cell) (k : Nat) (bs : Bytes) (h : Memory.wf m = true) : Memory.wf (memWrite m k bs) = true := by
  induction bs generalizing m k with
  | nil => exact h
  | cons b bs ih => exact ih _ _ (memSet_wf m k b h)

theorem ringWrite_wf (m : List Cell) (base off : Nat) (bs : Bytes) (h : Memory.wf m = true) :
    Memory.wf (ringWrite m base off bs) = true := by
  induction bs generalizing m off with
  | nil => exact h
  | cons b bs ih => exact ih _ _ (memSet_wf m _ b h)

/-- An address below every listed one reads 0. -/
theorem memGet_above (m : List Cell) (k : Nat) (h : Above k m) : memGet m k = 0 := by
  induction m with
  | nil => rfl
  | cons e m ih =>
    obtain ⟨a, b⟩ := e
    have : k < a := h a b (by simp)
    have hne : a ≠ k := by omega
    simp only [memGet, hne, if_false]
    exact ih fun x y hxy => h x y (by simp [hxy])

/-- A read after a write. -/
theorem memGet_memSet (m : List Cell) (k j : Nat) (v : Byte) (h : Memory.wf m = true) :
    memGet (memSet m k v) j = if j = k then v else memGet m j := by
  induction m with
  | nil =>
    unfold memSet; split
    · rename_i hv; subst hv; simp [memGet]
    · by_cases hj : j = k
      · simp [memGet, hj]
      · simp [memGet, hj, Ne.symm hj]
  | cons e m ih =>
    obtain ⟨a, b⟩ := e
    obtain ⟨hb, hab, hm⟩ := (wf_cons_iff a b m).mp h
    unfold memSet
    split
    · rename_i hka
      have hk : memGet ((a, b) :: m) k = 0 :=
        memGet_above _ _ fun x y hxy => by
          rcases List.mem_cons.mp hxy with hh | hh
          · cases hh; exact hka
          · exact Nat.lt_trans hka (hab x y hh)
      split
      · rename_i hv
        subst hv
        by_cases hj : j = k
        · subst hj; simp [hk]
        · simp [hj]
      · by_cases hj : j = k
        · simp [memGet, hj]
        · have hkj : k ≠ j := fun hh => hj hh.symm
          rw [memGet, if_neg hkj, if_neg hj]
    · split
      · rename_i hka
        subst hka
        have hk : memGet m k = 0 := memGet_above _ _ hab
        split
        · rename_i hv
          subst hv
          by_cases hj : j = k
          · subst hj; simp [hk]
          · simp [memGet, hj, Ne.symm hj]
        · by_cases hj : j = k
          · simp [memGet, hj]
          · simp [memGet, hj, Ne.symm hj]
      · rename_i h1 h2
        by_cases haj : a = j
        · have : j ≠ k := by omega
          simp [memGet, haj, this]
        · simp only [memGet, haj, if_false, ih hm]

/-- What the response ring takes in keeps the canonical form. -/
theorem Rings.drainResponses_wf (r : Rings) (fuel : Nat) (h : Memory.wf r.ram = true) :
    Memory.wf (r.drainResponses fuel).ram = true := by
  induction fuel generalizing r with
  | zero => exact h
  | succ fuel ih =>
    unfold Rings.drainResponses
    split
    · exact h
    · simp only []
      split
      · exact ih _ (ringWrite_wf _ _ _ _ h)
      · exact h

theorem Rings.settle_wf (r : Rings) (h : Memory.wf r.ram = true) : Memory.wf r.settle.ram = true := Rings.drainResponses_wf r _ h

end Sys2Proof.Machine
end

