-- ==== Sys2Proof/Laws/State.lean ====
section
/-! SUPPORT. What the updates of one part leave unchanged, and what they change: one lemma for each field and update. -/

namespace Sys2Proof.Machine

/-! `modTime` -/

@[simp] theorem State.modTime_pending (s : State) (f) : (s.modTime f).pending = s.pending := rfl
@[simp] theorem State.modTime_freeCtr (s : State) (f) : (s.modTime f).freeCtr = s.freeCtr := rfl
@[simp] theorem State.modTime_clock (s : State) (f) : (s.modTime f).clock = s.clock := rfl
@[simp] theorem State.modTime_rings (s : State) (f) : (s.modTime f).rings = s.rings := rfl
@[simp] theorem State.modTime_jr (s : State) (f) : (s.modTime f).jr = s.jr := rfl
@[simp] theorem State.modTime_tenants (s : State) (f) : (s.modTime f).tenants = s.tenants := rfl
@[simp] theorem State.modTime_own (s : State) (f) : (s.modTime f).own = s.own := rfl
@[simp] theorem State.modTime_summary (s : State) (f) : (s.modTime f).summary = s.summary := rfl
@[simp] theorem State.modTime_chans (s : State) (f) : (s.modTime f).chans = s.chans := rfl
@[simp] theorem State.modTime_cal (s : State) (f) : (s.modTime f).cal = s.cal := rfl
@[simp] theorem State.modTime_routes (s : State) (f) : (s.modTime f).routes = s.routes := rfl
@[simp] theorem State.modTime_trigOuts (s : State) (f) : (s.modTime f).trigOuts = s.trigOuts := rfl
@[simp] theorem State.modTime_trigIns (s : State) (f) : (s.modTime f).trigIns = s.trigIns := rfl
@[simp] theorem State.modTime_tiller (s : State) (f) : (s.modTime f).tiller = s.tiller := rfl
@[simp] theorem State.modTime_rachis (s : State) (f) : (s.modTime f).rachis = s.rachis := rfl
@[simp] theorem State.modTime_rports (s : State) (f) : (s.modTime f).rports = s.rports := rfl
@[simp] theorem State.modTime_sources (s : State) (f) : (s.modTime f).sources = s.sources := rfl
@[simp] theorem State.modTime_engines (s : State) (f) : (s.modTime f).engines = s.engines := rfl
@[simp] theorem State.modTime_nodes (s : State) (f) : (s.modTime f).nodes = s.nodes := rfl
@[simp] theorem State.modTime_insts (s : State) (f) : (s.modTime f).insts = s.insts := rfl
@[simp] theorem State.modTime_images (s : State) (f) : (s.modTime f).images = s.images := rfl
@[simp] theorem State.modTime_keys (s : State) (f) : (s.modTime f).keys = s.keys := rfl
@[simp] theorem State.modTime_dram (s : State) (f) : (s.modTime f).dram = s.dram := rfl
@[simp] theorem State.modTime_winnow (s : State) (f) : (s.modTime f).winnow = s.winnow := rfl
@[simp] theorem State.modTime_granary (s : State) (f) : (s.modTime f).granary = s.granary := rfl
@[simp] theorem State.modTime_ports (s : State) (f) : (s.modTime f).ports = s.ports := rfl
@[simp] theorem State.modTime_streams (s : State) (f) : (s.modTime f).streams = s.streams := rfl
@[simp] theorem State.modTime_transfers (s : State) (f) : (s.modTime f).transfers = s.transfers := rfl
@[simp] theorem State.modTime_quench (s : State) (f) : (s.modTime f).quench = s.quench := rfl
@[simp] theorem State.modTime_drill (s : State) (f) : (s.modTime f).drill = s.drill := rfl
@[simp] theorem State.modTime_probes (s : State) (f) : (s.modTime f).probes = s.probes := rfl
@[simp] theorem State.modTime_test (s : State) (f) : (s.modTime f).test = s.test := rfl
@[simp] theorem State.modTime_power (s : State) (f) : (s.modTime f).power = s.power := rfl

/-! `modJr` -/

@[simp] theorem State.modJr_pending (s : State) (f) : (s.modJr f).pending = s.pending := rfl
@[simp] theorem State.modJr_freeCtr (s : State) (f) : (s.modJr f).freeCtr = s.freeCtr := rfl
@[simp] theorem State.modJr_clock (s : State) (f) : (s.modJr f).clock = s.clock := rfl
@[simp] theorem State.modJr_time (s : State) (f) : (s.modJr f).time = s.time := rfl
@[simp] theorem State.modJr_rings (s : State) (f) : (s.modJr f).rings = s.rings := rfl
@[simp] theorem State.modJr_tenants (s : State) (f) : (s.modJr f).tenants = s.tenants := rfl
@[simp] theorem State.modJr_own (s : State) (f) : (s.modJr f).own = s.own := rfl
@[simp] theorem State.modJr_summary (s : State) (f) : (s.modJr f).summary = s.summary := rfl
@[simp] theorem State.modJr_chans (s : State) (f) : (s.modJr f).chans = s.chans := rfl
@[simp] theorem State.modJr_cal (s : State) (f) : (s.modJr f).cal = s.cal := rfl
@[simp] theorem State.modJr_routes (s : State) (f) : (s.modJr f).routes = s.routes := rfl
@[simp] theorem State.modJr_trigOuts (s : State) (f) : (s.modJr f).trigOuts = s.trigOuts := rfl
@[simp] theorem State.modJr_trigIns (s : State) (f) : (s.modJr f).trigIns = s.trigIns := rfl
@[simp] theorem State.modJr_tiller (s : State) (f) : (s.modJr f).tiller = s.tiller := rfl
@[simp] theorem State.modJr_rachis (s : State) (f) : (s.modJr f).rachis = s.rachis := rfl
@[simp] theorem State.modJr_rports (s : State) (f) : (s.modJr f).rports = s.rports := rfl
@[simp] theorem State.modJr_sources (s : State) (f) : (s.modJr f).sources = s.sources := rfl
@[simp] theorem State.modJr_engines (s : State) (f) : (s.modJr f).engines = s.engines := rfl
@[simp] theorem State.modJr_nodes (s : State) (f) : (s.modJr f).nodes = s.nodes := rfl
@[simp] theorem State.modJr_insts (s : State) (f) : (s.modJr f).insts = s.insts := rfl
@[simp] theorem State.modJr_images (s : State) (f) : (s.modJr f).images = s.images := rfl
@[simp] theorem State.modJr_keys (s : State) (f) : (s.modJr f).keys = s.keys := rfl
@[simp] theorem State.modJr_dram (s : State) (f) : (s.modJr f).dram = s.dram := rfl
@[simp] theorem State.modJr_winnow (s : State) (f) : (s.modJr f).winnow = s.winnow := rfl
@[simp] theorem State.modJr_granary (s : State) (f) : (s.modJr f).granary = s.granary := rfl
@[simp] theorem State.modJr_ports (s : State) (f) : (s.modJr f).ports = s.ports := rfl
@[simp] theorem State.modJr_streams (s : State) (f) : (s.modJr f).streams = s.streams := rfl
@[simp] theorem State.modJr_transfers (s : State) (f) : (s.modJr f).transfers = s.transfers := rfl
@[simp] theorem State.modJr_quench (s : State) (f) : (s.modJr f).quench = s.quench := rfl
@[simp] theorem State.modJr_drill (s : State) (f) : (s.modJr f).drill = s.drill := rfl
@[simp] theorem State.modJr_probes (s : State) (f) : (s.modJr f).probes = s.probes := rfl
@[simp] theorem State.modJr_test (s : State) (f) : (s.modJr f).test = s.test := rfl
@[simp] theorem State.modJr_power (s : State) (f) : (s.modJr f).power = s.power := rfl

/-! `modRings` -/

@[simp] theorem State.modRings_pending (s : State) (f) : (s.modRings f).pending = s.pending := rfl
@[simp] theorem State.modRings_freeCtr (s : State) (f) : (s.modRings f).freeCtr = s.freeCtr := rfl
@[simp] theorem State.modRings_clock (s : State) (f) : (s.modRings f).clock = s.clock := rfl
@[simp] theorem State.modRings_time (s : State) (f) : (s.modRings f).time = s.time := rfl
@[simp] theorem State.modRings_jr (s : State) (f) : (s.modRings f).jr = s.jr := rfl
@[simp] theorem State.modRings_tenants (s : State) (f) : (s.modRings f).tenants = s.tenants := rfl
@[simp] theorem State.modRings_own (s : State) (f) : (s.modRings f).own = s.own := rfl
@[simp] theorem State.modRings_summary (s : State) (f) : (s.modRings f).summary = s.summary := rfl
@[simp] theorem State.modRings_chans (s : State) (f) : (s.modRings f).chans = s.chans := rfl
@[simp] theorem State.modRings_cal (s : State) (f) : (s.modRings f).cal = s.cal := rfl
@[simp] theorem State.modRings_routes (s : State) (f) : (s.modRings f).routes = s.routes := rfl
@[simp] theorem State.modRings_trigOuts (s : State) (f) : (s.modRings f).trigOuts = s.trigOuts := rfl
@[simp] theorem State.modRings_trigIns (s : State) (f) : (s.modRings f).trigIns = s.trigIns := rfl
@[simp] theorem State.modRings_tiller (s : State) (f) : (s.modRings f).tiller = s.tiller := rfl
@[simp] theorem State.modRings_rachis (s : State) (f) : (s.modRings f).rachis = s.rachis := rfl
@[simp] theorem State.modRings_rports (s : State) (f) : (s.modRings f).rports = s.rports := rfl
@[simp] theorem State.modRings_sources (s : State) (f) : (s.modRings f).sources = s.sources := rfl
@[simp] theorem State.modRings_engines (s : State) (f) : (s.modRings f).engines = s.engines := rfl
@[simp] theorem State.modRings_nodes (s : State) (f) : (s.modRings f).nodes = s.nodes := rfl
@[simp] theorem State.modRings_insts (s : State) (f) : (s.modRings f).insts = s.insts := rfl
@[simp] theorem State.modRings_images (s : State) (f) : (s.modRings f).images = s.images := rfl
@[simp] theorem State.modRings_keys (s : State) (f) : (s.modRings f).keys = s.keys := rfl
@[simp] theorem State.modRings_dram (s : State) (f) : (s.modRings f).dram = s.dram := rfl
@[simp] theorem State.modRings_winnow (s : State) (f) : (s.modRings f).winnow = s.winnow := rfl
@[simp] theorem State.modRings_granary (s : State) (f) : (s.modRings f).granary = s.granary := rfl
@[simp] theorem State.modRings_ports (s : State) (f) : (s.modRings f).ports = s.ports := rfl
@[simp] theorem State.modRings_streams (s : State) (f) : (s.modRings f).streams = s.streams := rfl
@[simp] theorem State.modRings_transfers (s : State) (f) : (s.modRings f).transfers = s.transfers := rfl
@[simp] theorem State.modRings_quench (s : State) (f) : (s.modRings f).quench = s.quench := rfl
@[simp] theorem State.modRings_drill (s : State) (f) : (s.modRings f).drill = s.drill := rfl
@[simp] theorem State.modRings_probes (s : State) (f) : (s.modRings f).probes = s.probes := rfl
@[simp] theorem State.modRings_test (s : State) (f) : (s.modRings f).test = s.test := rfl
@[simp] theorem State.modRings_power (s : State) (f) : (s.modRings f).power = s.power := rfl

/-! `modTenant` -/

@[simp] theorem State.modTenant_pending (s : State) (i) (f) : (s.modTenant i f).pending = s.pending := rfl
@[simp] theorem State.modTenant_freeCtr (s : State) (i) (f) : (s.modTenant i f).freeCtr = s.freeCtr := rfl
@[simp] theorem State.modTenant_clock (s : State) (i) (f) : (s.modTenant i f).clock = s.clock := rfl
@[simp] theorem State.modTenant_time (s : State) (i) (f) : (s.modTenant i f).time = s.time := rfl
@[simp] theorem State.modTenant_rings (s : State) (i) (f) : (s.modTenant i f).rings = s.rings := rfl
@[simp] theorem State.modTenant_jr (s : State) (i) (f) : (s.modTenant i f).jr = s.jr := rfl
@[simp] theorem State.modTenant_own (s : State) (i) (f) : (s.modTenant i f).own = s.own := rfl
@[simp] theorem State.modTenant_summary (s : State) (i) (f) : (s.modTenant i f).summary = s.summary := rfl
@[simp] theorem State.modTenant_chans (s : State) (i) (f) : (s.modTenant i f).chans = s.chans := rfl
@[simp] theorem State.modTenant_cal (s : State) (i) (f) : (s.modTenant i f).cal = s.cal := rfl
@[simp] theorem State.modTenant_routes (s : State) (i) (f) : (s.modTenant i f).routes = s.routes := rfl
@[simp] theorem State.modTenant_trigOuts (s : State) (i) (f) : (s.modTenant i f).trigOuts = s.trigOuts := rfl
@[simp] theorem State.modTenant_trigIns (s : State) (i) (f) : (s.modTenant i f).trigIns = s.trigIns := rfl
@[simp] theorem State.modTenant_tiller (s : State) (i) (f) : (s.modTenant i f).tiller = s.tiller := rfl
@[simp] theorem State.modTenant_rachis (s : State) (i) (f) : (s.modTenant i f).rachis = s.rachis := rfl
@[simp] theorem State.modTenant_rports (s : State) (i) (f) : (s.modTenant i f).rports = s.rports := rfl
@[simp] theorem State.modTenant_sources (s : State) (i) (f) : (s.modTenant i f).sources = s.sources := rfl
@[simp] theorem State.modTenant_engines (s : State) (i) (f) : (s.modTenant i f).engines = s.engines := rfl
@[simp] theorem State.modTenant_nodes (s : State) (i) (f) : (s.modTenant i f).nodes = s.nodes := rfl
@[simp] theorem State.modTenant_insts (s : State) (i) (f) : (s.modTenant i f).insts = s.insts := rfl
@[simp] theorem State.modTenant_images (s : State) (i) (f) : (s.modTenant i f).images = s.images := rfl
@[simp] theorem State.modTenant_keys (s : State) (i) (f) : (s.modTenant i f).keys = s.keys := rfl
@[simp] theorem State.modTenant_dram (s : State) (i) (f) : (s.modTenant i f).dram = s.dram := rfl
@[simp] theorem State.modTenant_winnow (s : State) (i) (f) : (s.modTenant i f).winnow = s.winnow := rfl
@[simp] theorem State.modTenant_granary (s : State) (i) (f) : (s.modTenant i f).granary = s.granary := rfl
@[simp] theorem State.modTenant_ports (s : State) (i) (f) : (s.modTenant i f).ports = s.ports := rfl
@[simp] theorem State.modTenant_streams (s : State) (i) (f) : (s.modTenant i f).streams = s.streams := rfl
@[simp] theorem State.modTenant_transfers (s : State) (i) (f) : (s.modTenant i f).transfers = s.transfers := rfl
@[simp] theorem State.modTenant_quench (s : State) (i) (f) : (s.modTenant i f).quench = s.quench := rfl
@[simp] theorem State.modTenant_drill (s : State) (i) (f) : (s.modTenant i f).drill = s.drill := rfl
@[simp] theorem State.modTenant_probes (s : State) (i) (f) : (s.modTenant i f).probes = s.probes := rfl
@[simp] theorem State.modTenant_test (s : State) (i) (f) : (s.modTenant i f).test = s.test := rfl
@[simp] theorem State.modTenant_power (s : State) (i) (f) : (s.modTenant i f).power = s.power := rfl

/-! `modChan` -/

@[simp] theorem State.modChan_pending (s : State) (i) (f) : (s.modChan i f).pending = s.pending := rfl
@[simp] theorem State.modChan_freeCtr (s : State) (i) (f) : (s.modChan i f).freeCtr = s.freeCtr := rfl
@[simp] theorem State.modChan_clock (s : State) (i) (f) : (s.modChan i f).clock = s.clock := rfl
@[simp] theorem State.modChan_time (s : State) (i) (f) : (s.modChan i f).time = s.time := rfl
@[simp] theorem State.modChan_rings (s : State) (i) (f) : (s.modChan i f).rings = s.rings := rfl
@[simp] theorem State.modChan_jr (s : State) (i) (f) : (s.modChan i f).jr = s.jr := rfl
@[simp] theorem State.modChan_tenants (s : State) (i) (f) : (s.modChan i f).tenants = s.tenants := rfl
@[simp] theorem State.modChan_own (s : State) (i) (f) : (s.modChan i f).own = s.own := rfl
@[simp] theorem State.modChan_summary (s : State) (i) (f) : (s.modChan i f).summary = s.summary := rfl
@[simp] theorem State.modChan_cal (s : State) (i) (f) : (s.modChan i f).cal = s.cal := rfl
@[simp] theorem State.modChan_routes (s : State) (i) (f) : (s.modChan i f).routes = s.routes := rfl
@[simp] theorem State.modChan_trigOuts (s : State) (i) (f) : (s.modChan i f).trigOuts = s.trigOuts := rfl
@[simp] theorem State.modChan_trigIns (s : State) (i) (f) : (s.modChan i f).trigIns = s.trigIns := rfl
@[simp] theorem State.modChan_tiller (s : State) (i) (f) : (s.modChan i f).tiller = s.tiller := rfl
@[simp] theorem State.modChan_rachis (s : State) (i) (f) : (s.modChan i f).rachis = s.rachis := rfl
@[simp] theorem State.modChan_rports (s : State) (i) (f) : (s.modChan i f).rports = s.rports := rfl
@[simp] theorem State.modChan_sources (s : State) (i) (f) : (s.modChan i f).sources = s.sources := rfl
@[simp] theorem State.modChan_engines (s : State) (i) (f) : (s.modChan i f).engines = s.engines := rfl
@[simp] theorem State.modChan_nodes (s : State) (i) (f) : (s.modChan i f).nodes = s.nodes := rfl
@[simp] theorem State.modChan_insts (s : State) (i) (f) : (s.modChan i f).insts = s.insts := rfl
@[simp] theorem State.modChan_images (s : State) (i) (f) : (s.modChan i f).images = s.images := rfl
@[simp] theorem State.modChan_keys (s : State) (i) (f) : (s.modChan i f).keys = s.keys := rfl
@[simp] theorem State.modChan_dram (s : State) (i) (f) : (s.modChan i f).dram = s.dram := rfl
@[simp] theorem State.modChan_winnow (s : State) (i) (f) : (s.modChan i f).winnow = s.winnow := rfl
@[simp] theorem State.modChan_granary (s : State) (i) (f) : (s.modChan i f).granary = s.granary := rfl
@[simp] theorem State.modChan_ports (s : State) (i) (f) : (s.modChan i f).ports = s.ports := rfl
@[simp] theorem State.modChan_streams (s : State) (i) (f) : (s.modChan i f).streams = s.streams := rfl
@[simp] theorem State.modChan_transfers (s : State) (i) (f) : (s.modChan i f).transfers = s.transfers := rfl
@[simp] theorem State.modChan_quench (s : State) (i) (f) : (s.modChan i f).quench = s.quench := rfl
@[simp] theorem State.modChan_drill (s : State) (i) (f) : (s.modChan i f).drill = s.drill := rfl
@[simp] theorem State.modChan_probes (s : State) (i) (f) : (s.modChan i f).probes = s.probes := rfl
@[simp] theorem State.modChan_test (s : State) (i) (f) : (s.modChan i f).test = s.test := rfl
@[simp] theorem State.modChan_power (s : State) (i) (f) : (s.modChan i f).power = s.power := rfl

/-! `modRoute` -/

@[simp] theorem State.modRoute_pending (s : State) (i) (f) : (s.modRoute i f).pending = s.pending := rfl
@[simp] theorem State.modRoute_freeCtr (s : State) (i) (f) : (s.modRoute i f).freeCtr = s.freeCtr := rfl
@[simp] theorem State.modRoute_clock (s : State) (i) (f) : (s.modRoute i f).clock = s.clock := rfl
@[simp] theorem State.modRoute_time (s : State) (i) (f) : (s.modRoute i f).time = s.time := rfl
@[simp] theorem State.modRoute_rings (s : State) (i) (f) : (s.modRoute i f).rings = s.rings := rfl
@[simp] theorem State.modRoute_jr (s : State) (i) (f) : (s.modRoute i f).jr = s.jr := rfl
@[simp] theorem State.modRoute_tenants (s : State) (i) (f) : (s.modRoute i f).tenants = s.tenants := rfl
@[simp] theorem State.modRoute_own (s : State) (i) (f) : (s.modRoute i f).own = s.own := rfl
@[simp] theorem State.modRoute_summary (s : State) (i) (f) : (s.modRoute i f).summary = s.summary := rfl
@[simp] theorem State.modRoute_chans (s : State) (i) (f) : (s.modRoute i f).chans = s.chans := rfl
@[simp] theorem State.modRoute_cal (s : State) (i) (f) : (s.modRoute i f).cal = s.cal := rfl
@[simp] theorem State.modRoute_trigOuts (s : State) (i) (f) : (s.modRoute i f).trigOuts = s.trigOuts := rfl
@[simp] theorem State.modRoute_trigIns (s : State) (i) (f) : (s.modRoute i f).trigIns = s.trigIns := rfl
@[simp] theorem State.modRoute_tiller (s : State) (i) (f) : (s.modRoute i f).tiller = s.tiller := rfl
@[simp] theorem State.modRoute_rachis (s : State) (i) (f) : (s.modRoute i f).rachis = s.rachis := rfl
@[simp] theorem State.modRoute_rports (s : State) (i) (f) : (s.modRoute i f).rports = s.rports := rfl
@[simp] theorem State.modRoute_sources (s : State) (i) (f) : (s.modRoute i f).sources = s.sources := rfl
@[simp] theorem State.modRoute_engines (s : State) (i) (f) : (s.modRoute i f).engines = s.engines := rfl
@[simp] theorem State.modRoute_nodes (s : State) (i) (f) : (s.modRoute i f).nodes = s.nodes := rfl
@[simp] theorem State.modRoute_insts (s : State) (i) (f) : (s.modRoute i f).insts = s.insts := rfl
@[simp] theorem State.modRoute_images (s : State) (i) (f) : (s.modRoute i f).images = s.images := rfl
@[simp] theorem State.modRoute_keys (s : State) (i) (f) : (s.modRoute i f).keys = s.keys := rfl
@[simp] theorem State.modRoute_dram (s : State) (i) (f) : (s.modRoute i f).dram = s.dram := rfl
@[simp] theorem State.modRoute_winnow (s : State) (i) (f) : (s.modRoute i f).winnow = s.winnow := rfl
@[simp] theorem State.modRoute_granary (s : State) (i) (f) : (s.modRoute i f).granary = s.granary := rfl
@[simp] theorem State.modRoute_ports (s : State) (i) (f) : (s.modRoute i f).ports = s.ports := rfl
@[simp] theorem State.modRoute_streams (s : State) (i) (f) : (s.modRoute i f).streams = s.streams := rfl
@[simp] theorem State.modRoute_transfers (s : State) (i) (f) : (s.modRoute i f).transfers = s.transfers := rfl
@[simp] theorem State.modRoute_quench (s : State) (i) (f) : (s.modRoute i f).quench = s.quench := rfl
@[simp] theorem State.modRoute_drill (s : State) (i) (f) : (s.modRoute i f).drill = s.drill := rfl
@[simp] theorem State.modRoute_probes (s : State) (i) (f) : (s.modRoute i f).probes = s.probes := rfl
@[simp] theorem State.modRoute_test (s : State) (i) (f) : (s.modRoute i f).test = s.test := rfl
@[simp] theorem State.modRoute_power (s : State) (i) (f) : (s.modRoute i f).power = s.power := rfl

/-! `modSource` -/

@[simp] theorem State.modSource_pending (s : State) (i) (f) : (s.modSource i f).pending = s.pending := rfl
@[simp] theorem State.modSource_freeCtr (s : State) (i) (f) : (s.modSource i f).freeCtr = s.freeCtr := rfl
@[simp] theorem State.modSource_clock (s : State) (i) (f) : (s.modSource i f).clock = s.clock := rfl
@[simp] theorem State.modSource_time (s : State) (i) (f) : (s.modSource i f).time = s.time := rfl
@[simp] theorem State.modSource_rings (s : State) (i) (f) : (s.modSource i f).rings = s.rings := rfl
@[simp] theorem State.modSource_jr (s : State) (i) (f) : (s.modSource i f).jr = s.jr := rfl
@[simp] theorem State.modSource_tenants (s : State) (i) (f) : (s.modSource i f).tenants = s.tenants := rfl
@[simp] theorem State.modSource_own (s : State) (i) (f) : (s.modSource i f).own = s.own := rfl
@[simp] theorem State.modSource_summary (s : State) (i) (f) : (s.modSource i f).summary = s.summary := rfl
@[simp] theorem State.modSource_chans (s : State) (i) (f) : (s.modSource i f).chans = s.chans := rfl
@[simp] theorem State.modSource_cal (s : State) (i) (f) : (s.modSource i f).cal = s.cal := rfl
@[simp] theorem State.modSource_routes (s : State) (i) (f) : (s.modSource i f).routes = s.routes := rfl
@[simp] theorem State.modSource_trigOuts (s : State) (i) (f) : (s.modSource i f).trigOuts = s.trigOuts := rfl
@[simp] theorem State.modSource_trigIns (s : State) (i) (f) : (s.modSource i f).trigIns = s.trigIns := rfl
@[simp] theorem State.modSource_tiller (s : State) (i) (f) : (s.modSource i f).tiller = s.tiller := rfl
@[simp] theorem State.modSource_rachis (s : State) (i) (f) : (s.modSource i f).rachis = s.rachis := rfl
@[simp] theorem State.modSource_rports (s : State) (i) (f) : (s.modSource i f).rports = s.rports := rfl
@[simp] theorem State.modSource_engines (s : State) (i) (f) : (s.modSource i f).engines = s.engines := rfl
@[simp] theorem State.modSource_nodes (s : State) (i) (f) : (s.modSource i f).nodes = s.nodes := rfl
@[simp] theorem State.modSource_insts (s : State) (i) (f) : (s.modSource i f).insts = s.insts := rfl
@[simp] theorem State.modSource_images (s : State) (i) (f) : (s.modSource i f).images = s.images := rfl
@[simp] theorem State.modSource_keys (s : State) (i) (f) : (s.modSource i f).keys = s.keys := rfl
@[simp] theorem State.modSource_dram (s : State) (i) (f) : (s.modSource i f).dram = s.dram := rfl
@[simp] theorem State.modSource_winnow (s : State) (i) (f) : (s.modSource i f).winnow = s.winnow := rfl
@[simp] theorem State.modSource_granary (s : State) (i) (f) : (s.modSource i f).granary = s.granary := rfl
@[simp] theorem State.modSource_ports (s : State) (i) (f) : (s.modSource i f).ports = s.ports := rfl
@[simp] theorem State.modSource_streams (s : State) (i) (f) : (s.modSource i f).streams = s.streams := rfl
@[simp] theorem State.modSource_transfers (s : State) (i) (f) : (s.modSource i f).transfers = s.transfers := rfl
@[simp] theorem State.modSource_quench (s : State) (i) (f) : (s.modSource i f).quench = s.quench := rfl
@[simp] theorem State.modSource_drill (s : State) (i) (f) : (s.modSource i f).drill = s.drill := rfl
@[simp] theorem State.modSource_probes (s : State) (i) (f) : (s.modSource i f).probes = s.probes := rfl
@[simp] theorem State.modSource_test (s : State) (i) (f) : (s.modSource i f).test = s.test := rfl
@[simp] theorem State.modSource_power (s : State) (i) (f) : (s.modSource i f).power = s.power := rfl

/-! `modLane` -/

@[simp] theorem State.modLane_pending (s : State) (i) (j) (f) : (s.modLane i j f).pending = s.pending := rfl
@[simp] theorem State.modLane_freeCtr (s : State) (i) (j) (f) : (s.modLane i j f).freeCtr = s.freeCtr := rfl
@[simp] theorem State.modLane_clock (s : State) (i) (j) (f) : (s.modLane i j f).clock = s.clock := rfl
@[simp] theorem State.modLane_time (s : State) (i) (j) (f) : (s.modLane i j f).time = s.time := rfl
@[simp] theorem State.modLane_rings (s : State) (i) (j) (f) : (s.modLane i j f).rings = s.rings := rfl
@[simp] theorem State.modLane_jr (s : State) (i) (j) (f) : (s.modLane i j f).jr = s.jr := rfl
@[simp] theorem State.modLane_tenants (s : State) (i) (j) (f) : (s.modLane i j f).tenants = s.tenants := rfl
@[simp] theorem State.modLane_own (s : State) (i) (j) (f) : (s.modLane i j f).own = s.own := rfl
@[simp] theorem State.modLane_summary (s : State) (i) (j) (f) : (s.modLane i j f).summary = s.summary := rfl
@[simp] theorem State.modLane_chans (s : State) (i) (j) (f) : (s.modLane i j f).chans = s.chans := rfl
@[simp] theorem State.modLane_cal (s : State) (i) (j) (f) : (s.modLane i j f).cal = s.cal := rfl
@[simp] theorem State.modLane_routes (s : State) (i) (j) (f) : (s.modLane i j f).routes = s.routes := rfl
@[simp] theorem State.modLane_trigOuts (s : State) (i) (j) (f) : (s.modLane i j f).trigOuts = s.trigOuts := rfl
@[simp] theorem State.modLane_trigIns (s : State) (i) (j) (f) : (s.modLane i j f).trigIns = s.trigIns := rfl
@[simp] theorem State.modLane_tiller (s : State) (i) (j) (f) : (s.modLane i j f).tiller = s.tiller := rfl
@[simp] theorem State.modLane_rachis (s : State) (i) (j) (f) : (s.modLane i j f).rachis = s.rachis := rfl
@[simp] theorem State.modLane_rports (s : State) (i) (j) (f) : (s.modLane i j f).rports = s.rports := rfl
@[simp] theorem State.modLane_engines (s : State) (i) (j) (f) : (s.modLane i j f).engines = s.engines := rfl
@[simp] theorem State.modLane_nodes (s : State) (i) (j) (f) : (s.modLane i j f).nodes = s.nodes := rfl
@[simp] theorem State.modLane_insts (s : State) (i) (j) (f) : (s.modLane i j f).insts = s.insts := rfl
@[simp] theorem State.modLane_images (s : State) (i) (j) (f) : (s.modLane i j f).images = s.images := rfl
@[simp] theorem State.modLane_keys (s : State) (i) (j) (f) : (s.modLane i j f).keys = s.keys := rfl
@[simp] theorem State.modLane_dram (s : State) (i) (j) (f) : (s.modLane i j f).dram = s.dram := rfl
@[simp] theorem State.modLane_winnow (s : State) (i) (j) (f) : (s.modLane i j f).winnow = s.winnow := rfl
@[simp] theorem State.modLane_granary (s : State) (i) (j) (f) : (s.modLane i j f).granary = s.granary := rfl
@[simp] theorem State.modLane_ports (s : State) (i) (j) (f) : (s.modLane i j f).ports = s.ports := rfl
@[simp] theorem State.modLane_streams (s : State) (i) (j) (f) : (s.modLane i j f).streams = s.streams := rfl
@[simp] theorem State.modLane_transfers (s : State) (i) (j) (f) : (s.modLane i j f).transfers = s.transfers := rfl
@[simp] theorem State.modLane_quench (s : State) (i) (j) (f) : (s.modLane i j f).quench = s.quench := rfl
@[simp] theorem State.modLane_drill (s : State) (i) (j) (f) : (s.modLane i j f).drill = s.drill := rfl
@[simp] theorem State.modLane_probes (s : State) (i) (j) (f) : (s.modLane i j f).probes = s.probes := rfl
@[simp] theorem State.modLane_test (s : State) (i) (j) (f) : (s.modLane i j f).test = s.test := rfl
@[simp] theorem State.modLane_power (s : State) (i) (j) (f) : (s.modLane i j f).power = s.power := rfl

/-! `modEngine` -/

@[simp] theorem State.modEngine_pending (s : State) (i) (f) : (s.modEngine i f).pending = s.pending := rfl
@[simp] theorem State.modEngine_freeCtr (s : State) (i) (f) : (s.modEngine i f).freeCtr = s.freeCtr := rfl
@[simp] theorem State.modEngine_clock (s : State) (i) (f) : (s.modEngine i f).clock = s.clock := rfl
@[simp] theorem State.modEngine_time (s : State) (i) (f) : (s.modEngine i f).time = s.time := rfl
@[simp] theorem State.modEngine_rings (s : State) (i) (f) : (s.modEngine i f).rings = s.rings := rfl
@[simp] theorem State.modEngine_jr (s : State) (i) (f) : (s.modEngine i f).jr = s.jr := rfl
@[simp] theorem State.modEngine_tenants (s : State) (i) (f) : (s.modEngine i f).tenants = s.tenants := rfl
@[simp] theorem State.modEngine_own (s : State) (i) (f) : (s.modEngine i f).own = s.own := rfl
@[simp] theorem State.modEngine_summary (s : State) (i) (f) : (s.modEngine i f).summary = s.summary := rfl
@[simp] theorem State.modEngine_chans (s : State) (i) (f) : (s.modEngine i f).chans = s.chans := rfl
@[simp] theorem State.modEngine_cal (s : State) (i) (f) : (s.modEngine i f).cal = s.cal := rfl
@[simp] theorem State.modEngine_routes (s : State) (i) (f) : (s.modEngine i f).routes = s.routes := rfl
@[simp] theorem State.modEngine_trigOuts (s : State) (i) (f) : (s.modEngine i f).trigOuts = s.trigOuts := rfl
@[simp] theorem State.modEngine_trigIns (s : State) (i) (f) : (s.modEngine i f).trigIns = s.trigIns := rfl
@[simp] theorem State.modEngine_tiller (s : State) (i) (f) : (s.modEngine i f).tiller = s.tiller := rfl
@[simp] theorem State.modEngine_rachis (s : State) (i) (f) : (s.modEngine i f).rachis = s.rachis := rfl
@[simp] theorem State.modEngine_rports (s : State) (i) (f) : (s.modEngine i f).rports = s.rports := rfl
@[simp] theorem State.modEngine_sources (s : State) (i) (f) : (s.modEngine i f).sources = s.sources := rfl
@[simp] theorem State.modEngine_nodes (s : State) (i) (f) : (s.modEngine i f).nodes = s.nodes := rfl
@[simp] theorem State.modEngine_insts (s : State) (i) (f) : (s.modEngine i f).insts = s.insts := rfl
@[simp] theorem State.modEngine_images (s : State) (i) (f) : (s.modEngine i f).images = s.images := rfl
@[simp] theorem State.modEngine_keys (s : State) (i) (f) : (s.modEngine i f).keys = s.keys := rfl
@[simp] theorem State.modEngine_dram (s : State) (i) (f) : (s.modEngine i f).dram = s.dram := rfl
@[simp] theorem State.modEngine_winnow (s : State) (i) (f) : (s.modEngine i f).winnow = s.winnow := rfl
@[simp] theorem State.modEngine_granary (s : State) (i) (f) : (s.modEngine i f).granary = s.granary := rfl
@[simp] theorem State.modEngine_ports (s : State) (i) (f) : (s.modEngine i f).ports = s.ports := rfl
@[simp] theorem State.modEngine_streams (s : State) (i) (f) : (s.modEngine i f).streams = s.streams := rfl
@[simp] theorem State.modEngine_transfers (s : State) (i) (f) : (s.modEngine i f).transfers = s.transfers := rfl
@[simp] theorem State.modEngine_quench (s : State) (i) (f) : (s.modEngine i f).quench = s.quench := rfl
@[simp] theorem State.modEngine_drill (s : State) (i) (f) : (s.modEngine i f).drill = s.drill := rfl
@[simp] theorem State.modEngine_probes (s : State) (i) (f) : (s.modEngine i f).probes = s.probes := rfl
@[simp] theorem State.modEngine_test (s : State) (i) (f) : (s.modEngine i f).test = s.test := rfl
@[simp] theorem State.modEngine_power (s : State) (i) (f) : (s.modEngine i f).power = s.power := rfl

/-! `modInst` -/

@[simp] theorem State.modInst_pending (s : State) (i) (f) : (s.modInst i f).pending = s.pending := rfl
@[simp] theorem State.modInst_freeCtr (s : State) (i) (f) : (s.modInst i f).freeCtr = s.freeCtr := rfl
@[simp] theorem State.modInst_clock (s : State) (i) (f) : (s.modInst i f).clock = s.clock := rfl
@[simp] theorem State.modInst_time (s : State) (i) (f) : (s.modInst i f).time = s.time := rfl
@[simp] theorem State.modInst_rings (s : State) (i) (f) : (s.modInst i f).rings = s.rings := rfl
@[simp] theorem State.modInst_jr (s : State) (i) (f) : (s.modInst i f).jr = s.jr := rfl
@[simp] theorem State.modInst_tenants (s : State) (i) (f) : (s.modInst i f).tenants = s.tenants := rfl
@[simp] theorem State.modInst_own (s : State) (i) (f) : (s.modInst i f).own = s.own := rfl
@[simp] theorem State.modInst_summary (s : State) (i) (f) : (s.modInst i f).summary = s.summary := rfl
@[simp] theorem State.modInst_chans (s : State) (i) (f) : (s.modInst i f).chans = s.chans := rfl
@[simp] theorem State.modInst_cal (s : State) (i) (f) : (s.modInst i f).cal = s.cal := rfl
@[simp] theorem State.modInst_routes (s : State) (i) (f) : (s.modInst i f).routes = s.routes := rfl
@[simp] theorem State.modInst_trigOuts (s : State) (i) (f) : (s.modInst i f).trigOuts = s.trigOuts := rfl
@[simp] theorem State.modInst_trigIns (s : State) (i) (f) : (s.modInst i f).trigIns = s.trigIns := rfl
@[simp] theorem State.modInst_tiller (s : State) (i) (f) : (s.modInst i f).tiller = s.tiller := rfl
@[simp] theorem State.modInst_rachis (s : State) (i) (f) : (s.modInst i f).rachis = s.rachis := rfl
@[simp] theorem State.modInst_rports (s : State) (i) (f) : (s.modInst i f).rports = s.rports := rfl
@[simp] theorem State.modInst_sources (s : State) (i) (f) : (s.modInst i f).sources = s.sources := rfl
@[simp] theorem State.modInst_engines (s : State) (i) (f) : (s.modInst i f).engines = s.engines := rfl
@[simp] theorem State.modInst_nodes (s : State) (i) (f) : (s.modInst i f).nodes = s.nodes := rfl
@[simp] theorem State.modInst_images (s : State) (i) (f) : (s.modInst i f).images = s.images := rfl
@[simp] theorem State.modInst_keys (s : State) (i) (f) : (s.modInst i f).keys = s.keys := rfl
@[simp] theorem State.modInst_dram (s : State) (i) (f) : (s.modInst i f).dram = s.dram := rfl
@[simp] theorem State.modInst_winnow (s : State) (i) (f) : (s.modInst i f).winnow = s.winnow := rfl
@[simp] theorem State.modInst_granary (s : State) (i) (f) : (s.modInst i f).granary = s.granary := rfl
@[simp] theorem State.modInst_ports (s : State) (i) (f) : (s.modInst i f).ports = s.ports := rfl
@[simp] theorem State.modInst_streams (s : State) (i) (f) : (s.modInst i f).streams = s.streams := rfl
@[simp] theorem State.modInst_transfers (s : State) (i) (f) : (s.modInst i f).transfers = s.transfers := rfl
@[simp] theorem State.modInst_quench (s : State) (i) (f) : (s.modInst i f).quench = s.quench := rfl
@[simp] theorem State.modInst_drill (s : State) (i) (f) : (s.modInst i f).drill = s.drill := rfl
@[simp] theorem State.modInst_probes (s : State) (i) (f) : (s.modInst i f).probes = s.probes := rfl
@[simp] theorem State.modInst_test (s : State) (i) (f) : (s.modInst i f).test = s.test := rfl
@[simp] theorem State.modInst_power (s : State) (i) (f) : (s.modInst i f).power = s.power := rfl

/-! `modDram` -/

@[simp] theorem State.modDram_pending (s : State) (k) (f) : (s.modDram k f).pending = s.pending := rfl
@[simp] theorem State.modDram_freeCtr (s : State) (k) (f) : (s.modDram k f).freeCtr = s.freeCtr := rfl
@[simp] theorem State.modDram_clock (s : State) (k) (f) : (s.modDram k f).clock = s.clock := rfl
@[simp] theorem State.modDram_time (s : State) (k) (f) : (s.modDram k f).time = s.time := rfl
@[simp] theorem State.modDram_rings (s : State) (k) (f) : (s.modDram k f).rings = s.rings := rfl
@[simp] theorem State.modDram_jr (s : State) (k) (f) : (s.modDram k f).jr = s.jr := rfl
@[simp] theorem State.modDram_tenants (s : State) (k) (f) : (s.modDram k f).tenants = s.tenants := rfl
@[simp] theorem State.modDram_own (s : State) (k) (f) : (s.modDram k f).own = s.own := rfl
@[simp] theorem State.modDram_summary (s : State) (k) (f) : (s.modDram k f).summary = s.summary := rfl
@[simp] theorem State.modDram_chans (s : State) (k) (f) : (s.modDram k f).chans = s.chans := rfl
@[simp] theorem State.modDram_cal (s : State) (k) (f) : (s.modDram k f).cal = s.cal := rfl
@[simp] theorem State.modDram_routes (s : State) (k) (f) : (s.modDram k f).routes = s.routes := rfl
@[simp] theorem State.modDram_trigOuts (s : State) (k) (f) : (s.modDram k f).trigOuts = s.trigOuts := rfl
@[simp] theorem State.modDram_trigIns (s : State) (k) (f) : (s.modDram k f).trigIns = s.trigIns := rfl
@[simp] theorem State.modDram_tiller (s : State) (k) (f) : (s.modDram k f).tiller = s.tiller := rfl
@[simp] theorem State.modDram_rachis (s : State) (k) (f) : (s.modDram k f).rachis = s.rachis := rfl
@[simp] theorem State.modDram_rports (s : State) (k) (f) : (s.modDram k f).rports = s.rports := rfl
@[simp] theorem State.modDram_sources (s : State) (k) (f) : (s.modDram k f).sources = s.sources := rfl
@[simp] theorem State.modDram_engines (s : State) (k) (f) : (s.modDram k f).engines = s.engines := rfl
@[simp] theorem State.modDram_nodes (s : State) (k) (f) : (s.modDram k f).nodes = s.nodes := rfl
@[simp] theorem State.modDram_insts (s : State) (k) (f) : (s.modDram k f).insts = s.insts := rfl
@[simp] theorem State.modDram_images (s : State) (k) (f) : (s.modDram k f).images = s.images := rfl
@[simp] theorem State.modDram_keys (s : State) (k) (f) : (s.modDram k f).keys = s.keys := rfl
@[simp] theorem State.modDram_winnow (s : State) (k) (f) : (s.modDram k f).winnow = s.winnow := rfl
@[simp] theorem State.modDram_granary (s : State) (k) (f) : (s.modDram k f).granary = s.granary := rfl
@[simp] theorem State.modDram_ports (s : State) (k) (f) : (s.modDram k f).ports = s.ports := rfl
@[simp] theorem State.modDram_streams (s : State) (k) (f) : (s.modDram k f).streams = s.streams := rfl
@[simp] theorem State.modDram_transfers (s : State) (k) (f) : (s.modDram k f).transfers = s.transfers := rfl
@[simp] theorem State.modDram_quench (s : State) (k) (f) : (s.modDram k f).quench = s.quench := rfl
@[simp] theorem State.modDram_drill (s : State) (k) (f) : (s.modDram k f).drill = s.drill := rfl
@[simp] theorem State.modDram_probes (s : State) (k) (f) : (s.modDram k f).probes = s.probes := rfl
@[simp] theorem State.modDram_test (s : State) (k) (f) : (s.modDram k f).test = s.test := rfl
@[simp] theorem State.modDram_power (s : State) (k) (f) : (s.modDram k f).power = s.power := rfl

/-! `modCassette` -/

@[simp] theorem State.modCassette_pending (s : State) (k) (f) : (s.modCassette k f).pending = s.pending := rfl
@[simp] theorem State.modCassette_freeCtr (s : State) (k) (f) : (s.modCassette k f).freeCtr = s.freeCtr := rfl
@[simp] theorem State.modCassette_clock (s : State) (k) (f) : (s.modCassette k f).clock = s.clock := rfl
@[simp] theorem State.modCassette_time (s : State) (k) (f) : (s.modCassette k f).time = s.time := rfl
@[simp] theorem State.modCassette_rings (s : State) (k) (f) : (s.modCassette k f).rings = s.rings := rfl
@[simp] theorem State.modCassette_jr (s : State) (k) (f) : (s.modCassette k f).jr = s.jr := rfl
@[simp] theorem State.modCassette_tenants (s : State) (k) (f) : (s.modCassette k f).tenants = s.tenants := rfl
@[simp] theorem State.modCassette_own (s : State) (k) (f) : (s.modCassette k f).own = s.own := rfl
@[simp] theorem State.modCassette_summary (s : State) (k) (f) : (s.modCassette k f).summary = s.summary := rfl
@[simp] theorem State.modCassette_chans (s : State) (k) (f) : (s.modCassette k f).chans = s.chans := rfl
@[simp] theorem State.modCassette_cal (s : State) (k) (f) : (s.modCassette k f).cal = s.cal := rfl
@[simp] theorem State.modCassette_routes (s : State) (k) (f) : (s.modCassette k f).routes = s.routes := rfl
@[simp] theorem State.modCassette_trigOuts (s : State) (k) (f) : (s.modCassette k f).trigOuts = s.trigOuts := rfl
@[simp] theorem State.modCassette_trigIns (s : State) (k) (f) : (s.modCassette k f).trigIns = s.trigIns := rfl
@[simp] theorem State.modCassette_tiller (s : State) (k) (f) : (s.modCassette k f).tiller = s.tiller := rfl
@[simp] theorem State.modCassette_rachis (s : State) (k) (f) : (s.modCassette k f).rachis = s.rachis := rfl
@[simp] theorem State.modCassette_rports (s : State) (k) (f) : (s.modCassette k f).rports = s.rports := rfl
@[simp] theorem State.modCassette_sources (s : State) (k) (f) : (s.modCassette k f).sources = s.sources := rfl
@[simp] theorem State.modCassette_engines (s : State) (k) (f) : (s.modCassette k f).engines = s.engines := rfl
@[simp] theorem State.modCassette_nodes (s : State) (k) (f) : (s.modCassette k f).nodes = s.nodes := rfl
@[simp] theorem State.modCassette_insts (s : State) (k) (f) : (s.modCassette k f).insts = s.insts := rfl
@[simp] theorem State.modCassette_images (s : State) (k) (f) : (s.modCassette k f).images = s.images := rfl
@[simp] theorem State.modCassette_keys (s : State) (k) (f) : (s.modCassette k f).keys = s.keys := rfl
@[simp] theorem State.modCassette_dram (s : State) (k) (f) : (s.modCassette k f).dram = s.dram := rfl
@[simp] theorem State.modCassette_winnow (s : State) (k) (f) : (s.modCassette k f).winnow = s.winnow := rfl
@[simp] theorem State.modCassette_ports (s : State) (k) (f) : (s.modCassette k f).ports = s.ports := rfl
@[simp] theorem State.modCassette_streams (s : State) (k) (f) : (s.modCassette k f).streams = s.streams := rfl
@[simp] theorem State.modCassette_transfers (s : State) (k) (f) : (s.modCassette k f).transfers = s.transfers := rfl
@[simp] theorem State.modCassette_quench (s : State) (k) (f) : (s.modCassette k f).quench = s.quench := rfl
@[simp] theorem State.modCassette_drill (s : State) (k) (f) : (s.modCassette k f).drill = s.drill := rfl
@[simp] theorem State.modCassette_probes (s : State) (k) (f) : (s.modCassette k f).probes = s.probes := rfl
@[simp] theorem State.modCassette_test (s : State) (k) (f) : (s.modCassette k f).test = s.test := rfl
@[simp] theorem State.modCassette_power (s : State) (k) (f) : (s.modCassette k f).power = s.power := rfl

/-! `modDie` -/

@[simp] theorem State.modDie_pending (s : State) (k) (f) : (s.modDie k f).pending = s.pending := rfl
@[simp] theorem State.modDie_freeCtr (s : State) (k) (f) : (s.modDie k f).freeCtr = s.freeCtr := rfl
@[simp] theorem State.modDie_clock (s : State) (k) (f) : (s.modDie k f).clock = s.clock := rfl
@[simp] theorem State.modDie_time (s : State) (k) (f) : (s.modDie k f).time = s.time := rfl
@[simp] theorem State.modDie_rings (s : State) (k) (f) : (s.modDie k f).rings = s.rings := rfl
@[simp] theorem State.modDie_jr (s : State) (k) (f) : (s.modDie k f).jr = s.jr := rfl
@[simp] theorem State.modDie_tenants (s : State) (k) (f) : (s.modDie k f).tenants = s.tenants := rfl
@[simp] theorem State.modDie_own (s : State) (k) (f) : (s.modDie k f).own = s.own := rfl
@[simp] theorem State.modDie_summary (s : State) (k) (f) : (s.modDie k f).summary = s.summary := rfl
@[simp] theorem State.modDie_chans (s : State) (k) (f) : (s.modDie k f).chans = s.chans := rfl
@[simp] theorem State.modDie_cal (s : State) (k) (f) : (s.modDie k f).cal = s.cal := rfl
@[simp] theorem State.modDie_routes (s : State) (k) (f) : (s.modDie k f).routes = s.routes := rfl
@[simp] theorem State.modDie_trigOuts (s : State) (k) (f) : (s.modDie k f).trigOuts = s.trigOuts := rfl
@[simp] theorem State.modDie_trigIns (s : State) (k) (f) : (s.modDie k f).trigIns = s.trigIns := rfl
@[simp] theorem State.modDie_tiller (s : State) (k) (f) : (s.modDie k f).tiller = s.tiller := rfl
@[simp] theorem State.modDie_rachis (s : State) (k) (f) : (s.modDie k f).rachis = s.rachis := rfl
@[simp] theorem State.modDie_rports (s : State) (k) (f) : (s.modDie k f).rports = s.rports := rfl
@[simp] theorem State.modDie_sources (s : State) (k) (f) : (s.modDie k f).sources = s.sources := rfl
@[simp] theorem State.modDie_engines (s : State) (k) (f) : (s.modDie k f).engines = s.engines := rfl
@[simp] theorem State.modDie_nodes (s : State) (k) (f) : (s.modDie k f).nodes = s.nodes := rfl
@[simp] theorem State.modDie_insts (s : State) (k) (f) : (s.modDie k f).insts = s.insts := rfl
@[simp] theorem State.modDie_images (s : State) (k) (f) : (s.modDie k f).images = s.images := rfl
@[simp] theorem State.modDie_keys (s : State) (k) (f) : (s.modDie k f).keys = s.keys := rfl
@[simp] theorem State.modDie_dram (s : State) (k) (f) : (s.modDie k f).dram = s.dram := rfl
@[simp] theorem State.modDie_winnow (s : State) (k) (f) : (s.modDie k f).winnow = s.winnow := rfl
@[simp] theorem State.modDie_ports (s : State) (k) (f) : (s.modDie k f).ports = s.ports := rfl
@[simp] theorem State.modDie_streams (s : State) (k) (f) : (s.modDie k f).streams = s.streams := rfl
@[simp] theorem State.modDie_transfers (s : State) (k) (f) : (s.modDie k f).transfers = s.transfers := rfl
@[simp] theorem State.modDie_quench (s : State) (k) (f) : (s.modDie k f).quench = s.quench := rfl
@[simp] theorem State.modDie_drill (s : State) (k) (f) : (s.modDie k f).drill = s.drill := rfl
@[simp] theorem State.modDie_probes (s : State) (k) (f) : (s.modDie k f).probes = s.probes := rfl
@[simp] theorem State.modDie_test (s : State) (k) (f) : (s.modDie k f).test = s.test := rfl
@[simp] theorem State.modDie_power (s : State) (k) (f) : (s.modDie k f).power = s.power := rfl

/-! `modJob` -/

@[simp] theorem State.modJob_pending (s : State) (k) (f) : (s.modJob k f).pending = s.pending := rfl
@[simp] theorem State.modJob_freeCtr (s : State) (k) (f) : (s.modJob k f).freeCtr = s.freeCtr := rfl
@[simp] theorem State.modJob_clock (s : State) (k) (f) : (s.modJob k f).clock = s.clock := rfl
@[simp] theorem State.modJob_time (s : State) (k) (f) : (s.modJob k f).time = s.time := rfl
@[simp] theorem State.modJob_rings (s : State) (k) (f) : (s.modJob k f).rings = s.rings := rfl
@[simp] theorem State.modJob_jr (s : State) (k) (f) : (s.modJob k f).jr = s.jr := rfl
@[simp] theorem State.modJob_tenants (s : State) (k) (f) : (s.modJob k f).tenants = s.tenants := rfl
@[simp] theorem State.modJob_own (s : State) (k) (f) : (s.modJob k f).own = s.own := rfl
@[simp] theorem State.modJob_summary (s : State) (k) (f) : (s.modJob k f).summary = s.summary := rfl
@[simp] theorem State.modJob_chans (s : State) (k) (f) : (s.modJob k f).chans = s.chans := rfl
@[simp] theorem State.modJob_cal (s : State) (k) (f) : (s.modJob k f).cal = s.cal := rfl
@[simp] theorem State.modJob_routes (s : State) (k) (f) : (s.modJob k f).routes = s.routes := rfl
@[simp] theorem State.modJob_trigOuts (s : State) (k) (f) : (s.modJob k f).trigOuts = s.trigOuts := rfl
@[simp] theorem State.modJob_trigIns (s : State) (k) (f) : (s.modJob k f).trigIns = s.trigIns := rfl
@[simp] theorem State.modJob_tiller (s : State) (k) (f) : (s.modJob k f).tiller = s.tiller := rfl
@[simp] theorem State.modJob_rachis (s : State) (k) (f) : (s.modJob k f).rachis = s.rachis := rfl
@[simp] theorem State.modJob_rports (s : State) (k) (f) : (s.modJob k f).rports = s.rports := rfl
@[simp] theorem State.modJob_sources (s : State) (k) (f) : (s.modJob k f).sources = s.sources := rfl
@[simp] theorem State.modJob_engines (s : State) (k) (f) : (s.modJob k f).engines = s.engines := rfl
@[simp] theorem State.modJob_nodes (s : State) (k) (f) : (s.modJob k f).nodes = s.nodes := rfl
@[simp] theorem State.modJob_insts (s : State) (k) (f) : (s.modJob k f).insts = s.insts := rfl
@[simp] theorem State.modJob_images (s : State) (k) (f) : (s.modJob k f).images = s.images := rfl
@[simp] theorem State.modJob_keys (s : State) (k) (f) : (s.modJob k f).keys = s.keys := rfl
@[simp] theorem State.modJob_dram (s : State) (k) (f) : (s.modJob k f).dram = s.dram := rfl
@[simp] theorem State.modJob_winnow (s : State) (k) (f) : (s.modJob k f).winnow = s.winnow := rfl
@[simp] theorem State.modJob_ports (s : State) (k) (f) : (s.modJob k f).ports = s.ports := rfl
@[simp] theorem State.modJob_streams (s : State) (k) (f) : (s.modJob k f).streams = s.streams := rfl
@[simp] theorem State.modJob_transfers (s : State) (k) (f) : (s.modJob k f).transfers = s.transfers := rfl
@[simp] theorem State.modJob_quench (s : State) (k) (f) : (s.modJob k f).quench = s.quench := rfl
@[simp] theorem State.modJob_drill (s : State) (k) (f) : (s.modJob k f).drill = s.drill := rfl
@[simp] theorem State.modJob_probes (s : State) (k) (f) : (s.modJob k f).probes = s.probes := rfl
@[simp] theorem State.modJob_test (s : State) (k) (f) : (s.modJob k f).test = s.test := rfl
@[simp] theorem State.modJob_power (s : State) (k) (f) : (s.modJob k f).power = s.power := rfl

/-! `modPort` -/

@[simp] theorem State.modPort_pending (s : State) (k) (f) : (s.modPort k f).pending = s.pending := rfl
@[simp] theorem State.modPort_freeCtr (s : State) (k) (f) : (s.modPort k f).freeCtr = s.freeCtr := rfl
@[simp] theorem State.modPort_clock (s : State) (k) (f) : (s.modPort k f).clock = s.clock := rfl
@[simp] theorem State.modPort_time (s : State) (k) (f) : (s.modPort k f).time = s.time := rfl
@[simp] theorem State.modPort_rings (s : State) (k) (f) : (s.modPort k f).rings = s.rings := rfl
@[simp] theorem State.modPort_jr (s : State) (k) (f) : (s.modPort k f).jr = s.jr := rfl
@[simp] theorem State.modPort_tenants (s : State) (k) (f) : (s.modPort k f).tenants = s.tenants := rfl
@[simp] theorem State.modPort_own (s : State) (k) (f) : (s.modPort k f).own = s.own := rfl
@[simp] theorem State.modPort_summary (s : State) (k) (f) : (s.modPort k f).summary = s.summary := rfl
@[simp] theorem State.modPort_chans (s : State) (k) (f) : (s.modPort k f).chans = s.chans := rfl
@[simp] theorem State.modPort_cal (s : State) (k) (f) : (s.modPort k f).cal = s.cal := rfl
@[simp] theorem State.modPort_routes (s : State) (k) (f) : (s.modPort k f).routes = s.routes := rfl
@[simp] theorem State.modPort_trigOuts (s : State) (k) (f) : (s.modPort k f).trigOuts = s.trigOuts := rfl
@[simp] theorem State.modPort_trigIns (s : State) (k) (f) : (s.modPort k f).trigIns = s.trigIns := rfl
@[simp] theorem State.modPort_tiller (s : State) (k) (f) : (s.modPort k f).tiller = s.tiller := rfl
@[simp] theorem State.modPort_rachis (s : State) (k) (f) : (s.modPort k f).rachis = s.rachis := rfl
@[simp] theorem State.modPort_rports (s : State) (k) (f) : (s.modPort k f).rports = s.rports := rfl
@[simp] theorem State.modPort_sources (s : State) (k) (f) : (s.modPort k f).sources = s.sources := rfl
@[simp] theorem State.modPort_engines (s : State) (k) (f) : (s.modPort k f).engines = s.engines := rfl
@[simp] theorem State.modPort_nodes (s : State) (k) (f) : (s.modPort k f).nodes = s.nodes := rfl
@[simp] theorem State.modPort_insts (s : State) (k) (f) : (s.modPort k f).insts = s.insts := rfl
@[simp] theorem State.modPort_images (s : State) (k) (f) : (s.modPort k f).images = s.images := rfl
@[simp] theorem State.modPort_keys (s : State) (k) (f) : (s.modPort k f).keys = s.keys := rfl
@[simp] theorem State.modPort_dram (s : State) (k) (f) : (s.modPort k f).dram = s.dram := rfl
@[simp] theorem State.modPort_winnow (s : State) (k) (f) : (s.modPort k f).winnow = s.winnow := rfl
@[simp] theorem State.modPort_granary (s : State) (k) (f) : (s.modPort k f).granary = s.granary := rfl
@[simp] theorem State.modPort_streams (s : State) (k) (f) : (s.modPort k f).streams = s.streams := rfl
@[simp] theorem State.modPort_transfers (s : State) (k) (f) : (s.modPort k f).transfers = s.transfers := rfl
@[simp] theorem State.modPort_quench (s : State) (k) (f) : (s.modPort k f).quench = s.quench := rfl
@[simp] theorem State.modPort_drill (s : State) (k) (f) : (s.modPort k f).drill = s.drill := rfl
@[simp] theorem State.modPort_probes (s : State) (k) (f) : (s.modPort k f).probes = s.probes := rfl
@[simp] theorem State.modPort_test (s : State) (k) (f) : (s.modPort k f).test = s.test := rfl
@[simp] theorem State.modPort_power (s : State) (k) (f) : (s.modPort k f).power = s.power := rfl

/-! `modStream` -/

@[simp] theorem State.modStream_pending (s : State) (k) (f) : (s.modStream k f).pending = s.pending := rfl
@[simp] theorem State.modStream_freeCtr (s : State) (k) (f) : (s.modStream k f).freeCtr = s.freeCtr := rfl
@[simp] theorem State.modStream_clock (s : State) (k) (f) : (s.modStream k f).clock = s.clock := rfl
@[simp] theorem State.modStream_time (s : State) (k) (f) : (s.modStream k f).time = s.time := rfl
@[simp] theorem State.modStream_rings (s : State) (k) (f) : (s.modStream k f).rings = s.rings := rfl
@[simp] theorem State.modStream_jr (s : State) (k) (f) : (s.modStream k f).jr = s.jr := rfl
@[simp] theorem State.modStream_tenants (s : State) (k) (f) : (s.modStream k f).tenants = s.tenants := rfl
@[simp] theorem State.modStream_own (s : State) (k) (f) : (s.modStream k f).own = s.own := rfl
@[simp] theorem State.modStream_summary (s : State) (k) (f) : (s.modStream k f).summary = s.summary := rfl
@[simp] theorem State.modStream_chans (s : State) (k) (f) : (s.modStream k f).chans = s.chans := rfl
@[simp] theorem State.modStream_cal (s : State) (k) (f) : (s.modStream k f).cal = s.cal := rfl
@[simp] theorem State.modStream_routes (s : State) (k) (f) : (s.modStream k f).routes = s.routes := rfl
@[simp] theorem State.modStream_trigOuts (s : State) (k) (f) : (s.modStream k f).trigOuts = s.trigOuts := rfl
@[simp] theorem State.modStream_trigIns (s : State) (k) (f) : (s.modStream k f).trigIns = s.trigIns := rfl
@[simp] theorem State.modStream_tiller (s : State) (k) (f) : (s.modStream k f).tiller = s.tiller := rfl
@[simp] theorem State.modStream_rachis (s : State) (k) (f) : (s.modStream k f).rachis = s.rachis := rfl
@[simp] theorem State.modStream_rports (s : State) (k) (f) : (s.modStream k f).rports = s.rports := rfl
@[simp] theorem State.modStream_sources (s : State) (k) (f) : (s.modStream k f).sources = s.sources := rfl
@[simp] theorem State.modStream_engines (s : State) (k) (f) : (s.modStream k f).engines = s.engines := rfl
@[simp] theorem State.modStream_nodes (s : State) (k) (f) : (s.modStream k f).nodes = s.nodes := rfl
@[simp] theorem State.modStream_insts (s : State) (k) (f) : (s.modStream k f).insts = s.insts := rfl
@[simp] theorem State.modStream_images (s : State) (k) (f) : (s.modStream k f).images = s.images := rfl
@[simp] theorem State.modStream_keys (s : State) (k) (f) : (s.modStream k f).keys = s.keys := rfl
@[simp] theorem State.modStream_dram (s : State) (k) (f) : (s.modStream k f).dram = s.dram := rfl
@[simp] theorem State.modStream_winnow (s : State) (k) (f) : (s.modStream k f).winnow = s.winnow := rfl
@[simp] theorem State.modStream_granary (s : State) (k) (f) : (s.modStream k f).granary = s.granary := rfl
@[simp] theorem State.modStream_ports (s : State) (k) (f) : (s.modStream k f).ports = s.ports := rfl
@[simp] theorem State.modStream_transfers (s : State) (k) (f) : (s.modStream k f).transfers = s.transfers := rfl
@[simp] theorem State.modStream_quench (s : State) (k) (f) : (s.modStream k f).quench = s.quench := rfl
@[simp] theorem State.modStream_drill (s : State) (k) (f) : (s.modStream k f).drill = s.drill := rfl
@[simp] theorem State.modStream_probes (s : State) (k) (f) : (s.modStream k f).probes = s.probes := rfl
@[simp] theorem State.modStream_test (s : State) (k) (f) : (s.modStream k f).test = s.test := rfl
@[simp] theorem State.modStream_power (s : State) (k) (f) : (s.modStream k f).power = s.power := rfl

/-! `modRport` -/

@[simp] theorem State.modRport_pending (s : State) (k) (f) : (s.modRport k f).pending = s.pending := rfl
@[simp] theorem State.modRport_freeCtr (s : State) (k) (f) : (s.modRport k f).freeCtr = s.freeCtr := rfl
@[simp] theorem State.modRport_clock (s : State) (k) (f) : (s.modRport k f).clock = s.clock := rfl
@[simp] theorem State.modRport_time (s : State) (k) (f) : (s.modRport k f).time = s.time := rfl
@[simp] theorem State.modRport_rings (s : State) (k) (f) : (s.modRport k f).rings = s.rings := rfl
@[simp] theorem State.modRport_jr (s : State) (k) (f) : (s.modRport k f).jr = s.jr := rfl
@[simp] theorem State.modRport_tenants (s : State) (k) (f) : (s.modRport k f).tenants = s.tenants := rfl
@[simp] theorem State.modRport_own (s : State) (k) (f) : (s.modRport k f).own = s.own := rfl
@[simp] theorem State.modRport_summary (s : State) (k) (f) : (s.modRport k f).summary = s.summary := rfl
@[simp] theorem State.modRport_chans (s : State) (k) (f) : (s.modRport k f).chans = s.chans := rfl
@[simp] theorem State.modRport_cal (s : State) (k) (f) : (s.modRport k f).cal = s.cal := rfl
@[simp] theorem State.modRport_routes (s : State) (k) (f) : (s.modRport k f).routes = s.routes := rfl
@[simp] theorem State.modRport_trigOuts (s : State) (k) (f) : (s.modRport k f).trigOuts = s.trigOuts := rfl
@[simp] theorem State.modRport_trigIns (s : State) (k) (f) : (s.modRport k f).trigIns = s.trigIns := rfl
@[simp] theorem State.modRport_tiller (s : State) (k) (f) : (s.modRport k f).tiller = s.tiller := rfl
@[simp] theorem State.modRport_rachis (s : State) (k) (f) : (s.modRport k f).rachis = s.rachis := rfl
@[simp] theorem State.modRport_sources (s : State) (k) (f) : (s.modRport k f).sources = s.sources := rfl
@[simp] theorem State.modRport_engines (s : State) (k) (f) : (s.modRport k f).engines = s.engines := rfl
@[simp] theorem State.modRport_nodes (s : State) (k) (f) : (s.modRport k f).nodes = s.nodes := rfl
@[simp] theorem State.modRport_insts (s : State) (k) (f) : (s.modRport k f).insts = s.insts := rfl
@[simp] theorem State.modRport_images (s : State) (k) (f) : (s.modRport k f).images = s.images := rfl
@[simp] theorem State.modRport_keys (s : State) (k) (f) : (s.modRport k f).keys = s.keys := rfl
@[simp] theorem State.modRport_dram (s : State) (k) (f) : (s.modRport k f).dram = s.dram := rfl
@[simp] theorem State.modRport_winnow (s : State) (k) (f) : (s.modRport k f).winnow = s.winnow := rfl
@[simp] theorem State.modRport_granary (s : State) (k) (f) : (s.modRport k f).granary = s.granary := rfl
@[simp] theorem State.modRport_ports (s : State) (k) (f) : (s.modRport k f).ports = s.ports := rfl
@[simp] theorem State.modRport_streams (s : State) (k) (f) : (s.modRport k f).streams = s.streams := rfl
@[simp] theorem State.modRport_transfers (s : State) (k) (f) : (s.modRport k f).transfers = s.transfers := rfl
@[simp] theorem State.modRport_quench (s : State) (k) (f) : (s.modRport k f).quench = s.quench := rfl
@[simp] theorem State.modRport_drill (s : State) (k) (f) : (s.modRport k f).drill = s.drill := rfl
@[simp] theorem State.modRport_probes (s : State) (k) (f) : (s.modRport k f).probes = s.probes := rfl
@[simp] theorem State.modRport_test (s : State) (k) (f) : (s.modRport k f).test = s.test := rfl
@[simp] theorem State.modRport_power (s : State) (k) (f) : (s.modRport k f).power = s.power := rfl

/-! `modRachis` -/

@[simp] theorem State.modRachis_pending (s : State) (f) : (s.modRachis f).pending = s.pending := rfl
@[simp] theorem State.modRachis_freeCtr (s : State) (f) : (s.modRachis f).freeCtr = s.freeCtr := rfl
@[simp] theorem State.modRachis_clock (s : State) (f) : (s.modRachis f).clock = s.clock := rfl
@[simp] theorem State.modRachis_time (s : State) (f) : (s.modRachis f).time = s.time := rfl
@[simp] theorem State.modRachis_rings (s : State) (f) : (s.modRachis f).rings = s.rings := rfl
@[simp] theorem State.modRachis_jr (s : State) (f) : (s.modRachis f).jr = s.jr := rfl
@[simp] theorem State.modRachis_tenants (s : State) (f) : (s.modRachis f).tenants = s.tenants := rfl
@[simp] theorem State.modRachis_own (s : State) (f) : (s.modRachis f).own = s.own := rfl
@[simp] theorem State.modRachis_summary (s : State) (f) : (s.modRachis f).summary = s.summary := rfl
@[simp] theorem State.modRachis_chans (s : State) (f) : (s.modRachis f).chans = s.chans := rfl
@[simp] theorem State.modRachis_cal (s : State) (f) : (s.modRachis f).cal = s.cal := rfl
@[simp] theorem State.modRachis_routes (s : State) (f) : (s.modRachis f).routes = s.routes := rfl
@[simp] theorem State.modRachis_trigOuts (s : State) (f) : (s.modRachis f).trigOuts = s.trigOuts := rfl
@[simp] theorem State.modRachis_trigIns (s : State) (f) : (s.modRachis f).trigIns = s.trigIns := rfl
@[simp] theorem State.modRachis_tiller (s : State) (f) : (s.modRachis f).tiller = s.tiller := rfl
@[simp] theorem State.modRachis_rports (s : State) (f) : (s.modRachis f).rports = s.rports := rfl
@[simp] theorem State.modRachis_sources (s : State) (f) : (s.modRachis f).sources = s.sources := rfl
@[simp] theorem State.modRachis_engines (s : State) (f) : (s.modRachis f).engines = s.engines := rfl
@[simp] theorem State.modRachis_nodes (s : State) (f) : (s.modRachis f).nodes = s.nodes := rfl
@[simp] theorem State.modRachis_insts (s : State) (f) : (s.modRachis f).insts = s.insts := rfl
@[simp] theorem State.modRachis_images (s : State) (f) : (s.modRachis f).images = s.images := rfl
@[simp] theorem State.modRachis_keys (s : State) (f) : (s.modRachis f).keys = s.keys := rfl
@[simp] theorem State.modRachis_dram (s : State) (f) : (s.modRachis f).dram = s.dram := rfl
@[simp] theorem State.modRachis_winnow (s : State) (f) : (s.modRachis f).winnow = s.winnow := rfl
@[simp] theorem State.modRachis_granary (s : State) (f) : (s.modRachis f).granary = s.granary := rfl
@[simp] theorem State.modRachis_ports (s : State) (f) : (s.modRachis f).ports = s.ports := rfl
@[simp] theorem State.modRachis_streams (s : State) (f) : (s.modRachis f).streams = s.streams := rfl
@[simp] theorem State.modRachis_transfers (s : State) (f) : (s.modRachis f).transfers = s.transfers := rfl
@[simp] theorem State.modRachis_quench (s : State) (f) : (s.modRachis f).quench = s.quench := rfl
@[simp] theorem State.modRachis_drill (s : State) (f) : (s.modRachis f).drill = s.drill := rfl
@[simp] theorem State.modRachis_probes (s : State) (f) : (s.modRachis f).probes = s.probes := rfl
@[simp] theorem State.modRachis_test (s : State) (f) : (s.modRachis f).test = s.test := rfl
@[simp] theorem State.modRachis_power (s : State) (f) : (s.modRachis f).power = s.power := rfl

/-! `modProbe` -/

@[simp] theorem State.modProbe_pending (s : State) (k) (f) : (s.modProbe k f).pending = s.pending := rfl
@[simp] theorem State.modProbe_freeCtr (s : State) (k) (f) : (s.modProbe k f).freeCtr = s.freeCtr := rfl
@[simp] theorem State.modProbe_clock (s : State) (k) (f) : (s.modProbe k f).clock = s.clock := rfl
@[simp] theorem State.modProbe_time (s : State) (k) (f) : (s.modProbe k f).time = s.time := rfl
@[simp] theorem State.modProbe_rings (s : State) (k) (f) : (s.modProbe k f).rings = s.rings := rfl
@[simp] theorem State.modProbe_jr (s : State) (k) (f) : (s.modProbe k f).jr = s.jr := rfl
@[simp] theorem State.modProbe_tenants (s : State) (k) (f) : (s.modProbe k f).tenants = s.tenants := rfl
@[simp] theorem State.modProbe_own (s : State) (k) (f) : (s.modProbe k f).own = s.own := rfl
@[simp] theorem State.modProbe_summary (s : State) (k) (f) : (s.modProbe k f).summary = s.summary := rfl
@[simp] theorem State.modProbe_chans (s : State) (k) (f) : (s.modProbe k f).chans = s.chans := rfl
@[simp] theorem State.modProbe_cal (s : State) (k) (f) : (s.modProbe k f).cal = s.cal := rfl
@[simp] theorem State.modProbe_routes (s : State) (k) (f) : (s.modProbe k f).routes = s.routes := rfl
@[simp] theorem State.modProbe_trigOuts (s : State) (k) (f) : (s.modProbe k f).trigOuts = s.trigOuts := rfl
@[simp] theorem State.modProbe_trigIns (s : State) (k) (f) : (s.modProbe k f).trigIns = s.trigIns := rfl
@[simp] theorem State.modProbe_tiller (s : State) (k) (f) : (s.modProbe k f).tiller = s.tiller := rfl
@[simp] theorem State.modProbe_rachis (s : State) (k) (f) : (s.modProbe k f).rachis = s.rachis := rfl
@[simp] theorem State.modProbe_rports (s : State) (k) (f) : (s.modProbe k f).rports = s.rports := rfl
@[simp] theorem State.modProbe_sources (s : State) (k) (f) : (s.modProbe k f).sources = s.sources := rfl
@[simp] theorem State.modProbe_engines (s : State) (k) (f) : (s.modProbe k f).engines = s.engines := rfl
@[simp] theorem State.modProbe_nodes (s : State) (k) (f) : (s.modProbe k f).nodes = s.nodes := rfl
@[simp] theorem State.modProbe_insts (s : State) (k) (f) : (s.modProbe k f).insts = s.insts := rfl
@[simp] theorem State.modProbe_images (s : State) (k) (f) : (s.modProbe k f).images = s.images := rfl
@[simp] theorem State.modProbe_keys (s : State) (k) (f) : (s.modProbe k f).keys = s.keys := rfl
@[simp] theorem State.modProbe_dram (s : State) (k) (f) : (s.modProbe k f).dram = s.dram := rfl
@[simp] theorem State.modProbe_winnow (s : State) (k) (f) : (s.modProbe k f).winnow = s.winnow := rfl
@[simp] theorem State.modProbe_granary (s : State) (k) (f) : (s.modProbe k f).granary = s.granary := rfl
@[simp] theorem State.modProbe_ports (s : State) (k) (f) : (s.modProbe k f).ports = s.ports := rfl
@[simp] theorem State.modProbe_streams (s : State) (k) (f) : (s.modProbe k f).streams = s.streams := rfl
@[simp] theorem State.modProbe_transfers (s : State) (k) (f) : (s.modProbe k f).transfers = s.transfers := rfl
@[simp] theorem State.modProbe_quench (s : State) (k) (f) : (s.modProbe k f).quench = s.quench := rfl
@[simp] theorem State.modProbe_drill (s : State) (k) (f) : (s.modProbe k f).drill = s.drill := rfl
@[simp] theorem State.modProbe_test (s : State) (k) (f) : (s.modProbe k f).test = s.test := rfl
@[simp] theorem State.modProbe_power (s : State) (k) (f) : (s.modProbe k f).power = s.power := rfl

/-! `modPower` -/

@[simp] theorem State.modPower_pending (s : State) (f) : (s.modPower f).pending = s.pending := rfl
@[simp] theorem State.modPower_freeCtr (s : State) (f) : (s.modPower f).freeCtr = s.freeCtr := rfl
@[simp] theorem State.modPower_clock (s : State) (f) : (s.modPower f).clock = s.clock := rfl
@[simp] theorem State.modPower_time (s : State) (f) : (s.modPower f).time = s.time := rfl
@[simp] theorem State.modPower_rings (s : State) (f) : (s.modPower f).rings = s.rings := rfl
@[simp] theorem State.modPower_jr (s : State) (f) : (s.modPower f).jr = s.jr := rfl
@[simp] theorem State.modPower_tenants (s : State) (f) : (s.modPower f).tenants = s.tenants := rfl
@[simp] theorem State.modPower_own (s : State) (f) : (s.modPower f).own = s.own := rfl
@[simp] theorem State.modPower_summary (s : State) (f) : (s.modPower f).summary = s.summary := rfl
@[simp] theorem State.modPower_chans (s : State) (f) : (s.modPower f).chans = s.chans := rfl
@[simp] theorem State.modPower_cal (s : State) (f) : (s.modPower f).cal = s.cal := rfl
@[simp] theorem State.modPower_routes (s : State) (f) : (s.modPower f).routes = s.routes := rfl
@[simp] theorem State.modPower_trigOuts (s : State) (f) : (s.modPower f).trigOuts = s.trigOuts := rfl
@[simp] theorem State.modPower_trigIns (s : State) (f) : (s.modPower f).trigIns = s.trigIns := rfl
@[simp] theorem State.modPower_tiller (s : State) (f) : (s.modPower f).tiller = s.tiller := rfl
@[simp] theorem State.modPower_rachis (s : State) (f) : (s.modPower f).rachis = s.rachis := rfl
@[simp] theorem State.modPower_rports (s : State) (f) : (s.modPower f).rports = s.rports := rfl
@[simp] theorem State.modPower_sources (s : State) (f) : (s.modPower f).sources = s.sources := rfl
@[simp] theorem State.modPower_engines (s : State) (f) : (s.modPower f).engines = s.engines := rfl
@[simp] theorem State.modPower_nodes (s : State) (f) : (s.modPower f).nodes = s.nodes := rfl
@[simp] theorem State.modPower_insts (s : State) (f) : (s.modPower f).insts = s.insts := rfl
@[simp] theorem State.modPower_images (s : State) (f) : (s.modPower f).images = s.images := rfl
@[simp] theorem State.modPower_keys (s : State) (f) : (s.modPower f).keys = s.keys := rfl
@[simp] theorem State.modPower_dram (s : State) (f) : (s.modPower f).dram = s.dram := rfl
@[simp] theorem State.modPower_winnow (s : State) (f) : (s.modPower f).winnow = s.winnow := rfl
@[simp] theorem State.modPower_granary (s : State) (f) : (s.modPower f).granary = s.granary := rfl
@[simp] theorem State.modPower_ports (s : State) (f) : (s.modPower f).ports = s.ports := rfl
@[simp] theorem State.modPower_streams (s : State) (f) : (s.modPower f).streams = s.streams := rfl
@[simp] theorem State.modPower_transfers (s : State) (f) : (s.modPower f).transfers = s.transfers := rfl
@[simp] theorem State.modPower_quench (s : State) (f) : (s.modPower f).quench = s.quench := rfl
@[simp] theorem State.modPower_drill (s : State) (f) : (s.modPower f).drill = s.drill := rfl
@[simp] theorem State.modPower_probes (s : State) (f) : (s.modPower f).probes = s.probes := rfl
@[simp] theorem State.modPower_test (s : State) (f) : (s.modPower f).test = s.test := rfl

/-! `modCal` -/

@[simp] theorem State.modCal_pending (s : State) (f) : (s.modCal f).pending = s.pending := rfl
@[simp] theorem State.modCal_freeCtr (s : State) (f) : (s.modCal f).freeCtr = s.freeCtr := rfl
@[simp] theorem State.modCal_clock (s : State) (f) : (s.modCal f).clock = s.clock := rfl
@[simp] theorem State.modCal_time (s : State) (f) : (s.modCal f).time = s.time := rfl
@[simp] theorem State.modCal_rings (s : State) (f) : (s.modCal f).rings = s.rings := rfl
@[simp] theorem State.modCal_jr (s : State) (f) : (s.modCal f).jr = s.jr := rfl
@[simp] theorem State.modCal_tenants (s : State) (f) : (s.modCal f).tenants = s.tenants := rfl
@[simp] theorem State.modCal_own (s : State) (f) : (s.modCal f).own = s.own := rfl
@[simp] theorem State.modCal_summary (s : State) (f) : (s.modCal f).summary = s.summary := rfl
@[simp] theorem State.modCal_chans (s : State) (f) : (s.modCal f).chans = s.chans := rfl
@[simp] theorem State.modCal_routes (s : State) (f) : (s.modCal f).routes = s.routes := rfl
@[simp] theorem State.modCal_trigOuts (s : State) (f) : (s.modCal f).trigOuts = s.trigOuts := rfl
@[simp] theorem State.modCal_trigIns (s : State) (f) : (s.modCal f).trigIns = s.trigIns := rfl
@[simp] theorem State.modCal_tiller (s : State) (f) : (s.modCal f).tiller = s.tiller := rfl
@[simp] theorem State.modCal_rachis (s : State) (f) : (s.modCal f).rachis = s.rachis := rfl
@[simp] theorem State.modCal_rports (s : State) (f) : (s.modCal f).rports = s.rports := rfl
@[simp] theorem State.modCal_sources (s : State) (f) : (s.modCal f).sources = s.sources := rfl
@[simp] theorem State.modCal_engines (s : State) (f) : (s.modCal f).engines = s.engines := rfl
@[simp] theorem State.modCal_nodes (s : State) (f) : (s.modCal f).nodes = s.nodes := rfl
@[simp] theorem State.modCal_insts (s : State) (f) : (s.modCal f).insts = s.insts := rfl
@[simp] theorem State.modCal_images (s : State) (f) : (s.modCal f).images = s.images := rfl
@[simp] theorem State.modCal_keys (s : State) (f) : (s.modCal f).keys = s.keys := rfl
@[simp] theorem State.modCal_dram (s : State) (f) : (s.modCal f).dram = s.dram := rfl
@[simp] theorem State.modCal_winnow (s : State) (f) : (s.modCal f).winnow = s.winnow := rfl
@[simp] theorem State.modCal_granary (s : State) (f) : (s.modCal f).granary = s.granary := rfl
@[simp] theorem State.modCal_ports (s : State) (f) : (s.modCal f).ports = s.ports := rfl
@[simp] theorem State.modCal_streams (s : State) (f) : (s.modCal f).streams = s.streams := rfl
@[simp] theorem State.modCal_transfers (s : State) (f) : (s.modCal f).transfers = s.transfers := rfl
@[simp] theorem State.modCal_quench (s : State) (f) : (s.modCal f).quench = s.quench := rfl
@[simp] theorem State.modCal_drill (s : State) (f) : (s.modCal f).drill = s.drill := rfl
@[simp] theorem State.modCal_probes (s : State) (f) : (s.modCal f).probes = s.probes := rfl
@[simp] theorem State.modCal_test (s : State) (f) : (s.modCal f).test = s.test := rfl
@[simp] theorem State.modCal_power (s : State) (f) : (s.modCal f).power = s.power := rfl

/-! `modTiller` -/

@[simp] theorem State.modTiller_pending (s : State) (f) : (s.modTiller f).pending = s.pending := rfl
@[simp] theorem State.modTiller_freeCtr (s : State) (f) : (s.modTiller f).freeCtr = s.freeCtr := rfl
@[simp] theorem State.modTiller_clock (s : State) (f) : (s.modTiller f).clock = s.clock := rfl
@[simp] theorem State.modTiller_time (s : State) (f) : (s.modTiller f).time = s.time := rfl
@[simp] theorem State.modTiller_rings (s : State) (f) : (s.modTiller f).rings = s.rings := rfl
@[simp] theorem State.modTiller_jr (s : State) (f) : (s.modTiller f).jr = s.jr := rfl
@[simp] theorem State.modTiller_tenants (s : State) (f) : (s.modTiller f).tenants = s.tenants := rfl
@[simp] theorem State.modTiller_own (s : State) (f) : (s.modTiller f).own = s.own := rfl
@[simp] theorem State.modTiller_summary (s : State) (f) : (s.modTiller f).summary = s.summary := rfl
@[simp] theorem State.modTiller_chans (s : State) (f) : (s.modTiller f).chans = s.chans := rfl
@[simp] theorem State.modTiller_cal (s : State) (f) : (s.modTiller f).cal = s.cal := rfl
@[simp] theorem State.modTiller_routes (s : State) (f) : (s.modTiller f).routes = s.routes := rfl
@[simp] theorem State.modTiller_trigOuts (s : State) (f) : (s.modTiller f).trigOuts = s.trigOuts := rfl
@[simp] theorem State.modTiller_trigIns (s : State) (f) : (s.modTiller f).trigIns = s.trigIns := rfl
@[simp] theorem State.modTiller_rachis (s : State) (f) : (s.modTiller f).rachis = s.rachis := rfl
@[simp] theorem State.modTiller_rports (s : State) (f) : (s.modTiller f).rports = s.rports := rfl
@[simp] theorem State.modTiller_sources (s : State) (f) : (s.modTiller f).sources = s.sources := rfl
@[simp] theorem State.modTiller_engines (s : State) (f) : (s.modTiller f).engines = s.engines := rfl
@[simp] theorem State.modTiller_nodes (s : State) (f) : (s.modTiller f).nodes = s.nodes := rfl
@[simp] theorem State.modTiller_insts (s : State) (f) : (s.modTiller f).insts = s.insts := rfl
@[simp] theorem State.modTiller_images (s : State) (f) : (s.modTiller f).images = s.images := rfl
@[simp] theorem State.modTiller_keys (s : State) (f) : (s.modTiller f).keys = s.keys := rfl
@[simp] theorem State.modTiller_dram (s : State) (f) : (s.modTiller f).dram = s.dram := rfl
@[simp] theorem State.modTiller_winnow (s : State) (f) : (s.modTiller f).winnow = s.winnow := rfl
@[simp] theorem State.modTiller_granary (s : State) (f) : (s.modTiller f).granary = s.granary := rfl
@[simp] theorem State.modTiller_ports (s : State) (f) : (s.modTiller f).ports = s.ports := rfl
@[simp] theorem State.modTiller_streams (s : State) (f) : (s.modTiller f).streams = s.streams := rfl
@[simp] theorem State.modTiller_transfers (s : State) (f) : (s.modTiller f).transfers = s.transfers := rfl
@[simp] theorem State.modTiller_quench (s : State) (f) : (s.modTiller f).quench = s.quench := rfl
@[simp] theorem State.modTiller_drill (s : State) (f) : (s.modTiller f).drill = s.drill := rfl
@[simp] theorem State.modTiller_probes (s : State) (f) : (s.modTiller f).probes = s.probes := rfl
@[simp] theorem State.modTiller_test (s : State) (f) : (s.modTiller f).test = s.test := rfl
@[simp] theorem State.modTiller_power (s : State) (f) : (s.modTiller f).power = s.power := rfl

/-! `modDrill` -/

@[simp] theorem State.modDrill_pending (s : State) (f) : (s.modDrill f).pending = s.pending := rfl
@[simp] theorem State.modDrill_freeCtr (s : State) (f) : (s.modDrill f).freeCtr = s.freeCtr := rfl
@[simp] theorem State.modDrill_clock (s : State) (f) : (s.modDrill f).clock = s.clock := rfl
@[simp] theorem State.modDrill_time (s : State) (f) : (s.modDrill f).time = s.time := rfl
@[simp] theorem State.modDrill_rings (s : State) (f) : (s.modDrill f).rings = s.rings := rfl
@[simp] theorem State.modDrill_jr (s : State) (f) : (s.modDrill f).jr = s.jr := rfl
@[simp] theorem State.modDrill_tenants (s : State) (f) : (s.modDrill f).tenants = s.tenants := rfl
@[simp] theorem State.modDrill_own (s : State) (f) : (s.modDrill f).own = s.own := rfl
@[simp] theorem State.modDrill_summary (s : State) (f) : (s.modDrill f).summary = s.summary := rfl
@[simp] theorem State.modDrill_chans (s : State) (f) : (s.modDrill f).chans = s.chans := rfl
@[simp] theorem State.modDrill_cal (s : State) (f) : (s.modDrill f).cal = s.cal := rfl
@[simp] theorem State.modDrill_routes (s : State) (f) : (s.modDrill f).routes = s.routes := rfl
@[simp] theorem State.modDrill_trigOuts (s : State) (f) : (s.modDrill f).trigOuts = s.trigOuts := rfl
@[simp] theorem State.modDrill_trigIns (s : State) (f) : (s.modDrill f).trigIns = s.trigIns := rfl
@[simp] theorem State.modDrill_tiller (s : State) (f) : (s.modDrill f).tiller = s.tiller := rfl
@[simp] theorem State.modDrill_rachis (s : State) (f) : (s.modDrill f).rachis = s.rachis := rfl
@[simp] theorem State.modDrill_rports (s : State) (f) : (s.modDrill f).rports = s.rports := rfl
@[simp] theorem State.modDrill_sources (s : State) (f) : (s.modDrill f).sources = s.sources := rfl
@[simp] theorem State.modDrill_engines (s : State) (f) : (s.modDrill f).engines = s.engines := rfl
@[simp] theorem State.modDrill_nodes (s : State) (f) : (s.modDrill f).nodes = s.nodes := rfl
@[simp] theorem State.modDrill_insts (s : State) (f) : (s.modDrill f).insts = s.insts := rfl
@[simp] theorem State.modDrill_images (s : State) (f) : (s.modDrill f).images = s.images := rfl
@[simp] theorem State.modDrill_keys (s : State) (f) : (s.modDrill f).keys = s.keys := rfl
@[simp] theorem State.modDrill_dram (s : State) (f) : (s.modDrill f).dram = s.dram := rfl
@[simp] theorem State.modDrill_winnow (s : State) (f) : (s.modDrill f).winnow = s.winnow := rfl
@[simp] theorem State.modDrill_granary (s : State) (f) : (s.modDrill f).granary = s.granary := rfl
@[simp] theorem State.modDrill_ports (s : State) (f) : (s.modDrill f).ports = s.ports := rfl
@[simp] theorem State.modDrill_streams (s : State) (f) : (s.modDrill f).streams = s.streams := rfl
@[simp] theorem State.modDrill_transfers (s : State) (f) : (s.modDrill f).transfers = s.transfers := rfl
@[simp] theorem State.modDrill_quench (s : State) (f) : (s.modDrill f).quench = s.quench := rfl
@[simp] theorem State.modDrill_probes (s : State) (f) : (s.modDrill f).probes = s.probes := rfl
@[simp] theorem State.modDrill_test (s : State) (f) : (s.modDrill f).test = s.test := rfl
@[simp] theorem State.modDrill_power (s : State) (f) : (s.modDrill f).power = s.power := rfl

/-! `modWinnow` -/

@[simp] theorem State.modWinnow_pending (s : State) (f) : (s.modWinnow f).pending = s.pending := rfl
@[simp] theorem State.modWinnow_freeCtr (s : State) (f) : (s.modWinnow f).freeCtr = s.freeCtr := rfl
@[simp] theorem State.modWinnow_clock (s : State) (f) : (s.modWinnow f).clock = s.clock := rfl
@[simp] theorem State.modWinnow_time (s : State) (f) : (s.modWinnow f).time = s.time := rfl
@[simp] theorem State.modWinnow_rings (s : State) (f) : (s.modWinnow f).rings = s.rings := rfl
@[simp] theorem State.modWinnow_jr (s : State) (f) : (s.modWinnow f).jr = s.jr := rfl
@[simp] theorem State.modWinnow_tenants (s : State) (f) : (s.modWinnow f).tenants = s.tenants := rfl
@[simp] theorem State.modWinnow_own (s : State) (f) : (s.modWinnow f).own = s.own := rfl
@[simp] theorem State.modWinnow_summary (s : State) (f) : (s.modWinnow f).summary = s.summary := rfl
@[simp] theorem State.modWinnow_chans (s : State) (f) : (s.modWinnow f).chans = s.chans := rfl
@[simp] theorem State.modWinnow_cal (s : State) (f) : (s.modWinnow f).cal = s.cal := rfl
@[simp] theorem State.modWinnow_routes (s : State) (f) : (s.modWinnow f).routes = s.routes := rfl
@[simp] theorem State.modWinnow_trigOuts (s : State) (f) : (s.modWinnow f).trigOuts = s.trigOuts := rfl
@[simp] theorem State.modWinnow_trigIns (s : State) (f) : (s.modWinnow f).trigIns = s.trigIns := rfl
@[simp] theorem State.modWinnow_tiller (s : State) (f) : (s.modWinnow f).tiller = s.tiller := rfl
@[simp] theorem State.modWinnow_rachis (s : State) (f) : (s.modWinnow f).rachis = s.rachis := rfl
@[simp] theorem State.modWinnow_rports (s : State) (f) : (s.modWinnow f).rports = s.rports := rfl
@[simp] theorem State.modWinnow_sources (s : State) (f) : (s.modWinnow f).sources = s.sources := rfl
@[simp] theorem State.modWinnow_engines (s : State) (f) : (s.modWinnow f).engines = s.engines := rfl
@[simp] theorem State.modWinnow_nodes (s : State) (f) : (s.modWinnow f).nodes = s.nodes := rfl
@[simp] theorem State.modWinnow_insts (s : State) (f) : (s.modWinnow f).insts = s.insts := rfl
@[simp] theorem State.modWinnow_images (s : State) (f) : (s.modWinnow f).images = s.images := rfl
@[simp] theorem State.modWinnow_keys (s : State) (f) : (s.modWinnow f).keys = s.keys := rfl
@[simp] theorem State.modWinnow_dram (s : State) (f) : (s.modWinnow f).dram = s.dram := rfl
@[simp] theorem State.modWinnow_granary (s : State) (f) : (s.modWinnow f).granary = s.granary := rfl
@[simp] theorem State.modWinnow_ports (s : State) (f) : (s.modWinnow f).ports = s.ports := rfl
@[simp] theorem State.modWinnow_streams (s : State) (f) : (s.modWinnow f).streams = s.streams := rfl
@[simp] theorem State.modWinnow_transfers (s : State) (f) : (s.modWinnow f).transfers = s.transfers := rfl
@[simp] theorem State.modWinnow_quench (s : State) (f) : (s.modWinnow f).quench = s.quench := rfl
@[simp] theorem State.modWinnow_drill (s : State) (f) : (s.modWinnow f).drill = s.drill := rfl
@[simp] theorem State.modWinnow_probes (s : State) (f) : (s.modWinnow f).probes = s.probes := rfl
@[simp] theorem State.modWinnow_test (s : State) (f) : (s.modWinnow f).test = s.test := rfl
@[simp] theorem State.modWinnow_power (s : State) (f) : (s.modWinnow f).power = s.power := rfl

/-! `modGranary` -/

@[simp] theorem State.modGranary_pending (s : State) (f) : (s.modGranary f).pending = s.pending := rfl
@[simp] theorem State.modGranary_freeCtr (s : State) (f) : (s.modGranary f).freeCtr = s.freeCtr := rfl
@[simp] theorem State.modGranary_clock (s : State) (f) : (s.modGranary f).clock = s.clock := rfl
@[simp] theorem State.modGranary_time (s : State) (f) : (s.modGranary f).time = s.time := rfl
@[simp] theorem State.modGranary_rings (s : State) (f) : (s.modGranary f).rings = s.rings := rfl
@[simp] theorem State.modGranary_jr (s : State) (f) : (s.modGranary f).jr = s.jr := rfl
@[simp] theorem State.modGranary_tenants (s : State) (f) : (s.modGranary f).tenants = s.tenants := rfl
@[simp] theorem State.modGranary_own (s : State) (f) : (s.modGranary f).own = s.own := rfl
@[simp] theorem State.modGranary_summary (s : State) (f) : (s.modGranary f).summary = s.summary := rfl
@[simp] theorem State.modGranary_chans (s : State) (f) : (s.modGranary f).chans = s.chans := rfl
@[simp] theorem State.modGranary_cal (s : State) (f) : (s.modGranary f).cal = s.cal := rfl
@[simp] theorem State.modGranary_routes (s : State) (f) : (s.modGranary f).routes = s.routes := rfl
@[simp] theorem State.modGranary_trigOuts (s : State) (f) : (s.modGranary f).trigOuts = s.trigOuts := rfl
@[simp] theorem State.modGranary_trigIns (s : State) (f) : (s.modGranary f).trigIns = s.trigIns := rfl
@[simp] theorem State.modGranary_tiller (s : State) (f) : (s.modGranary f).tiller = s.tiller := rfl
@[simp] theorem State.modGranary_rachis (s : State) (f) : (s.modGranary f).rachis = s.rachis := rfl
@[simp] theorem State.modGranary_rports (s : State) (f) : (s.modGranary f).rports = s.rports := rfl
@[simp] theorem State.modGranary_sources (s : State) (f) : (s.modGranary f).sources = s.sources := rfl
@[simp] theorem State.modGranary_engines (s : State) (f) : (s.modGranary f).engines = s.engines := rfl
@[simp] theorem State.modGranary_nodes (s : State) (f) : (s.modGranary f).nodes = s.nodes := rfl
@[simp] theorem State.modGranary_insts (s : State) (f) : (s.modGranary f).insts = s.insts := rfl
@[simp] theorem State.modGranary_images (s : State) (f) : (s.modGranary f).images = s.images := rfl
@[simp] theorem State.modGranary_keys (s : State) (f) : (s.modGranary f).keys = s.keys := rfl
@[simp] theorem State.modGranary_dram (s : State) (f) : (s.modGranary f).dram = s.dram := rfl
@[simp] theorem State.modGranary_winnow (s : State) (f) : (s.modGranary f).winnow = s.winnow := rfl
@[simp] theorem State.modGranary_ports (s : State) (f) : (s.modGranary f).ports = s.ports := rfl
@[simp] theorem State.modGranary_streams (s : State) (f) : (s.modGranary f).streams = s.streams := rfl
@[simp] theorem State.modGranary_transfers (s : State) (f) : (s.modGranary f).transfers = s.transfers := rfl
@[simp] theorem State.modGranary_quench (s : State) (f) : (s.modGranary f).quench = s.quench := rfl
@[simp] theorem State.modGranary_drill (s : State) (f) : (s.modGranary f).drill = s.drill := rfl
@[simp] theorem State.modGranary_probes (s : State) (f) : (s.modGranary f).probes = s.probes := rfl
@[simp] theorem State.modGranary_test (s : State) (f) : (s.modGranary f).test = s.test := rfl
@[simp] theorem State.modGranary_power (s : State) (f) : (s.modGranary f).power = s.power := rfl

/-! `modTrigOut` -/

@[simp] theorem State.modTrigOut_pending (s : State) (i) (f) : (s.modTrigOut i f).pending = s.pending := rfl
@[simp] theorem State.modTrigOut_freeCtr (s : State) (i) (f) : (s.modTrigOut i f).freeCtr = s.freeCtr := rfl
@[simp] theorem State.modTrigOut_clock (s : State) (i) (f) : (s.modTrigOut i f).clock = s.clock := rfl
@[simp] theorem State.modTrigOut_time (s : State) (i) (f) : (s.modTrigOut i f).time = s.time := rfl
@[simp] theorem State.modTrigOut_rings (s : State) (i) (f) : (s.modTrigOut i f).rings = s.rings := rfl
@[simp] theorem State.modTrigOut_jr (s : State) (i) (f) : (s.modTrigOut i f).jr = s.jr := rfl
@[simp] theorem State.modTrigOut_tenants (s : State) (i) (f) : (s.modTrigOut i f).tenants = s.tenants := rfl
@[simp] theorem State.modTrigOut_own (s : State) (i) (f) : (s.modTrigOut i f).own = s.own := rfl
@[simp] theorem State.modTrigOut_summary (s : State) (i) (f) : (s.modTrigOut i f).summary = s.summary := rfl
@[simp] theorem State.modTrigOut_chans (s : State) (i) (f) : (s.modTrigOut i f).chans = s.chans := rfl
@[simp] theorem State.modTrigOut_cal (s : State) (i) (f) : (s.modTrigOut i f).cal = s.cal := rfl
@[simp] theorem State.modTrigOut_routes (s : State) (i) (f) : (s.modTrigOut i f).routes = s.routes := rfl
@[simp] theorem State.modTrigOut_trigIns (s : State) (i) (f) : (s.modTrigOut i f).trigIns = s.trigIns := rfl
@[simp] theorem State.modTrigOut_tiller (s : State) (i) (f) : (s.modTrigOut i f).tiller = s.tiller := rfl
@[simp] theorem State.modTrigOut_rachis (s : State) (i) (f) : (s.modTrigOut i f).rachis = s.rachis := rfl
@[simp] theorem State.modTrigOut_rports (s : State) (i) (f) : (s.modTrigOut i f).rports = s.rports := rfl
@[simp] theorem State.modTrigOut_sources (s : State) (i) (f) : (s.modTrigOut i f).sources = s.sources := rfl
@[simp] theorem State.modTrigOut_engines (s : State) (i) (f) : (s.modTrigOut i f).engines = s.engines := rfl
@[simp] theorem State.modTrigOut_nodes (s : State) (i) (f) : (s.modTrigOut i f).nodes = s.nodes := rfl
@[simp] theorem State.modTrigOut_insts (s : State) (i) (f) : (s.modTrigOut i f).insts = s.insts := rfl
@[simp] theorem State.modTrigOut_images (s : State) (i) (f) : (s.modTrigOut i f).images = s.images := rfl
@[simp] theorem State.modTrigOut_keys (s : State) (i) (f) : (s.modTrigOut i f).keys = s.keys := rfl
@[simp] theorem State.modTrigOut_dram (s : State) (i) (f) : (s.modTrigOut i f).dram = s.dram := rfl
@[simp] theorem State.modTrigOut_winnow (s : State) (i) (f) : (s.modTrigOut i f).winnow = s.winnow := rfl
@[simp] theorem State.modTrigOut_granary (s : State) (i) (f) : (s.modTrigOut i f).granary = s.granary := rfl
@[simp] theorem State.modTrigOut_ports (s : State) (i) (f) : (s.modTrigOut i f).ports = s.ports := rfl
@[simp] theorem State.modTrigOut_streams (s : State) (i) (f) : (s.modTrigOut i f).streams = s.streams := rfl
@[simp] theorem State.modTrigOut_transfers (s : State) (i) (f) : (s.modTrigOut i f).transfers = s.transfers := rfl
@[simp] theorem State.modTrigOut_quench (s : State) (i) (f) : (s.modTrigOut i f).quench = s.quench := rfl
@[simp] theorem State.modTrigOut_drill (s : State) (i) (f) : (s.modTrigOut i f).drill = s.drill := rfl
@[simp] theorem State.modTrigOut_probes (s : State) (i) (f) : (s.modTrigOut i f).probes = s.probes := rfl
@[simp] theorem State.modTrigOut_test (s : State) (i) (f) : (s.modTrigOut i f).test = s.test := rfl
@[simp] theorem State.modTrigOut_power (s : State) (i) (f) : (s.modTrigOut i f).power = s.power := rfl

/-! `modTest` -/

@[simp] theorem State.modTest_pending (s : State) (f) : (s.modTest f).pending = s.pending := rfl
@[simp] theorem State.modTest_freeCtr (s : State) (f) : (s.modTest f).freeCtr = s.freeCtr := rfl
@[simp] theorem State.modTest_clock (s : State) (f) : (s.modTest f).clock = s.clock := rfl
@[simp] theorem State.modTest_time (s : State) (f) : (s.modTest f).time = s.time := rfl
@[simp] theorem State.modTest_rings (s : State) (f) : (s.modTest f).rings = s.rings := rfl
@[simp] theorem State.modTest_jr (s : State) (f) : (s.modTest f).jr = s.jr := rfl
@[simp] theorem State.modTest_tenants (s : State) (f) : (s.modTest f).tenants = s.tenants := rfl
@[simp] theorem State.modTest_own (s : State) (f) : (s.modTest f).own = s.own := rfl
@[simp] theorem State.modTest_summary (s : State) (f) : (s.modTest f).summary = s.summary := rfl
@[simp] theorem State.modTest_chans (s : State) (f) : (s.modTest f).chans = s.chans := rfl
@[simp] theorem State.modTest_cal (s : State) (f) : (s.modTest f).cal = s.cal := rfl
@[simp] theorem State.modTest_routes (s : State) (f) : (s.modTest f).routes = s.routes := rfl
@[simp] theorem State.modTest_trigOuts (s : State) (f) : (s.modTest f).trigOuts = s.trigOuts := rfl
@[simp] theorem State.modTest_trigIns (s : State) (f) : (s.modTest f).trigIns = s.trigIns := rfl
@[simp] theorem State.modTest_tiller (s : State) (f) : (s.modTest f).tiller = s.tiller := rfl
@[simp] theorem State.modTest_rachis (s : State) (f) : (s.modTest f).rachis = s.rachis := rfl
@[simp] theorem State.modTest_rports (s : State) (f) : (s.modTest f).rports = s.rports := rfl
@[simp] theorem State.modTest_sources (s : State) (f) : (s.modTest f).sources = s.sources := rfl
@[simp] theorem State.modTest_engines (s : State) (f) : (s.modTest f).engines = s.engines := rfl
@[simp] theorem State.modTest_nodes (s : State) (f) : (s.modTest f).nodes = s.nodes := rfl
@[simp] theorem State.modTest_insts (s : State) (f) : (s.modTest f).insts = s.insts := rfl
@[simp] theorem State.modTest_images (s : State) (f) : (s.modTest f).images = s.images := rfl
@[simp] theorem State.modTest_keys (s : State) (f) : (s.modTest f).keys = s.keys := rfl
@[simp] theorem State.modTest_dram (s : State) (f) : (s.modTest f).dram = s.dram := rfl
@[simp] theorem State.modTest_winnow (s : State) (f) : (s.modTest f).winnow = s.winnow := rfl
@[simp] theorem State.modTest_granary (s : State) (f) : (s.modTest f).granary = s.granary := rfl
@[simp] theorem State.modTest_ports (s : State) (f) : (s.modTest f).ports = s.ports := rfl
@[simp] theorem State.modTest_streams (s : State) (f) : (s.modTest f).streams = s.streams := rfl
@[simp] theorem State.modTest_transfers (s : State) (f) : (s.modTest f).transfers = s.transfers := rfl
@[simp] theorem State.modTest_quench (s : State) (f) : (s.modTest f).quench = s.quench := rfl
@[simp] theorem State.modTest_drill (s : State) (f) : (s.modTest f).drill = s.drill := rfl
@[simp] theorem State.modTest_probes (s : State) (f) : (s.modTest f).probes = s.probes := rfl
@[simp] theorem State.modTest_power (s : State) (f) : (s.modTest f).power = s.power := rfl

/-! `advance` -/

@[simp] theorem State.advance_pending (s : State) (t : Nat) : (s.advance t).pending = s.pending := rfl
@[simp] theorem State.advance_freeCtr (s : State) (t : Nat) : (s.advance t).freeCtr = s.freeCtr := rfl
@[simp] theorem State.advance_clock (s : State) (t : Nat) : (s.advance t).clock = max s.clock t := rfl
@[simp] theorem State.advance_time (s : State) (t : Nat) : (s.advance t).time = s.time := rfl
@[simp] theorem State.advance_rings (s : State) (t : Nat) : (s.advance t).rings = s.rings := rfl
@[simp] theorem State.advance_jr (s : State) (t : Nat) : (s.advance t).jr = s.jr := rfl
@[simp] theorem State.advance_tenants (s : State) (t : Nat) : (s.advance t).tenants = s.tenants := rfl
@[simp] theorem State.advance_own (s : State) (t : Nat) : (s.advance t).own = s.own := rfl
@[simp] theorem State.advance_summary (s : State) (t : Nat) : (s.advance t).summary = s.summary := rfl
@[simp] theorem State.advance_chans (s : State) (t : Nat) : (s.advance t).chans = s.chans := rfl
@[simp] theorem State.advance_cal (s : State) (t : Nat) : (s.advance t).cal = s.cal := rfl
@[simp] theorem State.advance_routes (s : State) (t : Nat) : (s.advance t).routes = s.routes := rfl
@[simp] theorem State.advance_trigOuts (s : State) (t : Nat) : (s.advance t).trigOuts = s.trigOuts := rfl
@[simp] theorem State.advance_trigIns (s : State) (t : Nat) : (s.advance t).trigIns = s.trigIns := rfl
@[simp] theorem State.advance_tiller (s : State) (t : Nat) : (s.advance t).tiller = s.tiller := rfl
@[simp] theorem State.advance_rachis (s : State) (t : Nat) : (s.advance t).rachis = s.rachis := rfl
@[simp] theorem State.advance_rports (s : State) (t : Nat) : (s.advance t).rports = s.rports := rfl
@[simp] theorem State.advance_sources (s : State) (t : Nat) : (s.advance t).sources = s.sources := rfl
@[simp] theorem State.advance_engines (s : State) (t : Nat) : (s.advance t).engines = s.engines := rfl
@[simp] theorem State.advance_nodes (s : State) (t : Nat) : (s.advance t).nodes = s.nodes := rfl
@[simp] theorem State.advance_insts (s : State) (t : Nat) : (s.advance t).insts = s.insts := rfl
@[simp] theorem State.advance_images (s : State) (t : Nat) : (s.advance t).images = s.images := rfl
@[simp] theorem State.advance_keys (s : State) (t : Nat) : (s.advance t).keys = s.keys := rfl
@[simp] theorem State.advance_dram (s : State) (t : Nat) : (s.advance t).dram = s.dram := rfl
@[simp] theorem State.advance_winnow (s : State) (t : Nat) : (s.advance t).winnow = s.winnow := rfl
@[simp] theorem State.advance_granary (s : State) (t : Nat) : (s.advance t).granary = s.granary := rfl
@[simp] theorem State.advance_ports (s : State) (t : Nat) : (s.advance t).ports = s.ports := rfl
@[simp] theorem State.advance_streams (s : State) (t : Nat) : (s.advance t).streams = s.streams := rfl
@[simp] theorem State.advance_transfers (s : State) (t : Nat) : (s.advance t).transfers = s.transfers := rfl
@[simp] theorem State.advance_quench (s : State) (t : Nat) : (s.advance t).quench = s.quench := rfl
@[simp] theorem State.advance_drill (s : State) (t : Nat) : (s.advance t).drill = s.drill := rfl
@[simp] theorem State.advance_probes (s : State) (t : Nat) : (s.advance t).probes = s.probes := rfl
@[simp] theorem State.advance_test (s : State) (t : Nat) : (s.advance t).test = s.test := rfl
@[simp] theorem State.advance_power (s : State) (t : Nat) : (s.advance t).power = s.power := rfl

/-! The part an update changes -/

@[simp] theorem State.modTime_time (s : State) (f) : (s.modTime f).time = f s.time := rfl
@[simp] theorem State.modJr_jr (s : State) (f) : (s.modJr f).jr = f s.jr := rfl
@[simp] theorem State.modRings_rings (s : State) (f) : (s.modRings f).rings = f s.rings := rfl
@[simp] theorem State.modRachis_rachis (s : State) (f) : (s.modRachis f).rachis = f s.rachis := rfl
@[simp] theorem State.modPower_power (s : State) (f) : (s.modPower f).power = f s.power := rfl
@[simp] theorem State.modCal_cal (s : State) (f) : (s.modCal f).cal = f s.cal := rfl
@[simp] theorem State.modTiller_tiller (s : State) (f) : (s.modTiller f).tiller = f s.tiller := rfl
@[simp] theorem State.modDrill_drill (s : State) (f) : (s.modDrill f).drill = f s.drill := rfl
@[simp] theorem State.modWinnow_winnow (s : State) (f) : (s.modWinnow f).winnow = f s.winnow := rfl
@[simp] theorem State.modGranary_granary (s : State) (f) : (s.modGranary f).granary = f s.granary := rfl
@[simp] theorem State.modTest_test (s : State) (f) : (s.modTest f).test = f s.test := rfl
@[simp] theorem State.modTenant_tenants (s : State) (i f) : (s.modTenant i f).tenants = vmod s.tenants i f := rfl
@[simp] theorem State.modChan_chans (s : State) (i f) : (s.modChan i f).chans = vmod s.chans i f := rfl
@[simp] theorem State.modRoute_routes (s : State) (i f) : (s.modRoute i f).routes = vmod s.routes i f := rfl
@[simp] theorem State.modSource_sources (s : State) (i f) : (s.modSource i f).sources = vmod s.sources i f := rfl
@[simp] theorem State.modEngine_engines (s : State) (i f) : (s.modEngine i f).engines = vmod s.engines i f := rfl
@[simp] theorem State.modPort_ports (s : State) (i f) : (s.modPort i f).ports = vmod s.ports i f := rfl
@[simp] theorem State.modStream_streams (s : State) (i f) : (s.modStream i f).streams = vmod s.streams i f := rfl
@[simp] theorem State.modRport_rports (s : State) (i f) : (s.modRport i f).rports = vmod s.rports i f := rfl
@[simp] theorem State.modProbe_probes (s : State) (i f) : (s.modProbe i f).probes = vmod s.probes i f := rfl
@[simp] theorem State.modTrigOut_trigOuts (s : State) (i f) : (s.modTrigOut i f).trigOuts = vmod s.trigOuts i f := rfl

end Sys2Proof.Machine
end

