-- ==== Sys2Proof/Laws/Tables.lean ====
section
/-! SUPPORT. Tables by number and sparse tables: reading after writing. -/

namespace Sys2Proof.Machine

variable {α : Type} {n : Nat}

@[simp] theorem vget_vmod_self [Inhabited α] (v : Vector α n) (i : Nat) (f : α → α) (h : i < n) :
    vget (vmod v i f) i = f (vget v i) := by
  simp [vget, vmod, h]

theorem vget_vmod_ne [Inhabited α] (v : Vector α n) (i j : Nat) (f : α → α) (h : i ≠ j) :
    vget (vmod v i f) j = vget v j := by
  unfold vget vmod
  split
  · rw [Vector.getElem?_set_ne]; exact h
  · rfl

/-- Outside the table an update changes nothing. -/
theorem vmod_out (v : Vector α n) (i : Nat) (f : α → α) (h : ¬ i < n) : vmod v i f = v := by simp [vmod, h]

theorem vget_vmod [Inhabited α] (v : Vector α n) (i j : Nat) (f : α → α) :
    vget (vmod v i f) j = if i = j ∧ i < n then f (vget v j) else vget v j := by
  by_cases h : i = j
  · subst h
    by_cases hi : i < n
    · simp [hi]
    · simp [vmod_out v i f hi, hi]
  · simp [vget_vmod_ne v i j f h, h]

/-- An update that keeps a property of every element keeps it of the table. -/
theorem vmod_all [Inhabited α] (P : α → Prop) (v : Vector α n) (i : Nat) (f : α → α) (hv : ∀ j, P (vget v j))
    (hf : ∀ a, P a → P (f a)) (j : Nat) : P (vget (vmod v i f) j) := by
  rw [vget_vmod]; split
  · exact hf _ (hv j)
  · exact hv j

theorem aget_aset_self (m : Assoc α) (k : Nat) (a : α) : aget (aset m k a) k = some a := by
  induction m with
  | nil => simp [aset, aget]
  | cons e m ih =>
    obtain ⟨j, b⟩ := e
    unfold aset
    split
    · simp [aget]
    · split
      · simp [aget]
      · rename_i h1 h2
        have : j ≠ k := fun h => h2 h.symm
        simp [aget, this, ih]

theorem aget_aset_ne (m : Assoc α) (k i : Nat) (a : α) (h : k ≠ i) : aget (aset m k a) i = aget m i := by
  induction m with
  | nil => simp [aset, aget, h]
  | cons e m ih =>
    obtain ⟨j, b⟩ := e
    unfold aset
    split
    · simp [aget, h]
    · split
      · rename_i h2
        subst h2
        simp [aget, h]
      · by_cases hj : j = i
        · simp [aget, hj]
        · simp [aget, hj, ih]

end Sys2Proof.Machine
end

