-- ==== Sys2Proof/Laws/Settle.lean ====
section
/-! SUPPORT. What closing a command does: all of it in `settle_closes`. -/

namespace Sys2Proof.Machine

/-- A relation every change of a list keeps holds between the first state and the last. -/
theorem State.each_rel {α : Type} (R : State → State → Prop) (hr : ∀ s, R s s) (ht : ∀ s t u, R s t → R t u → R s u)
    (f : State → α → State) (hf : ∀ s a, R s (f s a)) (l : List α) (s : State) : R s (s.each l f) := by
  induction l generalizing s with
  | nil => exact hr s
  | cons a l ih => exact ht _ _ _ (hf s a) (ih (f s a))

/-- A function of the state that no change of a list touches. -/
theorem State.each_eq {α β : Type} (g : State → β) (f : State → α → State) (hf : ∀ s a, g (f s a) = g s) (l : List α) (s : State) :
    g (s.each l f) = g s :=
  State.each_rel (fun s t => g t = g s) (fun _ => rfl) (fun _ _ _ h1 h2 => h2.trans h1) f hf l s

/-! ## Occurrences -/

/-- What the queue of a tenant may take when an occurrence is offered to it. -/
theorem Tenant.offer_frame (t : Tenant) (o : Occurrence) :
    t.offer o = { t with queue := (t.offer o).queue, lostOpen := (t.offer o).lostOpen, eventsLost := (t.offer o).eventsLost
                         eventSeq := (t.offer o).eventSeq } := by
  unfold Tenant.offer
  split
  · rfl
  · split
    · rfl
    · split
      · unfold Tenant.loseEvent
        simp only []
        split <;> rfl
      · rfl

/-- The relation of `placeOccurrences`: only queues and the summary change. -/
structure Places (s t : State) : Prop where
  rest : OnlyChanges [.tenants, .summary] s t
  tenants : ∀ i, t.tenant i = { s.tenant i with queue := (t.tenant i).queue, lostOpen := (t.tenant i).lostOpen
                                                eventsLost := (t.tenant i).eventsLost, eventSeq := (t.tenant i).eventSeq }

theorem OnlyChanges.refl (l : List Part) (s : State) : OnlyChanges l s s := ⟨rfl, fun p _ => by cases p <;> rfl⟩

theorem OnlyChanges.trans {l : List Part} {s t u : State} (h1 : OnlyChanges l s t) (h2 : OnlyChanges l t u) : OnlyChanges l s u := by
  refine ⟨h2.1.trans h1.1, fun p hp => ?_⟩
  have a := h1.2 p hp
  have b := h2.2 p hp
  cases p <;> exact Eq.trans b a

theorem OnlyChanges.mono {l k : List Part} {s t : State} (h : OnlyChanges l s t) (hk : ∀ p ∈ l, p ∈ k) : OnlyChanges k s t :=
  ⟨h.1, fun p hp => h.2 p fun hl => hp (hk p hl)⟩

theorem Places.refl (s : State) : Places s s := ⟨OnlyChanges.refl _ s, fun _ => rfl⟩

theorem Places.trans (s t u : State) (h1 : Places s t) (h2 : Places t u) : Places s u := by
  refine ⟨h1.rest.trans h2.rest, fun i => ?_⟩
  have a := h1.tenants i
  have b := h2.tenants i
  rw [b, a]

/-- Updates of tenants that touch queues only. -/
theorem places_modTenant (s : State) (r : Nat) (f : Tenant → Tenant)
    (hf : f (s.tenant r) = { s.tenant r with queue := (f (s.tenant r)).queue, lostOpen := (f (s.tenant r)).lostOpen
                                             eventsLost := (f (s.tenant r)).eventsLost, eventSeq := (f (s.tenant r)).eventSeq }) :
    Places s (s.modTenant r f) := by
  refine ⟨⟨rfl, fun p hp => ?_⟩, fun i => ?_⟩
  · cases p <;> first | rfl | simp at hp
  · simp only [State.tenant, State.modTenant_tenants, vget_vmod] at *
    by_cases h : r = i ∧ r < 256
    · obtain ⟨rfl, h2⟩ := h
      rw [if_pos ⟨rfl, h2⟩]
      exact hf
    · rw [if_neg h]

theorem places_summary (s : State) (v : Vector U32 48) : Places s { s with summary := v } := by
  refine ⟨⟨rfl, fun p hp => ?_⟩, fun i => rfl⟩
  cases p <;> first | rfl | simp at hp

theorem offerTo_places (s : State) (o : Occurrence) (r : Nat) : Places s (s.offerTo o r) := by
  have h : Places s (s.modTenant r fun _ => (s.tenant r).offer o) := places_modTenant s r _ (Tenant.offer_frame _ _)
  unfold State.offerTo
  simp only []
  split
  · exact h.trans _ _ _ (places_summary _ _)
  · exact h

theorem place_places (s : State) (o : Occurrence) : Places s (s.place o) :=
  State.each_rel Places Places.refl Places.trans _ (fun s r => offerTo_places s o r) _ s

theorem each_place_places (s : State) (l : List Occurrence) : Places s (s.each l State.place) :=
  State.each_rel Places Places.refl Places.trans _ place_places _ s

/-! ## Responses -/

/-- The relation of `deliverAll`: response frames go to their transports. -/
structure Delivers (s t : State) : Prop where
  rest : OnlyChanges [.rings, .ports] s t
  rings : t.rings = { s.rings with rspWaiting := t.rings.rspWaiting }
  ports : ∀ k, t.port k = { s.port k with q0 := (t.port k).q0, q0Peak := (t.port k).q0Peak, txFrames := (t.port k).txFrames }

theorem Delivers.refl (s : State) : Delivers s s := ⟨OnlyChanges.refl _ s, rfl, fun _ => rfl⟩

theorem Delivers.trans (s t u : State) (h1 : Delivers s t) (h2 : Delivers t u) : Delivers s u := by
  refine ⟨h1.rest.trans h2.rest, ?_, fun k => ?_⟩
  · rw [h2.rings, h1.rings]
  · have a := h1.ports k
    have b := h2.ports k
    rw [b, a]

theorem deliver_port (s : State) (k : Nat) (f : Port → Port)
    (hf : ∀ p, f p = { p with q0 := (f p).q0, q0Peak := (f p).q0Peak, txFrames := (f p).txFrames }) : Delivers s (s.modPort k f) := by
  refine ⟨⟨rfl, fun p hp => ?_⟩, rfl, fun i => ?_⟩
  · cases p <;> first | rfl | simp at hp
  · simp only [State.port, State.modPort_ports, vget_vmod]
    split
    · exact hf _
    · rfl

theorem deliver_delivers (s : State) (o : Outgoing) : Delivers s (s.deliver o) := by
  unfold State.deliver
  split
  · refine ⟨⟨rfl, fun p hp => ?_⟩, rfl, fun _ => rfl⟩
    cases p <;> first | rfl | simp at hp
  · exact deliver_port s _ _ fun _ => rfl

theorem each_deliver_delivers (s : State) (l : List Outgoing) : Delivers s (s.each l State.deliver) :=
  State.each_rel Delivers Delivers.refl Delivers.trans _ deliver_delivers _ s

/-- Writing responses into the ring changes the ring's bytes, its producer index and what waits. -/
theorem Rings.drainResponses_frame (r : Rings) (n : Nat) :
    r.drainResponses n = { r with ram := (r.drainResponses n).ram, rspProd := (r.drainResponses n).rspProd
                                  rspWaiting := (r.drainResponses n).rspWaiting } := by
  induction n generalizing r with
  | zero => rfl
  | succ n ih =>
    unfold Rings.drainResponses
    split
    · rfl
    · simp only []
      split
      · rw [ih]
      · rfl

theorem Rings.settle_frame (r : Rings) :
    r.settle = { r with ram := r.settle.ram, rspProd := r.settle.rspProd, rspWaiting := r.settle.rspWaiting
                        cmdStalled := r.settle.cmdStalled } := by
  unfold Rings.settle
  simp only []
  rw [Rings.drainResponses_frame]

theorem TimeBase.logTsb_frame (c : Nat) (t : TimeBase) : TimeBase.logTsb c t = { t with tsbLog := (TimeBase.logTsb c t).tsbLog } := by
  unfold TimeBase.logTsb
  split
  · split <;> rfl
  · rfl

theorem TimeBase.refresh_frame (t0 t : TimeBase) :
    TimeBase.refresh t0 t = { t with updateCount := (TimeBase.refresh t0 t).updateCount, taiUtc := (TimeBase.refresh t0 t).taiUtc
                                     leapNegative := (TimeBase.refresh t0 t).leapNegative } := rfl

/-! ## Closing -/

/-- The state when occurrences have been placed. -/
def placed (s : State) : State := if s.power.culmUp then s.placeOccurrences else s

theorem placeOccurrences_eq (s : State) :
    s.placeOccurrences = { s.each s.jr.outbox State.place with jr := { s.jr with outbox := [] } } := rfl

theorem deliverAll_eq (s : State) : s.deliverAll = { s.each s.jr.outgoing State.deliver with jr := { s.jr with outgoing := [] } } := rfl

/-- Placing occurrences: queues, summary and the outbox. -/
theorem placed_closes (s : State) :
    OnlyChanges [.tenants, .summary, .jr] s (placed s) ∧ (placed s).jr = { s.jr with outbox := (placed s).jr.outbox }
      ∧ ∀ i, (placed s).tenant i = { s.tenant i with queue := ((placed s).tenant i).queue, lostOpen := ((placed s).tenant i).lostOpen
                                                     eventsLost := ((placed s).tenant i).eventsLost
                                                     eventSeq := ((placed s).tenant i).eventSeq } := by
  unfold placed
  split
  · have h := each_place_places s s.jr.outbox
    rw [placeOccurrences_eq]
    refine ⟨⟨h.rest.1, fun p hp => ?_⟩, rfl, h.tenants⟩
    have hh := h.rest.2 p
    cases p <;> first | (exfalso; revert hp; decide) | exact hh (by decide)
  · exact ⟨OnlyChanges.refl _ s, rfl, fun _ => rfl⟩

/-- All that closing does. -/
theorem settle_closes (s0 s : State) : Closes s (State.settle s0 s) := by
  obtain ⟨h1, h1j, h1t⟩ := placed_closes s
  have h2 := each_deliver_delivers (placed s) (placed s).jr.outgoing
  have he : State.settle s0 s =
      { (placed s).each (placed s).jr.outgoing State.deliver with
        jr := { (placed s).jr with outgoing := [] }
        time := (TimeBase.refresh s0.time ((placed s).each (placed s).jr.outgoing State.deliver).time).logTsb
          ((placed s).each (placed s).jr.outgoing State.deliver).clock
        power := Power.refresh s0.power ((placed s).each (placed s).jr.outgoing State.deliver).power
        rings := ((placed s).each (placed s).jr.outgoing State.deliver).rings.settle } := rfl
  have htime := h2.rest.2 .time (by simp)
  have hw := h2.rest.2 .power (by simp)
  have ht := h1.2 .time (by simp)
  have hq := h1.2 .power (by simp)
  have hr := h1.2 .rings (by simp)
  have ho := h1.2 .ports (by simp)
  have hn := h2.rest.2 .tenants (by simp)
  simp only [Part.same] at htime hw ht hq hr ho hn
  constructor
  · rw [he]
    refine ⟨h2.rest.1.trans h1.1, fun p hp => ?_⟩
    have a := h1.2 p
    have b := h2.rest.2 p
    cases p <;> first
      | (exfalso; revert hp; decide)
      | exact Eq.trans (b (by decide)) (a (by decide))
  · rw [he]
    simp only [htime, ht]
    rw [TimeBase.logTsb_frame]
    rfl
  · rw [he]
    simp only [hw, hq]
    rfl
  · rw [he]
    simp only []
    rw [Rings.settle_frame, h2.rings, hr]
  · rw [he]
    simp only []
    rw [h1j]
  · intro i
    have : (State.settle s0 s).tenant i = (placed s).tenant i := by
      rw [he]; simp only [State.tenant, hn]
    rw [this]
    exact h1t i
  · intro k
    have hk : (State.settle s0 s).port k = ((placed s).each (placed s).jr.outgoing State.deliver).port k := by rw [he]; rfl
    have hs : (placed s).port k = s.port k := by simp only [State.port, ho]
    rw [hk, ← hs]
    exact h2.ports k

end Sys2Proof.Machine
end

