-- ==== Sys2Proof/Laws/FixedA.lean ====
section
/-! SUPPORT. What no command touches beside the few that are named in Keeps: the queue, the clock and the rings. One lemma per
operation, here of operations, rings, capture, links, stamps and triggers. -/

set_option linter.all false

namespace Sys2Proof.Machine
/-- The queue, the clock and the rings. -/
def State.fixed (s : State) : List Instr × Nat × Rings := (s.pending, s.clock, s.rings)

@[simp] theorem State.fixed_mk (a0 a1 a2 a3 a4 a5 a6 a7 a8 a9 a10 a11 a12 a13 a14 a15 a16 a17 a18 a19 a20 a21 a22 a23 a24 a25 a26 a27 a28 a29 a30 a31 a32 a33) :
  State.fixed (State.mk a0 a1 a2 a3 a4 a5 a6 a7 a8 a9 a10 a11 a12 a13 a14 a15 a16 a17 a18 a19 a20 a21 a22 a23 a24 a25 a26 a27 a28 a29 a30 a31 a32 a33) = (a0, a2, a4) := rfl
@[simp] theorem State.fixed_eta (s : State) : (s.pending, s.clock, s.rings) = s.fixed := rfl
theorem State.each_fixed {α : Type} (f : State → α → State) (hf : ∀ s a, (f s a).fixed = s.fixed) (l : List α) (s : State) :
    (s.each l f).fixed = s.fixed := State.each_eq State.fixed f hf l s
theorem Except.bind_ok {ε α β : Type} {x : Except ε α} {f : α → Except ε β} {b : β} (h : Except.bind x f = .ok b) :
    ∃ a, x = .ok a ∧ f a = .ok b := by
  cases x with
  | ok a => exact ⟨a, rfl, h⟩
  | error e => cases h
theorem State.each_fixed_trans {α : Type} {f : State → α → State} {l : List α} {s : State} {v} (hf : ∀ s a, (f s a).fixed = s.fixed) (h : s.fixed = v) : (s.each l f).fixed = v := (State.each_fixed f hf l s).trans h
theorem foldl_ok_fixed {α ε : Type} {f : State → α → Except ε State} (hf : ∀ s a t, f s a = .ok t → t.fixed = s.fixed) (l : List α) :
    ∀ (acc : Except ε State) (u : State), l.foldl (fun acc a => Except.bind acc fun s => f s a) acc = .ok u → ∃ s, acc = .ok s ∧ u.fixed = s.fixed := by
  induction l with
  | nil => intro acc u h; exact ⟨u, h, rfl⟩
  | cons a l ih =>
    intro acc u h
    obtain ⟨s, hs, hu⟩ := ih _ u h
    obtain ⟨t, ht, hst⟩ := Except.bind_ok hs
    exact ⟨t, ht, hu.trans (hf _ _ _ hst)⟩

theorem fixed_trigOuts (s : State) (v : Vector TrigOut 4) : State.fixed { s with trigOuts := v } = s.fixed := rfl
theorem fixed_insts (s : State) (l : Assoc Instance) : State.fixed { s with insts := l } = s.fixed := rfl
theorem pair_fixed {α : Type} {p : α × State} {a : α} {t : State} {v} (h : p = (a, t)) (hp : p.2.fixed = v) : t.fixed = v := by
  subst h; exact hp
theorem triple_fixed {α β : Type} {p : α × β × State} {a : α} {b : β} {t : State} {v} (h : p = (a, b, t)) (hp : p.2.2.fixed = v) : t.fixed = v := by
  subst h; exact hp
theorem foldl_fixed {α : Type} (f : State → α → State) (hf : ∀ s a, (f s a).fixed = s.fixed) (l : List α) (s : State) :
    (l.foldl f s).fixed = s.fixed := State.each_fixed f hf l s
theorem foldl_acc_fixed {α ε : Type} {f : State → α → Except ε State} (hf : ∀ s a t, f s a = .ok t → t.fixed = s.fixed) (l : List α) :
    ∀ (acc : Except ε State) (v) (_ : ∀ t, acc = .ok t → t.fixed = v) (u : State),
      l.foldl (fun acc a => match acc with | .ok s => f s a | .error e => .error e) acc = .ok u → u.fixed = v := by
  induction l with
  | nil => intro acc v ha u hu; exact ha u hu
  | cons a l ih =>
    intro acc v ha u hu
    refine ih _ v ?_ u hu
    intro t ht
    cases acc with
    | error e => injection ht
    | ok s => exact (hf s a t ht).trans (ha s rfl)
theorem ok_pair {ε ρ : Type} {r a : ρ} {t u : State} {v} (h : (Except.ok (r, t) : Except ε (ρ × State)) = .ok (a, u)) (ht : t.fixed = v) :
    u.fixed = v := by
  injection h with h
  injection h with _ h
  rw [← h]
  exact ht
theorem ok_state {ε : Type} {t u : State} {v} (h : (Except.ok t : Except ε State) = .ok u) (ht : t.fixed = v) : u.fixed = v := by
  injection h with h
  rw [← h]
  exact ht
theorem Except.bind_unit_ok {ε β : Type} {x : Except ε Unit} {f : Except ε β} {b : β} (h : (x >>= fun _ => f) = .ok b) : f = .ok b := by
  cases x with
  | ok a => exact h
  | error e => cases h
theorem foldl_pair_fixed {α β : Type} (f : State × β → α → State × β) (hf : ∀ p a, (f p a).1.fixed = p.1.fixed) (l : List α) (p : State × β) :
    (l.foldl f p).1.fixed = p.1.fixed := by
  induction l generalizing p with
  | nil => rfl
  | cons a l ih => exact (ih _).trans (hf _ _)
theorem ite_bind {ε β : Type} {c : Prop} [Decidable c] {x y : Except ε Unit} {k : Except ε β} {b : β}
    (h : (if c then x >>= fun _ => k else y >>= fun _ => k) = .ok b) : k = .ok b := by
  split at h <;> exact Except.bind_unit_ok h

/-! ## Ops -/

@[simp] theorem State.free_fixed (x0 : State) : State.fixed (@State.free x0).2 = State.fixed x0 := by
  simp [State.free]

@[simp] theorem State.modTime_fixed (x0 : State) (x1 : TimeBase → TimeBase) : State.fixed (@State.modTime x0 x1) = State.fixed x0 := by
  simp [State.modTime]

@[simp] theorem State.modJr_fixed (x0 : State) (x1 : Journal → Journal) : State.fixed (@State.modJr x0 x1) = State.fixed x0 := by
  simp [State.modJr]

@[simp] theorem State.modTenant_fixed (x0 : State) (x1 : ℕ) (x2 : Tenant → Tenant) : State.fixed (@State.modTenant x0 x1 x2) = State.fixed x0 := by
  simp [State.modTenant]

@[simp] theorem State.modChan_fixed (x0 : State) (x1 : ℕ) (x2 : Channel → Channel) : State.fixed (@State.modChan x0 x1 x2) = State.fixed x0 := by
  simp [State.modChan]

@[simp] theorem State.modRoute_fixed (x0 : State) (x1 : ℕ) (x2 : Route → Route) : State.fixed (@State.modRoute x0 x1 x2) = State.fixed x0 := by
  simp [State.modRoute]

@[simp] theorem State.modSource_fixed (x0 : State) (x1 : ℕ) (x2 : StampSource → StampSource) : State.fixed (@State.modSource x0 x1 x2) = State.fixed x0 := by
  simp [State.modSource]

@[simp] theorem State.modLane_fixed (x0 : State) (x1 : ℕ) (x2 : ℕ) (x3 : Lane → Lane) : State.fixed (@State.modLane x0 x1 x2 x3) = State.fixed x0 := by
  simp [State.modLane]

@[simp] theorem State.modEngine_fixed (x0 : State) (x1 : ℕ) (x2 : Engine → Engine) : State.fixed (@State.modEngine x0 x1 x2) = State.fixed x0 := by
  simp [State.modEngine]

@[simp] theorem State.modInst_fixed (x0 : State) (x1 : ℕ) (x2 : Instance → Instance) : State.fixed (@State.modInst x0 x1 x2) = State.fixed x0 := by
  simp [State.modInst]

@[simp] theorem State.modDram_fixed (x0 : State) (x1 : ℕ) (x2 : Dram → Dram) : State.fixed (@State.modDram x0 x1 x2) = State.fixed x0 := by
  simp [State.modDram]

@[simp] theorem State.modCassette_fixed (x0 : State) (x1 : ℕ) (x2 : Cassette → Cassette) : State.fixed (@State.modCassette x0 x1 x2) = State.fixed x0 := by
  simp [State.modCassette]

@[simp] theorem State.modDie_fixed (x0 : State) (x1 : ℕ) (x2 : Die → Die) : State.fixed (@State.modDie x0 x1 x2) = State.fixed x0 := by
  simp [State.modDie]

@[simp] theorem State.modJob_fixed (x0 : State) (x1 : ℕ) (x2 : Job → Job) : State.fixed (@State.modJob x0 x1 x2) = State.fixed x0 := by
  simp [State.modJob]

@[simp] theorem State.modPort_fixed (x0 : State) (x1 : ℕ) (x2 : Port → Port) : State.fixed (@State.modPort x0 x1 x2) = State.fixed x0 := by
  simp [State.modPort]

@[simp] theorem State.modStream_fixed (x0 : State) (x1 : ℕ) (x2 : Stream → Stream) : State.fixed (@State.modStream x0 x1 x2) = State.fixed x0 := by
  simp [State.modStream]

@[simp] theorem State.modRport_fixed (x0 : State) (x1 : ℕ) (x2 : RachisPort → RachisPort) : State.fixed (@State.modRport x0 x1 x2) = State.fixed x0 := by
  simp [State.modRport]

@[simp] theorem State.modRachis_fixed (x0 : State) (x1 : Rachis → Rachis) : State.fixed (@State.modRachis x0 x1) = State.fixed x0 := by
  simp [State.modRachis]

@[simp] theorem State.modProbe_fixed (x0 : State) (x1 : ℕ) (x2 : Probe → Probe) : State.fixed (@State.modProbe x0 x1 x2) = State.fixed x0 := by
  simp [State.modProbe]

@[simp] theorem State.modPower_fixed (x0 : State) (x1 : Power → Power) : State.fixed (@State.modPower x0 x1) = State.fixed x0 := by
  simp [State.modPower]

@[simp] theorem State.modCal_fixed (x0 : State) (x1 : Calibration → Calibration) : State.fixed (@State.modCal x0 x1) = State.fixed x0 := by
  simp [State.modCal]

@[simp] theorem State.modTiller_fixed (x0 : State) (x1 : Tiller → Tiller) : State.fixed (@State.modTiller x0 x1) = State.fixed x0 := by
  simp [State.modTiller]

@[simp] theorem State.modDrill_fixed (x0 : State) (x1 : Drill → Drill) : State.fixed (@State.modDrill x0 x1) = State.fixed x0 := by
  simp [State.modDrill]

@[simp] theorem State.modWinnow_fixed (x0 : State) (x1 : Winnow → Winnow) : State.fixed (@State.modWinnow x0 x1) = State.fixed x0 := by
  simp [State.modWinnow]

@[simp] theorem State.modGranary_fixed (x0 : State) (x1 : Granary → Granary) : State.fixed (@State.modGranary x0 x1) = State.fixed x0 := by
  simp [State.modGranary]

@[simp] theorem State.modTrigOut_fixed (x0 : State) (x1 : ℕ) (x2 : TrigOut → TrigOut) : State.fixed (@State.modTrigOut x0 x1 x2) = State.fixed x0 := by
  simp [State.modTrigOut]

@[simp] theorem State.modTest_fixed (x0 : State) (x1 : TestUnit → TestUnit) : State.fixed (@State.modTest x0 x1) = State.fixed x0 := by
  simp [State.modTest]

@[simp] theorem State.stageMgmt_fixed (x0 : State) (x1 : MgmtChange) : State.fixed (@State.stageMgmt x0 x1) = State.fixed x0 := by
  simp [State.stageMgmt]

@[simp] theorem State.restageMgmt_fixed (x0 : State) (x1 : List MgmtChange) : State.fixed (@State.restageMgmt x0 x1) = State.fixed x0 := by
  simp [State.restageMgmt]

@[simp] theorem State.cutGates_fixed (x0 : State) (x1 : Instance → Bool) (x2 : ℕ) : State.fixed (@State.cutGates x0 x1 x2) = State.fixed x0 := by
  simp [State.cutGates]

/-! ## Events -/

@[simp] theorem State.markSummary_fixed (x0 : State) (x1 : ℕ) : State.fixed (@State.markSummary x0 x1) = State.fixed x0 := by
  simp [State.markSummary]

@[simp] theorem State.raiseAt_fixed (x0 : State) (x1 : Vt96) (x2 : ℕ) (x3 : Bytes) (x4 : optParam (List ℕ) []) : State.fixed (@State.raiseAt x0 x1 x2 x3 x4) = State.fixed x0 := by
  simp [State.raiseAt]

@[simp] theorem State.raise_fixed (x0 : State) (x1 : ℕ) (x2 : Bytes) (x3 : optParam (List ℕ) []) : State.fixed (@State.raise x0 x1 x2 x3) = State.fixed x0 := by
  simp [State.raise]

@[simp] theorem State.offerTo_fixed (x0 : State) (x1 : Occurrence) (x2 : ℕ) : State.fixed (@State.offerTo x0 x1 x2) = State.fixed x0 := by
  unfold State.offerTo
  (repeat' first
    | with_reducible rfl
    | (extract_lets +onlyGivenNames s1; have hs : State.fixed s1 = State.fixed x0 := by (simp [s1, *]; done)
       clear_value s1)
    | (extract_lets +onlyGivenNames s1; clear_value s1)
    | intro _ | with_reducible refine State.each_fixed_trans ?_ ?_ | split | (simp [*]; done))

@[simp] theorem State.place_fixed (x0 : State) (x1 : Occurrence) : State.fixed (@State.place x0 x1) = State.fixed x0 := by
  unfold State.place
  (repeat' first | with_reducible rfl | intro _ | with_reducible refine State.each_fixed_trans ?_ ?_ | split | (simp; done))

@[simp] theorem State.placeOccurrences_fixed (x0 : State) : State.fixed (@State.placeOccurrences x0) = State.fixed x0 := by
  unfold State.placeOccurrences
  (repeat' first
    | with_reducible rfl
    | (extract_lets +onlyGivenNames s1
       have hs : State.fixed s1 = State.fixed x0 := by
         first | (simp [s1, *]; done) | (unfold s1; (repeat' first | with_reducible rfl | intro _ | with_reducible refine State.each_fixed_trans ?_ ?_ | split | (simp [*]; done)); done)
       clear_value s1)
    | (extract_lets +onlyGivenNames s1; clear_value s1)
    | intro _ | with_reducible refine State.each_fixed_trans ?_ ?_ | split | (simp [*]; done) | refine (pair_fixed ‹_› rfl).trans ?_
    | refine (State.newEntry_fixed _ _ _ _ ‹_›).trans ?_)

/-! ## Journals -/

theorem State.newEntry_fixed (x0 : State) (x1 : JournalEntry) : ∀ a u, @State.newEntry x0 x1 = some (a, u) → State.fixed u = State.fixed x0 := by
  unfold State.newEntry
  intros
  rename_i h
  try simp only [bind, pure, Except.pure, Option.map_eq_some_iff] at h
  repeat' first
    | exact answer_fixed _ _ _ _ h
    | (replace h := Except.bind_ok h; rcases h with ⟨_, h0, h⟩)
    | (rcases h with ⟨_, h0, h⟩)
    | (extract_lets +onlyGivenNames s1 at h
       have hs : State.fixed s1 = State.fixed x0 := by
         first
           | (simp [s1, *]; done)
           | (unfold s1; (repeat' first | with_reducible rfl | intro _ | with_reducible refine State.each_fixed_trans ?_ ?_ | split | (simp [*]; done)); done)
       clear_value s1)
    | (extract_lets +onlyGivenNames s1 at h; clear_value s1)
    | (split at h; skip)
    | (injection h; done)
    | (injection h with h h1; subst h1)
    | (injection h with h; subst h)
    | (injection h with h)
  all_goals repeat' first
    | with_reducible rfl
    | (simp [*]; done)
    | assumption
    | refine (pair_fixed ‹_› rfl).trans ?_
    | refine (triple_fixed ‹_› rfl).trans ?_
    | refine (State.newEntry_fixed _ _ _ _ ‹_›).trans ?_
    | refine (State.beginRecord_fixed _ _ _ _ _ ‹_›).trans ?_
    | refine (State.takeRecordId_fixed _ _ _ ‹_›).trans ?_
    | refine (State.takePages_fixed _ _ _ _ _ _ ‹_›).trans ?_
    | refine (State.sizeRing_fixed _ _ _ _ _ _ ‹_›).trans ?_
    | refine (State.startWork_fixed _ _ _ _ _ _ ‹_›).trans ?_
    | refine (State.doneAtOnce_fixed _ _ _ _ _ _ ‹_›).trans ?_
    | refine (State.newItem_fixed _ _ _ _ _ _ _ ‹_›).trans ?_
    | intro _
    | with_reducible refine State.each_fixed_trans ?_ ?_
    | (split; skip)
    | (simp; skip)

theorem State.startWork_fixed (x0 : State) (x1 : Frame) (x2 : ℕ) (x3 : ℕ) : ∀ a u, @State.startWork x0 x1 x2 x3 = .ok (a, u) → State.fixed u = State.fixed x0 := by
  unfold State.startWork
  intros
  rename_i h
  try simp only [bind, pure, Except.pure, Option.map_eq_some_iff] at h
  repeat' first
    | exact answer_fixed _ _ _ _ h
    | (replace h := Except.bind_ok h; rcases h with ⟨_, h0, h⟩)
    | (rcases h with ⟨_, h0, h⟩)
    | (extract_lets +onlyGivenNames s1 at h
       have hs : State.fixed s1 = State.fixed x0 := by
         first
           | (simp [s1, *]; done)
           | (unfold s1; (repeat' first | with_reducible rfl | intro _ | with_reducible refine State.each_fixed_trans ?_ ?_ | split | (simp [*]; done)); done)
       clear_value s1)
    | (extract_lets +onlyGivenNames s1 at h; clear_value s1)
    | (split at h; skip)
    | (injection h; done)
    | (injection h with h h1; subst h1)
    | (injection h with h; subst h)
    | (injection h with h)
  all_goals repeat' first
    | with_reducible rfl
    | (simp [*]; done)
    | assumption
    | refine (pair_fixed ‹_› rfl).trans ?_
    | refine (triple_fixed ‹_› rfl).trans ?_
    | refine (State.newEntry_fixed _ _ _ _ ‹_›).trans ?_
    | refine (State.beginRecord_fixed _ _ _ _ _ ‹_›).trans ?_
    | refine (State.takeRecordId_fixed _ _ _ ‹_›).trans ?_
    | refine (State.takePages_fixed _ _ _ _ _ _ ‹_›).trans ?_
    | refine (State.sizeRing_fixed _ _ _ _ _ _ ‹_›).trans ?_
    | refine (State.startWork_fixed _ _ _ _ _ _ ‹_›).trans ?_
    | refine (State.doneAtOnce_fixed _ _ _ _ _ _ ‹_›).trans ?_
    | refine (State.newItem_fixed _ _ _ _ _ _ _ ‹_›).trans ?_
    | intro _
    | with_reducible refine State.each_fixed_trans ?_ ?_
    | (split; skip)
    | (simp; skip)

@[simp] theorem State.modEntry_fixed (x0 : State) (x1 : ℕ) (x2 : JournalEntry → JournalEntry) : State.fixed (@State.modEntry x0 x1 x2) = State.fixed x0 := by
  simp [State.modEntry]

@[simp] theorem State.modEntryKeep_fixed (x0 : State) (x1 : ℕ) (x2 : JournalEntry → JournalEntry) : State.fixed (@State.modEntryKeep x0 x1 x2) = State.fixed x0 := by
  simp [State.modEntryKeep]

@[simp] theorem State.noteEntry_fixed (x0 : State) (x1 : ℕ) (x2 : U32) (x3 : U48) : State.fixed (@State.noteEntry x0 x1 x2 x3) = State.fixed x0 := by
  unfold State.noteEntry
  (repeat' first
    | with_reducible rfl
    | (extract_lets +onlyGivenNames s1
       have hs : State.fixed s1 = State.fixed x0 := by
         first | (simp [s1, *]; done) | (unfold s1; (repeat' first | with_reducible rfl | intro _ | with_reducible refine State.each_fixed_trans ?_ ?_ | split | (simp [*]; done)); done)
       clear_value s1)
    | (extract_lets +onlyGivenNames s1; clear_value s1)
    | intro _ | with_reducible refine State.each_fixed_trans ?_ ?_ | split | (simp [*]; done) | refine (pair_fixed ‹_› rfl).trans ?_
    | refine (State.newEntry_fixed _ _ _ _ ‹_›).trans ?_)

@[simp] theorem State.addUnits_fixed (x0 : State) (x1 : ℕ) (x2 : ℕ) : State.fixed (@State.addUnits x0 x1 x2) = State.fixed x0 := by
  simp [State.addUnits]

@[simp] theorem State.completeEntry_fixed (x0 : State) (x1 : ℕ) : State.fixed (@State.completeEntry x0 x1) = State.fixed x0 := by
  simp [State.completeEntry]

@[simp] theorem State.completeAll_fixed (x0 : State) (x1 : ℕ) : State.fixed (@State.completeAll x0 x1) = State.fixed x0 := by
  simp [State.completeAll]

@[simp] theorem State.partialEntry_fixed (x0 : State) (x1 : ℕ) (x2 : ℕ) : State.fixed (@State.partialEntry x0 x1 x2) = State.fixed x0 := by
  simp [State.partialEntry]

@[simp] theorem State.notStarted_fixed (x0 : State) (x1 : ℕ) (x2 : Status) (x3 : ℕ) : State.fixed (@State.notStarted x0 x1 x2 x3) = State.fixed x0 := by
  simp [State.notStarted]

@[simp] theorem State.withEntry_fixed {s : State} {i : Option Nat} {f : State → Nat → State} (hf : ∀ s i, (f s i).fixed = s.fixed) : (s.withEntry i f).fixed = s.fixed := by
  unfold State.withEntry
  split
  · exact hf _ _
  · rfl

/-! ## Mailbox -/

@[simp] theorem State.sendOut_fixed (x0 : State) (x1 : Source) (x2 : Bytes) : State.fixed (@State.sendOut x0 x1 x2) = State.fixed x0 := by
  simp [State.sendOut]

@[simp] theorem State.answerUnsequenced_fixed (x0 : State) (x1 : ℕ) (x2 : Frame) (x3 : Reply) : State.fixed (@State.answerUnsequenced x0 x1 x2 x3) = State.fixed x0 := by
  simp [State.answerUnsequenced]

@[simp] theorem State.emitParts_fixed (x0 : State) (x1 : Source) (x2 : Response) (x3 : U32) (x4 : Bool) (x5 : ℕ) (x6 : List Bytes) : State.fixed (@State.emitParts x0 x1 x2 x3 x4 x5 x6) = State.fixed x0 := by
  induction x6 generalizing x0 x5 with
  | nil => rfl
  | cons p ps ih =>
    unfold State.emitParts
    dsimp only
    rw [ih]
    split <;> simp

@[simp] theorem State.respond_fixed (x0 : State) (x1 : ℕ) (x2 : Frame) (x3 : U32) (x4 : Bool) (x5 : Reply) : State.fixed (@State.respond x0 x1 x2 x3 x4 x5) = State.fixed x0 := by
  simp [State.respond]

@[simp] theorem State.resend_fixed (x0 : State) (x1 : Source) (x2 : ReplayEntry) : State.fixed (@State.resend x0 x1 x2) = State.fixed x0 := by
  simp [State.resend]

/-! ## Rings -/

@[simp] theorem State.setPage_fixed (x0 : State) (x1 : ℕ) (x2 : Page) : State.fixed (@State.setPage x0 x1 x2) = State.fixed x0 := by
  simp [State.setPage]

@[simp] theorem State.modPage_fixed (x0 : State) (x1 : ℕ) (x2 : Page → Page) : State.fixed (@State.modPage x0 x1 x2) = State.fixed x0 := by
  simp [State.modPage]

@[simp] theorem State.logDram_fixed (x0 : State) (x1 : DramLogEntry) : State.fixed (@State.logDram x0 x1) = State.fixed x0 := by
  simp [State.logDram]

@[simp] theorem State.retirePage_fixed (x0 : State) (x1 : ℕ) : State.fixed (@State.retirePage x0 x1) = State.fixed x0 := by
  unfold State.retirePage; (repeat' split) <;> simp

@[simp] theorem State.sweepStarted_fixed (x0 : State) (x1 : ℕ) : State.fixed (@State.sweepStarted x0 x1) = State.fixed x0 := by
  simp [State.sweepStarted]

@[simp] theorem State.sweepOver_fixed (x0 : State) (x1 : ℕ) (x2 : U48) (x3 : ℕ) (x4 : ℕ) : State.fixed (@State.sweepOver x0 x1 x2 x3 x4) = State.fixed x0 := by
  unfold State.sweepOver
  (repeat' first
    | with_reducible rfl
    | (extract_lets +onlyGivenNames s1; have hs : State.fixed s1 = State.fixed x0 := by (simp [s1, *]; done)
       clear_value s1)
    | (extract_lets +onlyGivenNames s1; clear_value s1)
    | intro _ | with_reducible refine State.each_fixed_trans ?_ ?_ | split | (simp [*]; done))

@[simp] theorem State.sweepForgone_fixed (x0 : State) (x1 : ℕ) : State.fixed (@State.sweepForgone x0 x1) = State.fixed x0 := by
  unfold State.sweepForgone; (repeat' split) <;> simp

@[simp] theorem State.sweepPage_fixed (x0 : State) (x1 : ℕ) (x2 : Option (Fin 256)) : State.fixed (@State.sweepPage x0 x1 x2) = State.fixed x0 := by
  unfold State.sweepPage
  (repeat' first
    | with_reducible rfl
    | (extract_lets +onlyGivenNames s1
       have hs : State.fixed s1 = State.fixed x0 := by
         first | (simp [s1, *]; done) | (unfold s1; (repeat' first | with_reducible rfl | intro _ | with_reducible refine State.each_fixed_trans ?_ ?_ | split | (simp [*]; done)); done)
       clear_value s1)
    | (extract_lets +onlyGivenNames s1; clear_value s1)
    | intro _ | with_reducible refine State.each_fixed_trans ?_ ?_ | split | (simp [*]; done) | refine (pair_fixed ‹_› rfl).trans ?_
    | refine (State.newEntry_fixed _ _ _ _ ‹_›).trans ?_)

@[simp] theorem State.pageSwept_fixed (x0 : State) (x1 : ℕ) : State.fixed (@State.pageSwept x0 x1) = State.fixed x0 := by
  unfold State.pageSwept
  (repeat' first
    | with_reducible rfl
    | (extract_lets +onlyGivenNames s1; have hs : State.fixed s1 = State.fixed x0 := by (simp [s1, *]; done)
       clear_value s1)
    | (extract_lets +onlyGivenNames s1; clear_value s1)
    | intro _ | with_reducible refine State.each_fixed_trans ?_ ?_ | split | (simp [*]; done))

@[simp] theorem State.returnPages_fixed (x0 : State) (x1 : List ℕ) : State.fixed (@State.returnPages x0 x1) = State.fixed x0 := by
  unfold State.returnPages
  (repeat' first | with_reducible rfl | intro _ | with_reducible refine State.each_fixed_trans ?_ ?_ | split | (simp; done))

theorem State.takePages_fixed (x0 : State) (x1 : ℕ) (x2 : ℕ) (x3 : ℕ) : ∀ a u, @State.takePages x0 x1 x2 x3 = some (a, u) → State.fixed u = State.fixed x0 := by
  unfold State.takePages
  intros
  rename_i h
  try simp only [bind, pure, Except.pure, Option.map_eq_some_iff] at h
  repeat' first
    | exact answer_fixed _ _ _ _ h
    | (replace h := Except.bind_ok h; rcases h with ⟨_, h0, h⟩)
    | (rcases h with ⟨_, h0, h⟩)
    | (extract_lets +onlyGivenNames s1 at h
       have hs : State.fixed s1 = State.fixed x0 := by
         first
           | (simp [s1, *]; done)
           | (unfold s1; (repeat' first | with_reducible rfl | intro _ | with_reducible refine State.each_fixed_trans ?_ ?_ | split | (simp [*]; done)); done)
       clear_value s1)
    | (extract_lets +onlyGivenNames s1 at h; clear_value s1)
    | (split at h; skip)
    | (injection h; done)
    | (injection h with h h1; subst h1)
    | (injection h with h; subst h)
    | (injection h with h)
  all_goals repeat' first
    | with_reducible rfl
    | (simp [*]; done)
    | assumption
    | refine (pair_fixed ‹_› rfl).trans ?_
    | refine (triple_fixed ‹_› rfl).trans ?_
    | refine (State.newEntry_fixed _ _ _ _ ‹_›).trans ?_
    | refine (State.beginRecord_fixed _ _ _ _ _ ‹_›).trans ?_
    | refine (State.takeRecordId_fixed _ _ _ ‹_›).trans ?_
    | refine (State.takePages_fixed _ _ _ _ _ _ ‹_›).trans ?_
    | refine (State.sizeRing_fixed _ _ _ _ _ _ ‹_›).trans ?_
    | refine (State.startWork_fixed _ _ _ _ _ _ ‹_›).trans ?_
    | refine (State.doneAtOnce_fixed _ _ _ _ _ _ ‹_›).trans ?_
    | refine (State.newItem_fixed _ _ _ _ _ _ _ ‹_›).trans ?_
    | intro _
    | with_reducible refine State.each_fixed_trans ?_ ?_
    | (split; skip)
    | (simp; skip)

@[simp] theorem State.freeRingPage_fixed (x0 : State) (x1 : ℕ) : State.fixed (@State.freeRingPage x0 x1) = State.fixed x0 := by
  unfold State.freeRingPage
  (repeat' first
    | with_reducible rfl
    | (extract_lets +onlyGivenNames s1; have hs : State.fixed s1 = State.fixed x0 := by (simp [s1, *]; done)
       clear_value s1)
    | (extract_lets +onlyGivenNames s1; clear_value s1)
    | intro _ | with_reducible refine State.each_fixed_trans ?_ ?_ | split | (simp [*]; done))

@[simp] theorem State.modRing_fixed (x0 : State) (x1 : RingId) (x2 : Ring → Ring) : State.fixed (@State.modRing x0 x1 x2) = State.fixed x0 := by
  unfold State.modRing; (repeat' split) <;> simp

@[simp] theorem State.pushItem_fixed (x0 : State) (x1 : RingId) (x2 : Item) : State.fixed (@State.pushItem x0 x1 x2).2 = State.fixed x0 := by
  unfold State.pushItem
  (repeat' first
    | with_reducible rfl
    | (extract_lets +onlyGivenNames s1; have hs : State.fixed s1 = State.fixed x0 := by (simp [s1, *]; done)
       clear_value s1)
    | (extract_lets +onlyGivenNames s1; clear_value s1)
    | intro _ | with_reducible refine State.each_fixed_trans ?_ ?_ | split | (simp [*]; done))

theorem State.sizeRing_fixed (x0 : State) (x1 : RingId) (x2 : ℕ) (x3 : ℕ) (x4 : ℕ) : ∀ u, @State.sizeRing x0 x1 x2 x3 x4 = some u → State.fixed u = State.fixed x0 := by
  unfold State.sizeRing
  intros
  rename_i h
  try simp only [bind, pure, Except.pure, Option.map_eq_some_iff] at h
  repeat' first
    | exact answer_fixed _ _ _ _ h
    | (replace h := Except.bind_ok h; rcases h with ⟨_, h0, h⟩)
    | (rcases h with ⟨_, h0, h⟩)
    | (extract_lets +onlyGivenNames s1 at h
       have hs : State.fixed s1 = State.fixed x0 := by
         first
           | (simp [s1, *]; done)
           | (unfold s1; (repeat' first | with_reducible rfl | intro _ | with_reducible refine State.each_fixed_trans ?_ ?_ | split | (simp [*]; done)); done)
       clear_value s1)
    | (extract_lets +onlyGivenNames s1 at h; clear_value s1)
    | (split at h; skip)
    | (injection h; done)
    | (injection h with h h1; subst h1)
    | (injection h with h; subst h)
    | (injection h with h)
  all_goals repeat' first
    | with_reducible rfl
    | (simp [*]; done)
    | assumption
    | refine (pair_fixed ‹_› rfl).trans ?_
    | refine (triple_fixed ‹_› rfl).trans ?_
    | refine (State.newEntry_fixed _ _ _ _ ‹_›).trans ?_
    | refine (State.beginRecord_fixed _ _ _ _ _ ‹_›).trans ?_
    | refine (State.takeRecordId_fixed _ _ _ ‹_›).trans ?_
    | refine (State.takePages_fixed _ _ _ _ _ _ ‹_›).trans ?_
    | refine (State.sizeRing_fixed _ _ _ _ _ _ ‹_›).trans ?_
    | refine (State.startWork_fixed _ _ _ _ _ _ ‹_›).trans ?_
    | refine (State.doneAtOnce_fixed _ _ _ _ _ _ ‹_›).trans ?_
    | refine (State.newItem_fixed _ _ _ _ _ _ _ ‹_›).trans ?_
    | intro _
    | with_reducible refine State.each_fixed_trans ?_ ?_
    | (split; skip)
    | (simp; skip)

@[simp] theorem State.dropRing_fixed (x0 : State) (x1 : RingId) : State.fixed (@State.dropRing x0 x1) = State.fixed x0 := by
  unfold State.dropRing
  (repeat' first
    | with_reducible rfl
    | (extract_lets +onlyGivenNames s1
       have hs : State.fixed s1 = State.fixed x0 := by
         first | (simp [s1, *]; done) | (unfold s1; (repeat' first | with_reducible rfl | intro _ | with_reducible refine State.each_fixed_trans ?_ ?_ | split | (simp [*]; done)); done)
       clear_value s1)
    | (extract_lets +onlyGivenNames s1; clear_value s1)
    | intro _ | with_reducible refine State.each_fixed_trans ?_ ?_ | split | (simp [*]; done) | refine (pair_fixed ‹_› rfl).trans ?_
    | refine (State.newEntry_fixed _ _ _ _ ‹_›).trans ?_)

/-! ## Streams -/

@[simp] theorem State.queueData_fixed (x0 : State) (x1 : ℕ) (x2 : ℕ) (x3 : TxFrame) : State.fixed (@State.queueData x0 x1 x2 x3) = State.fixed x0 := by
  simp [State.queueData]

@[simp] theorem State.queueControl_fixed (x0 : State) (x1 : ℕ) (x2 : TxFrame) : State.fixed (@State.queueControl x0 x1 x2) = State.fixed x0 := by
  simp [State.queueControl]

@[simp] theorem State.askAddress_fixed (x0 : State) (x1 : ℕ) (x2 : Bool) (x3 : BitVec 128) : State.fixed (@State.askAddress x0 x1 x2 x3) = State.fixed x0 := by
  unfold State.askAddress; (repeat' split) <;> simp

@[simp] theorem State.seek_fixed (x0 : State) (x1 : ℕ) (x2 : Bool) (x3 : BitVec 128) : State.fixed (@State.seek x0 x1 x2 x3) = State.fixed x0 := by
  unfold State.seek
  (repeat' first
    | with_reducible rfl
    | (extract_lets +onlyGivenNames s1; have hs : State.fixed s1 = State.fixed x0 := by (simp [s1, *]; done)
       clear_value s1)
    | (extract_lets +onlyGivenNames s1; clear_value s1)
    | intro _ | with_reducible refine State.each_fixed_trans ?_ ?_ | split | (simp [*]; done))

@[simp] theorem State.sendStream_fixed (x0 : State) (x1 : ℕ) (x2 : StreamCfg) (x3 : ℕ) (x4 : Bytes) : State.fixed (@State.sendStream x0 x1 x2 x3 x4) = State.fixed x0 := by
  simp [State.sendStream]

@[simp] theorem State.reviseStop_fixed (x0 : State) (x1 : ℕ) (x2 : StreamCfg) (x3 : ℕ) : State.fixed (@State.reviseStop x0 x1 x2 x3) = State.fixed x0 := by
  unfold State.reviseStop
  (repeat' first
    | with_reducible rfl
    | (extract_lets +onlyGivenNames s1; have hs : State.fixed s1 = State.fixed x0 := by (simp [s1, *]; done)
       clear_value s1)
    | (extract_lets +onlyGivenNames s1; clear_value s1)
    | intro _ | with_reducible refine State.each_fixed_trans ?_ ?_ | split | (simp [*]; done))

@[simp] theorem State.stopStream_fixed (x0 : State) (x1 : ℕ) (x2 : ℕ) : State.fixed (@State.stopStream x0 x1 x2) = State.fixed x0 := by
  unfold State.stopStream
  (repeat' first
    | with_reducible rfl
    | (extract_lets +onlyGivenNames s1; have hs : State.fixed s1 = State.fixed x0 := by (simp [s1, *]; done)
       clear_value s1)
    | (extract_lets +onlyGivenNames s1; clear_value s1)
    | intro _ | with_reducible refine State.each_fixed_trans ?_ ?_ | split | (simp [*]; done))

@[simp] theorem State.stopStreamsOn_fixed (x0 : State) (x1 : RingId) (x2 : ℕ) : State.fixed (@State.stopStreamsOn x0 x1 x2) = State.fixed x0 := by
  unfold State.stopStreamsOn
  (repeat' first | with_reducible rfl | intro _ | with_reducible refine State.each_fixed_trans ?_ ?_ | split | (simp; done))

@[simp] theorem State.applyQuench_fixed (x0 : State) : State.fixed (@State.applyQuench x0) = State.fixed x0 := by
  unfold State.applyQuench
  (repeat' first
    | with_reducible rfl
    | (extract_lets +onlyGivenNames s1
       have hs : State.fixed s1 = State.fixed x0 := by
         first | (simp [s1, *]; done) | (unfold s1; (repeat' first | with_reducible rfl | intro _ | with_reducible refine State.each_fixed_trans ?_ ?_ | split | (simp [*]; done)); done)
       clear_value s1)
    | (extract_lets +onlyGivenNames s1; clear_value s1)
    | intro _ | with_reducible refine State.each_fixed_trans ?_ ?_ | split | (simp [*]; done) | refine (pair_fixed ‹_› rfl).trans ?_
    | refine (State.newEntry_fixed _ _ _ _ ‹_›).trans ?_)

@[simp] theorem State.quenchAssert_fixed (x0 : State) : State.fixed (@State.quenchAssert x0) = State.fixed x0 := by
  simp [State.quenchAssert]

@[simp] theorem State.sendFragment_fixed (x0 : State) (x1 : ℕ) (x2 : StreamCfg) (x3 : Item) : State.fixed (@State.sendFragment x0 x1 x2 x3) = State.fixed x0 := by
  unfold State.sendFragment
  (repeat' first
    | with_reducible rfl
    | (extract_lets +onlyGivenNames s1; have hs : State.fixed s1 = State.fixed x0 := by (simp [s1, *]; done)
       clear_value s1)
    | (extract_lets +onlyGivenNames s1; clear_value s1)
    | intro _ | with_reducible refine State.each_fixed_trans ?_ ?_ | split | (simp [*]; done))

@[simp] theorem State.advanceVdif_fixed (x0 : State) (x1 : ℕ) (x2 : RingId) (x3 : List (ℕ × Record)) (x4 : ℕ) (x5 : ℕ) : State.fixed (@State.advanceVdif x0 x1 x2 x3 x4 x5) = State.fixed x0 := by
  induction x3 generalizing x0 x4 x5 with
  | nil => rfl
  | cons e l ih =>
    unfold State.advanceVdif
    dsimp only
    split
    · simp
    · rw [ih]; simp

@[simp] theorem State.sendVdif_fixed (x0 : State) (x1 : ℕ) (x2 : StreamCfg) : State.fixed (@State.sendVdif x0 x1 x2) = State.fixed x0 := by
  unfold State.sendVdif
  (repeat' first
    | with_reducible rfl
    | (extract_lets +onlyGivenNames s1; have hs : State.fixed s1 = State.fixed x0 := by (simp [s1, *]; done)
       clear_value s1)
    | (extract_lets +onlyGivenNames s1; clear_value s1)
    | intro _ | with_reducible refine State.each_fixed_trans ?_ ?_ | split | (simp [*]; done))

/-! ## Capture -/

theorem State.takeRecordId_fixed (x0 : State) : ∀ a u, @State.takeRecordId x0 = some (a, u) → State.fixed u = State.fixed x0 := by
  unfold State.takeRecordId
  intros
  rename_i h
  try simp only [bind, pure, Except.pure, Option.map_eq_some_iff] at h
  repeat' first
    | exact answer_fixed _ _ _ _ h
    | (replace h := Except.bind_ok h; rcases h with ⟨_, h0, h⟩)
    | (rcases h with ⟨_, h0, h⟩)
    | (extract_lets +onlyGivenNames s1 at h
       have hs : State.fixed s1 = State.fixed x0 := by
         first
           | (simp [s1, *]; done)
           | (unfold s1; (repeat' first | with_reducible rfl | intro _ | with_reducible refine State.each_fixed_trans ?_ ?_ | split | (simp [*]; done)); done)
       clear_value s1)
    | (extract_lets +onlyGivenNames s1 at h; clear_value s1)
    | (split at h; skip)
    | (injection h; done)
    | (injection h with h h1; subst h1)
    | (injection h with h; subst h)
    | (injection h with h)
  all_goals repeat' first
    | with_reducible rfl
    | (simp [*]; done)
    | assumption
    | refine (pair_fixed ‹_› rfl).trans ?_
    | refine (triple_fixed ‹_› rfl).trans ?_
    | refine (State.newEntry_fixed _ _ _ _ ‹_›).trans ?_
    | refine (State.beginRecord_fixed _ _ _ _ _ ‹_›).trans ?_
    | refine (State.takeRecordId_fixed _ _ _ ‹_›).trans ?_
    | refine (State.takePages_fixed _ _ _ _ _ _ ‹_›).trans ?_
    | refine (State.sizeRing_fixed _ _ _ _ _ _ ‹_›).trans ?_
    | refine (State.startWork_fixed _ _ _ _ _ _ ‹_›).trans ?_
    | refine (State.doneAtOnce_fixed _ _ _ _ _ _ ‹_›).trans ?_
    | refine (State.newItem_fixed _ _ _ _ _ _ _ ‹_›).trans ?_
    | intro _
    | with_reducible refine State.each_fixed_trans ?_ ?_
    | (split; skip)
    | (simp; skip)

theorem State.beginRecord_fixed (x0 : State) (x1 : ℕ) (x2 : Channel) (x3 : Descriptor) : ∀ a u, @State.beginRecord x0 x1 x2 x3 = some (a, u) → State.fixed u = State.fixed x0 := by
  unfold State.beginRecord
  intros
  rename_i h
  try simp only [bind, pure, Except.pure, Option.map_eq_some_iff] at h
  repeat' first
    | exact answer_fixed _ _ _ _ h
    | (replace h := Except.bind_ok h; rcases h with ⟨_, h0, h⟩)
    | (rcases h with ⟨_, h0, h⟩)
    | (extract_lets +onlyGivenNames s1 at h
       have hs : State.fixed s1 = State.fixed x0 := by
         first
           | (simp [s1, *]; done)
           | (unfold s1; (repeat' first | with_reducible rfl | intro _ | with_reducible refine State.each_fixed_trans ?_ ?_ | split | (simp [*]; done)); done)
       clear_value s1)
    | (extract_lets +onlyGivenNames s1 at h; clear_value s1)
    | (split at h; skip)
    | (injection h; done)
    | (injection h with h h1; subst h1)
    | (injection h with h; subst h)
    | (injection h with h)
  all_goals repeat' first
    | with_reducible rfl
    | (simp [*]; done)
    | assumption
    | refine (pair_fixed ‹_› rfl).trans ?_
    | refine (triple_fixed ‹_› rfl).trans ?_
    | refine (State.newEntry_fixed _ _ _ _ ‹_›).trans ?_
    | refine (State.beginRecord_fixed _ _ _ _ _ ‹_›).trans ?_
    | refine (State.takeRecordId_fixed _ _ _ ‹_›).trans ?_
    | refine (State.takePages_fixed _ _ _ _ _ _ ‹_›).trans ?_
    | refine (State.sizeRing_fixed _ _ _ _ _ _ ‹_›).trans ?_
    | refine (State.startWork_fixed _ _ _ _ _ _ ‹_›).trans ?_
    | refine (State.doneAtOnce_fixed _ _ _ _ _ _ ‹_›).trans ?_
    | refine (State.newItem_fixed _ _ _ _ _ _ _ ‹_›).trans ?_
    | intro _
    | with_reducible refine State.each_fixed_trans ?_ ?_
    | (split; skip)
    | (simp; skip)

@[simp] theorem State.drainOne_fixed (x0 : State) (x1 : ℕ) : State.fixed (@State.drainOne x0 x1) = State.fixed x0 := by
  unfold State.drainOne
  (repeat' first
    | with_reducible rfl
    | (extract_lets +onlyGivenNames s1; have hs : State.fixed s1 = State.fixed x0 := by (simp [s1, *]; done)
       clear_value s1)
    | (extract_lets +onlyGivenNames s1; clear_value s1)
    | intro _ | with_reducible refine State.each_fixed_trans ?_ ?_ | split | (simp [*]; done))

@[simp] theorem State.drainAll_fixed (x0 : State) (x1 : ℕ) (x2 : ℕ) : State.fixed (@State.drainAll x0 x1 x2) = State.fixed x0 := by
  induction x2 generalizing x0 with
  | zero => rfl
  | succ n ih =>
    unfold State.drainAll
    dsimp only
    split
    · rw [ih]; simp
    · simp

@[simp] theorem State.writeRecord_fixed (x0 : State) (x1 : ℕ) (x2 : Record) : State.fixed (@State.writeRecord x0 x1 x2) = State.fixed x0 := by
  simp [State.writeRecord]

@[simp] theorem State.markRecordWith_fixed (x0 : State) (x1 : ℕ) (x2 : U48) (x3 : Mark) : State.fixed (@State.markRecordWith x0 x1 x2 x3) = State.fixed x0 := by
  simp [State.markRecordWith]

@[simp] theorem State.stopOverflow_fixed (x0 : State) (x1 : ℕ) (x2 : ℕ) (x3 : ℕ) (x4 : Vt96) : State.fixed (@State.stopOverflow x0 x1 x2 x3 x4) = State.fixed x0 := by
  simp [State.stopOverflow]

@[simp] theorem State.overflowSegments_fixed (x0 : State) (x1 : ℕ) (x2 : ℕ) : State.fixed (@State.overflowSegments x0 x1 x2) = State.fixed x0 := by
  unfold State.overflowSegments
  (repeat' first
    | with_reducible rfl
    | (extract_lets +onlyGivenNames s1
       have hs : State.fixed s1 = State.fixed x0 := by
         first | (simp [s1, *]; done) | (unfold s1; (repeat' first | with_reducible rfl | intro _ | with_reducible refine State.each_fixed_trans ?_ ?_ | split | (simp [*]; done)); done)
       clear_value s1)
    | (extract_lets +onlyGivenNames s1; clear_value s1)
    | intro _ | with_reducible refine State.each_fixed_trans ?_ ?_ | split | (simp [*]; done) | refine (pair_fixed ‹_› rfl).trans ?_
    | refine (State.newEntry_fixed _ _ _ _ ‹_›).trans ?_)

@[simp] theorem State.openStream_fixed (x0 : State) (x1 : ℕ) (x2 : ℕ) (x3 : ℕ) : State.fixed (@State.openStream x0 x1 x2 x3) = State.fixed x0 := by
  unfold State.openStream
  split
  · rename_i h
    exact (State.modChan_fixed _ _ _).trans (State.beginRecord_fixed _ _ _ _ _ _ h)
  · simp

@[simp] theorem State.endStream_fixed (x0 : State) (x1 : ℕ) (x2 : ℕ) (x3 : ℕ) : State.fixed (@State.endStream x0 x1 x2 x3) = State.fixed x0 := by
  unfold State.endStream; (repeat' split) <;> simp

@[simp] theorem State.closeAccum_fixed (x0 : State) (x1 : ℕ) (x2 : ℕ) (x3 : ℕ) : State.fixed (@State.closeAccum x0 x1 x2 x3) = State.fixed x0 := by
  unfold State.closeAccum; (repeat' split) <;> simp

@[simp] theorem State.endRecordsAt_fixed (x0 : State) (x1 : ℕ) (x2 : ℕ) (x3 : Vt96) : State.fixed (@State.endRecordsAt x0 x1 x2 x3) = State.fixed x0 := by
  simp [State.endRecordsAt]

@[simp] theorem State.endRecords_fixed (x0 : State) (x1 : ℕ) (x2 : ℕ) : State.fixed (@State.endRecords x0 x1 x2) = State.fixed x0 := by
  simp [State.endRecords]

@[simp] theorem State.beginRecords_fixed (x0 : State) (x1 : ℕ) (x2 : Vt96) : State.fixed (@State.beginRecords x0 x1 x2) = State.fixed x0 := by
  unfold State.beginRecords
  (repeat' first
    | with_reducible rfl
    | (extract_lets +onlyGivenNames s1; have hs : State.fixed s1 = State.fixed x0 := by (simp [s1, *]; done)
       clear_value s1)
    | (extract_lets +onlyGivenNames s1; clear_value s1)
    | intro _ | with_reducible refine State.each_fixed_trans ?_ ?_ | split | (simp [*]; done))

@[simp] theorem State.closeMark_fixed (x0 : State) (x1 : ℕ) : State.fixed (@State.closeMark x0 x1) = State.fixed x0 := by
  unfold State.closeMark
  (repeat' first
    | with_reducible rfl
    | (extract_lets +onlyGivenNames s1; have hs : State.fixed s1 = State.fixed x0 := by (simp [s1, *]; done)
       clear_value s1)
    | (extract_lets +onlyGivenNames s1; clear_value s1)
    | intro _ | with_reducible refine State.each_fixed_trans ?_ ?_ | split | (simp [*]; done))

@[simp] theorem State.armChannel_fixed (x0 : State) (x1 : ℕ) : State.fixed (@State.armChannel x0 x1) = State.fixed x0 := by
  unfold State.armChannel; (repeat' split) <;> simp

@[simp] theorem State.disarmChannel_fixed (x0 : State) (x1 : ℕ) : State.fixed (@State.disarmChannel x0 x1) = State.fixed x0 := by
  simp [State.disarmChannel]

@[simp] theorem State.missTrigger_fixed (x0 : State) (x1 : ℕ) : State.fixed (@State.missTrigger x0 x1) = State.fixed x0 := by
  simp [State.missTrigger]

@[simp] theorem State.startSegment_fixed (x0 : State) (x1 : ℕ) (x2 : Channel) (x3 : Descriptor) (x4 : ℕ) (x5 : ℕ) : State.fixed (@State.startSegment x0 x1 x2 x3 x4 x5) = State.fixed x0 := by
  unfold State.startSegment
  extract_lets first stop
  split
  · simp
  · split
    · simp
    · split
      · simp
      · split
        · simp
        · rename_i h
          exact (State.modChan_fixed _ _ _).trans (State.beginRecord_fixed _ _ _ _ _ _ h)

@[simp] theorem State.startAccum_fixed (x0 : State) (x1 : ℕ) (x2 : Channel) (x3 : Descriptor) (x4 : ℕ) (x5 : ℕ) : State.fixed (@State.startAccum x0 x1 x2 x3 x4 x5) = State.fixed x0 := by
  unfold State.startAccum
  extract_lets first last wait opened s1
  have hs : s1.fixed = x0.fixed := by simp [s1]
  have ho : ∀ t, opened = some t → t.fixed = x0.fixed := by
    intro t ht
    simp only [opened] at ht
    split at ht
    · injection ht with ht; rw [ht]
    · rw [Option.map_eq_some_iff] at ht
      obtain ⟨⟨r, t⟩, h1, h2⟩ := ht
      subst h2
      exact (State.modChan_fixed _ _ _).trans (State.beginRecord_fixed _ _ _ _ _ _ h1)
  clear_value opened s1
  split
  · simp
  · split
    · simp
    · split
      · simp
      · split
        · simp [hs]
        · simp [ho _ rfl]

@[simp] theorem State.startPost_fixed (x0 : State) (x1 : ℕ) (x2 : Channel) (x3 : Descriptor) : State.fixed (@State.startPost x0 x1 x2 x3) = State.fixed x0 := by
  unfold State.startPost
  (repeat' first
    | with_reducible rfl
    | (extract_lets +onlyGivenNames s1; have hs : State.fixed s1 = State.fixed x0 := by (simp [s1, *]; done)
       clear_value s1)
    | (extract_lets +onlyGivenNames s1; clear_value s1)
    | intro _ | with_reducible refine State.each_fixed_trans ?_ ?_ | split | (simp [*]; done))

@[simp] theorem State.countCoincident_fixed (x0 : State) (x1 : ℕ) (x2 : ℕ) : State.fixed (@State.countCoincident x0 x1 x2) = State.fixed x0 := by
  simp [State.countCoincident]

@[simp] theorem State.modActed_fixed (x0 : State) (x1 : ℕ) (x2 : Descriptor → Descriptor) : State.fixed (@State.modActed x0 x1 x2) = State.fixed x0 := by
  simp [State.modActed]

@[simp] theorem State.captureTrigger_fixed (x0 : State) (x1 : ℕ) (x2 : ℕ) (x3 : Descriptor) : State.fixed (@State.captureTrigger x0 x1 x2 x3) = State.fixed x0 := by
  unfold State.captureTrigger
  (repeat' first
    | with_reducible rfl
    | (extract_lets +onlyGivenNames s1
       have hs : State.fixed s1 = State.fixed x0 := by
         first | (simp [s1, *]; done) | (unfold s1; (repeat' first | with_reducible rfl | intro _ | with_reducible refine State.each_fixed_trans ?_ ?_ | split | (simp [*]; done)); done)
       clear_value s1)
    | (extract_lets +onlyGivenNames s1; clear_value s1)
    | intro _ | with_reducible refine State.each_fixed_trans ?_ ?_ | split | (simp [*]; done) | refine (pair_fixed ‹_› rfl).trans ?_
    | refine (State.newEntry_fixed _ _ _ _ ‹_›).trans ?_)

@[simp] theorem State.syncTrigger_fixed (x0 : State) (x1 : ℕ) (x2 : ℕ) (x3 : Descriptor) : State.fixed (@State.syncTrigger x0 x1 x2 x3) = State.fixed x0 := by
  unfold State.syncTrigger
  (repeat' first
    | with_reducible rfl
    | (extract_lets +onlyGivenNames s1; have hs : State.fixed s1 = State.fixed x0 := by (simp [s1, *]; done)
       clear_value s1)
    | (extract_lets +onlyGivenNames s1; clear_value s1)
    | intro _ | with_reducible refine State.each_fixed_trans ?_ ?_ | split | (simp [*]; done))

theorem State.finishEnded_fixed (x0 : State) (x1 : ℕ) (x2 : SampleData) : ∀ u, @State.finishEnded x0 x1 x2 = some u → State.fixed u = State.fixed x0 := by
  unfold State.finishEnded
  intros
  rename_i h
  try simp only [bind, pure, Except.pure, Option.map_eq_some_iff] at h
  repeat' first
    | exact answer_fixed _ _ _ _ h
    | (replace h := Except.bind_ok h; rcases h with ⟨_, h0, h⟩)
    | (rcases h with ⟨_, h0, h⟩)
    | (extract_lets +onlyGivenNames s1 at h
       have hs : State.fixed s1 = State.fixed x0 := by
         first
           | (simp [s1, *]; done)
           | (unfold s1; (repeat' first | with_reducible rfl | intro _ | with_reducible refine State.each_fixed_trans ?_ ?_ | split | (simp [*]; done)); done)
       clear_value s1)
    | (extract_lets +onlyGivenNames s1 at h; clear_value s1)
    | (split at h; skip)
    | (injection h; done)
    | (injection h with h h1; subst h1)
    | (injection h with h; subst h)
    | (injection h with h)
  all_goals repeat' first
    | with_reducible rfl
    | (simp [*]; done)
    | assumption
    | refine (pair_fixed ‹_› rfl).trans ?_
    | refine (triple_fixed ‹_› rfl).trans ?_
    | refine (State.newEntry_fixed _ _ _ _ ‹_›).trans ?_
    | refine (State.beginRecord_fixed _ _ _ _ _ ‹_›).trans ?_
    | refine (State.takeRecordId_fixed _ _ _ ‹_›).trans ?_
    | refine (State.takePages_fixed _ _ _ _ _ _ ‹_›).trans ?_
    | refine (State.sizeRing_fixed _ _ _ _ _ _ ‹_›).trans ?_
    | refine (State.startWork_fixed _ _ _ _ _ _ ‹_›).trans ?_
    | refine (State.doneAtOnce_fixed _ _ _ _ _ _ ‹_›).trans ?_
    | refine (State.newItem_fixed _ _ _ _ _ _ _ ‹_›).trans ?_
    | intro _
    | with_reducible refine State.each_fixed_trans ?_ ?_
    | (split; skip)
    | (simp; skip)

@[simp] theorem effectSegmentEnd_fixed (x0 : Fin 128) (x1 : SampleData) (x2 : State) : State.fixed (@effectSegmentEnd x0 x1 x2) = State.fixed x2 := by
  unfold effectSegmentEnd
  repeat' first
    | with_reducible rfl
    | (extract_lets +onlyGivenNames s1
       have hs : State.fixed s1 = State.fixed x2 := by
         first
           | (simp [s1, *]; done)
           | (unfold s1; (repeat' first | with_reducible rfl | intro _ | with_reducible refine State.each_fixed_trans ?_ ?_ | split | (simp [*]; done)); done)
       clear_value s1)
    | (extract_lets +onlyGivenNames s1; clear_value s1)
    | intro _
    | with_reducible refine State.each_fixed_trans ?_ ?_
    | (split; skip)
    | (simp [*]; done)
    | assumption
    | refine (pair_fixed ‹_› rfl).trans ?_
    | refine (triple_fixed ‹_› rfl).trans ?_
    | refine (State.newEntry_fixed _ _ _ _ ‹_›).trans ?_
    | refine (State.beginRecord_fixed _ _ _ _ _ ‹_›).trans ?_
    | refine (State.finishEnded_fixed _ _ _ _ ‹_›).trans ?_
    | refine (State.takeRecordId_fixed _ _ _ ‹_›).trans ?_
    | refine (State.takePages_fixed _ _ _ _ _ _ ‹_›).trans ?_
    | refine (State.sizeRing_fixed _ _ _ _ _ _ ‹_›).trans ?_
    | refine (State.startWork_fixed _ _ _ _ _ _ ‹_›).trans ?_
    | refine (State.applySteward_fixed _ _ _ _ ‹_›).trans ?_
    | refine (State.applyStage_fixed _ _ _ _ ‹_›).trans ?_
    | (simp; skip)

@[simp] theorem effectSegmentDrained_fixed (x0 : Fin 128) (x1 : State) : State.fixed (@effectSegmentDrained x0 x1) = State.fixed x1 := by
  simp [effectSegmentDrained]

@[simp] theorem effectCircularDone_fixed (x0 : Fin 128) (x1 : SampleData) (x2 : State) : State.fixed (@effectCircularDone x0 x1 x2) = State.fixed x2 := by
  unfold effectCircularDone
  repeat' first
    | with_reducible rfl
    | (extract_lets +onlyGivenNames s1
       have hs : State.fixed s1 = State.fixed x2 := by
         first
           | (simp [s1, *]; done)
           | (unfold s1; (repeat' first | with_reducible rfl | intro _ | with_reducible refine State.each_fixed_trans ?_ ?_ | split | (simp [*]; done)); done)
       clear_value s1)
    | (extract_lets +onlyGivenNames s1; clear_value s1)
    | intro _
    | with_reducible refine State.each_fixed_trans ?_ ?_
    | (split; skip)
    | (simp [*]; done)
    | assumption
    | refine (pair_fixed ‹_› rfl).trans ?_
    | refine (triple_fixed ‹_› rfl).trans ?_
    | refine (State.newEntry_fixed _ _ _ _ ‹_›).trans ?_
    | refine (State.beginRecord_fixed _ _ _ _ _ ‹_›).trans ?_
    | refine (State.finishEnded_fixed _ _ _ _ ‹_›).trans ?_
    | refine (State.takeRecordId_fixed _ _ _ ‹_›).trans ?_
    | refine (State.takePages_fixed _ _ _ _ _ _ ‹_›).trans ?_
    | refine (State.sizeRing_fixed _ _ _ _ _ _ ‹_›).trans ?_
    | refine (State.startWork_fixed _ _ _ _ _ _ ‹_›).trans ?_
    | refine (State.applySteward_fixed _ _ _ _ ‹_›).trans ?_
    | refine (State.applyStage_fixed _ _ _ _ ‹_›).trans ?_
    | (simp; skip)

@[simp] theorem effectBlockRecordEnd_fixed (x0 : Fin 128) (x1 : SampleData) (x2 : State) : State.fixed (@effectBlockRecordEnd x0 x1 x2) = State.fixed x2 := by
  unfold effectBlockRecordEnd
  repeat' first
    | with_reducible rfl
    | (extract_lets +onlyGivenNames s1
       have hs : State.fixed s1 = State.fixed x2 := by
         first
           | (simp [s1, *]; done)
           | (unfold s1; (repeat' first | with_reducible rfl | intro _ | with_reducible refine State.each_fixed_trans ?_ ?_ | split | (simp [*]; done)); done)
       clear_value s1)
    | (extract_lets +onlyGivenNames s1; clear_value s1)
    | intro _
    | with_reducible refine State.each_fixed_trans ?_ ?_
    | (split; skip)
    | (simp [*]; done)
    | assumption
    | refine (pair_fixed ‹_› rfl).trans ?_
    | refine (triple_fixed ‹_› rfl).trans ?_
    | refine (State.newEntry_fixed _ _ _ _ ‹_›).trans ?_
    | refine (State.beginRecord_fixed _ _ _ _ _ ‹_›).trans ?_
    | refine (State.finishEnded_fixed _ _ _ _ ‹_›).trans ?_
    | refine (State.takeRecordId_fixed _ _ _ ‹_›).trans ?_
    | refine (State.takePages_fixed _ _ _ _ _ _ ‹_›).trans ?_
    | refine (State.sizeRing_fixed _ _ _ _ _ _ ‹_›).trans ?_
    | refine (State.startWork_fixed _ _ _ _ _ _ ‹_›).trans ?_
    | refine (State.applySteward_fixed _ _ _ _ ‹_›).trans ?_
    | refine (State.applyStage_fixed _ _ _ _ ‹_›).trans ?_
    | (simp; skip)

@[simp] theorem effectEarFifoFull_fixed (x0 : Fin 128) (x1 : SampleData) (x2 : State) : State.fixed (@effectEarFifoFull x0 x1 x2) = State.fixed x2 := by
  unfold effectEarFifoFull
  (repeat' first
    | with_reducible rfl
    | (extract_lets +onlyGivenNames s1; have hs : State.fixed s1 = State.fixed x2 := by (simp [s1, *]; done)
       clear_value s1)
    | (extract_lets +onlyGivenNames s1; clear_value s1)
    | intro _ | with_reducible refine State.each_fixed_trans ?_ ?_ | split | (simp [*]; done))

@[simp] theorem effectAccumRecordAdd_fixed (x0 : Fin 128) (x1 : ℕ) (x2 : List RawSample) (x3 : State) : State.fixed (@effectAccumRecordAdd x0 x1 x2 x3) = State.fixed x3 := by
  unfold effectAccumRecordAdd
  (repeat' first
    | with_reducible rfl
    | (extract_lets +onlyGivenNames s1; have hs : State.fixed s1 = State.fixed x3 := by (simp [s1, *]; done)
       clear_value s1)
    | (extract_lets +onlyGivenNames s1; clear_value s1)
    | intro _ | with_reducible refine State.each_fixed_trans ?_ ?_ | split | (simp [*]; done))

@[simp] theorem effectAccumCopyDone_fixed (x0 : Fin 128) (x1 : State) : State.fixed (@effectAccumCopyDone x0 x1) = State.fixed x1 := by
  unfold effectAccumCopyDone
  (repeat' first
    | with_reducible rfl
    | (extract_lets +onlyGivenNames s1; have hs : State.fixed s1 = State.fixed x1 := by (simp [s1, *]; done)
       clear_value s1)
    | (extract_lets +onlyGivenNames s1; clear_value s1)
    | intro _ | with_reducible refine State.each_fixed_trans ?_ ?_ | split | (simp [*]; done))

/-! ## Links -/

@[simp] theorem State.sendMsg_fixed (x0 : State) (x1 : ℕ) (x2 : RachisMsg) (x3 : optParam (Option ℕ) Option.none) : State.fixed (@State.sendMsg x0 x1 x2 x3) = State.fixed x0 := by
  unfold State.sendMsg
  (repeat' first
    | with_reducible rfl
    | (extract_lets +onlyGivenNames s1; have hs : State.fixed s1 = State.fixed x0 := by (simp [s1, *]; done)
       clear_value s1)
    | (extract_lets +onlyGivenNames s1; clear_value s1)
    | intro _ | with_reducible refine State.each_fixed_trans ?_ ?_ | split | (simp [*]; done))

@[simp] theorem State.sendAll_fixed (x0 : State) (x1 : RachisMsg) (x2 : optParam (Option ℕ) Option.none) : State.fixed (@State.sendAll x0 x1 x2) = State.fixed x0 := by
  unfold State.sendAll
  (repeat' first | with_reducible rfl | intro _ | with_reducible refine State.each_fixed_trans ?_ ?_ | split | (simp; done))

@[simp] theorem State.forward_fixed (x0 : State) (x1 : ℕ) (x2 : RachisMsg) : State.fixed (@State.forward x0 x1 x2) = State.fixed x0 := by
  unfold State.forward
  (repeat' first | with_reducible rfl | intro _ | with_reducible refine State.each_fixed_trans ?_ ?_ | split | (simp; done))

@[simp] theorem State.sendUpstream_fixed (x0 : State) (x1 : RachisMsg) : State.fixed (@State.sendUpstream x0 x1) = State.fixed x0 := by
  unfold State.sendUpstream; (repeat' split) <;> simp

@[simp] theorem State.retagChannel_fixed (x0 : State) (x1 : ℕ) (x2 : Descriptor → Descriptor) : State.fixed (@State.retagChannel x0 x1 x2) = State.fixed x0 := by
  simp [State.retagChannel]

@[simp] theorem State.retag_fixed (x0 : State) (x1 : ℕ) (x2 : ℕ) (x3 : Vt96) (x4 : Descriptor → Descriptor) : State.fixed (@State.retag x0 x1 x2 x3 x4) = State.fixed x0 := by
  unfold State.retag
  extract_lets g own msg tag s1 s2 edges s3
  refine (State.each_fixed _ (fun s p => State.modRport_fixed _ _ _) _ _).trans ?_
  refine (fixed_trigOuts _ _).trans ?_
  refine (State.each_fixed _ (fun s p => State.retagChannel_fixed _ _ _) _ _).trans ?_
  exact (State.each_fixed _ (fun s p => State.modRoute_fixed _ _ _) _ _)

@[simp] theorem State.coarsen_fixed (x0 : State) (x1 : ℕ) (x2 : ℕ) (x3 : Vt96) (x4 : Vt96) : State.fixed (@State.coarsen x0 x1 x2 x3 x4) = State.fixed x0 := by
  simp [State.coarsen]

/-! ## Stamps -/

@[simp] theorem State.haltStamps_fixed (x0 : State) (x1 : ℕ) (x2 : ℕ) : State.fixed (@State.haltStamps x0 x1 x2) = State.fixed x0 := by
  unfold State.haltStamps
  (repeat' first
    | with_reducible rfl
    | (extract_lets +onlyGivenNames s1; have hs : State.fixed s1 = State.fixed x0 := by (simp [s1, *]; done)
       clear_value s1)
    | (extract_lets +onlyGivenNames s1; clear_value s1)
    | intro _ | with_reducible refine State.each_fixed_trans ?_ ?_ | split | (simp [*]; done))

@[simp] theorem State.stampOverflow_fixed (x0 : State) (x1 : ℕ) : State.fixed (@State.stampOverflow x0 x1) = State.fixed x0 := by
  unfold State.stampOverflow
  (repeat' first
    | with_reducible rfl
    | (extract_lets +onlyGivenNames s1
       have hs : State.fixed s1 = State.fixed x0 := by
         first | (simp [s1, *]; done) | (unfold s1; (repeat' first | with_reducible rfl | intro _ | with_reducible refine State.each_fixed_trans ?_ ?_ | split | (simp [*]; done)); done)
       clear_value s1)
    | (extract_lets +onlyGivenNames s1; clear_value s1)
    | intro _ | with_reducible refine State.each_fixed_trans ?_ ?_ | split | (simp [*]; done) | refine (pair_fixed ‹_› rfl).trans ?_
    | refine (State.newEntry_fixed _ _ _ _ ‹_›).trans ?_)

@[simp] theorem State.enterStamp_fixed (x0 : State) (x1 : ℕ) (x2 : U64) : State.fixed (@State.enterStamp x0 x1 x2) = State.fixed x0 := by
  unfold State.enterStamp; (repeat' split) <;> simp

@[simp] theorem State.enterMarker_fixed (x0 : State) (x1 : ℕ) (x2 : U48) : State.fixed (@State.enterMarker x0 x1 x2) = State.fixed x0 := by
  unfold State.enterMarker
  (repeat' first
    | with_reducible rfl
    | (extract_lets +onlyGivenNames s1; have hs : State.fixed s1 = State.fixed x0 := by (simp [s1, *]; done)
       clear_value s1)
    | (extract_lets +onlyGivenNames s1; clear_value s1)
    | intro _ | with_reducible refine State.each_fixed_trans ?_ ?_ | split | (simp [*]; done))

@[simp] theorem State.releaseHeld_fixed (x0 : State) (x1 : ℕ) (x2 : ℕ) : State.fixed (@State.releaseHeld x0 x1 x2) = State.fixed x0 := by
  induction x2 generalizing x0 with
  | zero => rfl
  | succ n ih =>
    unfold State.releaseHeld
    dsimp only
    split
    · split
      · rw [ih]; split <;> split <;> simp
      · rfl
    · rfl

@[simp] theorem State.stampsIn_fixed (x0 : State) (x1 : ℕ) : State.fixed (@State.stampsIn x0 x1) = State.fixed x0 := by
  simp [State.stampsIn]

@[simp] theorem State.stopStamps_fixed (x0 : State) (x1 : ℕ) (x2 : ℕ) : State.fixed (@State.stopStamps x0 x1 x2) = State.fixed x0 := by
  unfold State.stopStamps
  (repeat' first
    | with_reducible rfl
    | (extract_lets +onlyGivenNames s1; have hs : State.fixed s1 = State.fixed x0 := by (simp [s1, *]; done)
       clear_value s1)
    | (extract_lets +onlyGivenNames s1; clear_value s1)
    | intro _ | with_reducible refine State.each_fixed_trans ?_ ?_ | split | (simp [*]; done))

@[simp] theorem State.relabelStream_fixed (x0 : State) (x1 : ℕ) : State.fixed (@State.relabelStream x0 x1) = State.fixed x0 := by
  unfold State.relabelStream
  (repeat' first
    | with_reducible rfl
    | (extract_lets +onlyGivenNames s1
       have hs : State.fixed s1 = State.fixed x0 := by
         first | (simp [s1, *]; done) | (unfold s1; (repeat' first | with_reducible rfl | intro _ | with_reducible refine State.each_fixed_trans ?_ ?_ | split | (simp [*]; done)); done)
       clear_value s1)
    | (extract_lets +onlyGivenNames s1; clear_value s1)
    | intro _ | with_reducible refine State.each_fixed_trans ?_ ?_ | split | (simp [*]; done) | refine (pair_fixed ‹_› rfl).trans ?_
    | refine (State.newEntry_fixed _ _ _ _ ‹_›).trans ?_)

@[simp] theorem State.loseEdge_fixed (x0 : State) (x1 : ℕ) (x2 : Vt96) : State.fixed (@State.loseEdge x0 x1 x2) = State.fixed x0 := by
  simp [State.loseEdge]

@[simp] theorem State.withdraw_fixed (x0 : State) (x1 : Nat) (x2 : Vt96) : (x0.withdraw x1 x2).2.fixed = x0.fixed := by
  unfold State.withdraw
  extract_lets x there
  exact State.modSource_fixed _ _ _

@[simp] theorem State.stampEdge_fixed (x0 : State) (x1 : ℕ) (x2 : Vt96) (x3 : Bool) : State.fixed (@State.stampEdge x0 x1 x2 x3).2.2 = State.fixed x0 := by
  unfold State.stampEdge
  repeat' first
    | with_reducible rfl
    | (extract_lets +onlyGivenNames s1
       have hs : State.fixed s1 = State.fixed x0 := by
         first
           | (simp [s1, *]; done)
           | (unfold s1; (repeat' first | with_reducible rfl | intro _ | with_reducible refine State.each_fixed_trans ?_ ?_ | split | (simp [*]; done)); done)
       clear_value s1)
    | (extract_lets +onlyGivenNames s1; clear_value s1)
    | intro _
    | with_reducible refine State.each_fixed_trans ?_ ?_
    | (split; skip)
    | (simp [*]; done)
    | assumption
    | refine (pair_fixed ‹_› rfl).trans ?_
    | refine (triple_fixed ‹_› rfl).trans ?_
    | refine (State.newEntry_fixed _ _ _ _ ‹_›).trans ?_
    | refine (State.beginRecord_fixed _ _ _ _ _ ‹_›).trans ?_
    | refine (State.finishEnded_fixed _ _ _ _ ‹_›).trans ?_
    | refine (State.takeRecordId_fixed _ _ _ ‹_›).trans ?_
    | refine (State.takePages_fixed _ _ _ _ _ _ ‹_›).trans ?_
    | refine (State.sizeRing_fixed _ _ _ _ _ _ ‹_›).trans ?_
    | refine (State.startWork_fixed _ _ _ _ _ _ ‹_›).trans ?_
    | refine (State.applySteward_fixed _ _ _ _ ‹_›).trans ?_
    | refine (State.applyStage_fixed _ _ _ _ ‹_›).trans ?_
    | (simp; skip)

@[simp] theorem State.coarsenSource_fixed (x0 : State) (x1 : ℕ) (x2 : Vt96) (x3 : ℕ) : State.fixed (@State.coarsenSource x0 x1 x2 x3) = State.fixed x0 := by
  unfold State.coarsenSource; (repeat' split) <;> simp

@[simp] theorem effectAwnConversionDone_fixed (x0 : Fin 132) (x1 : Fin 4) (x2 : Fin 64) (x3 : Fin 100) (x4 : State) : State.fixed (@effectAwnConversionDone x0 x1 x2 x3 x4) = State.fixed x4 := by
  unfold effectAwnConversionDone
  (repeat' first
    | with_reducible rfl
    | (extract_lets +onlyGivenNames s1
       have hs : State.fixed s1 = State.fixed x4 := by
         first | (simp [s1, *]; done) | (unfold s1; (repeat' first | with_reducible rfl | intro _ | with_reducible refine State.each_fixed_trans ?_ ?_ | split | (simp [*]; done)); done)
       clear_value s1)
    | (extract_lets +onlyGivenNames s1; clear_value s1)
    | intro _ | with_reducible refine State.each_fixed_trans ?_ ?_ | split | (simp [*]; done) | refine (pair_fixed ‹_› rfl).trans ?_
    | refine (State.newEntry_fixed _ _ _ _ ‹_›).trans ?_)

@[simp] theorem effectTiEdge_fixed (x0 : Fin 4) (x1 : Bool) (x2 : Vt96) (x3 : State) : State.fixed (@effectTiEdge x0 x1 x2 x3) = State.fixed x3 := by
  unfold effectTiEdge
  (repeat' first
    | with_reducible rfl
    | (extract_lets +onlyGivenNames s1; have hs : State.fixed s1 = State.fixed x3 := by (simp [s1, *]; done)
       clear_value s1)
    | (extract_lets +onlyGivenNames s1; clear_value s1)
    | intro _ | with_reducible refine State.each_fixed_trans ?_ ?_ | split | (simp [*]; done))

@[simp] theorem State.ringEntry_fixed (x0 : State) (x1 : ℕ) (x2 : EntryKind) (x3 : U64) (x4 : Bool) : State.fixed (@State.ringEntry x0 x1 x2 x3 x4) = State.fixed x0 := by
  simp [State.ringEntry]

@[simp] theorem State.drainEntry_fixed (x0 : State) (x1 : ℕ) : State.fixed (@State.drainEntry x0 x1) = State.fixed x0 := by
  unfold State.drainEntry
  (repeat' first
    | with_reducible rfl
    | (extract_lets +onlyGivenNames s1; have hs : State.fixed s1 = State.fixed x0 := by (simp [s1, *]; done)
       clear_value s1)
    | (extract_lets +onlyGivenNames s1; clear_value s1)
    | intro _ | with_reducible refine State.each_fixed_trans ?_ ?_ | split | (simp [*]; done))

@[simp] theorem effectStampQueueDrain_fixed (x0 : Fin 132) (x1 : State) : State.fixed (@effectStampQueueDrain x0 x1) = State.fixed x1 := by
  unfold effectStampQueueDrain
  (repeat' first
    | with_reducible rfl
    | (extract_lets +onlyGivenNames s1; have hs : State.fixed s1 = State.fixed x1 := by (simp [s1, *]; done)
       clear_value s1)
    | (extract_lets +onlyGivenNames s1; clear_value s1)
    | intro _ | with_reducible refine State.each_fixed_trans ?_ ?_ | split | (simp [*]; done))

@[simp] theorem effectCompleteToUpdate_fixed (x0 : Fin 132) (x1 : Vt96) (x2 : State) : State.fixed (@effectCompleteToUpdate x0 x1 x2) = State.fixed x2 := by
  unfold effectCompleteToUpdate
  (repeat' first
    | with_reducible rfl
    | (extract_lets +onlyGivenNames s1; have hs : State.fixed s1 = State.fixed x2 := by (simp [s1, *]; done)
       clear_value s1)
    | (extract_lets +onlyGivenNames s1; clear_value s1)
    | intro _ | with_reducible refine State.each_fixed_trans ?_ ?_ | split | (simp [*]; done))

@[simp] theorem State.armSource_fixed (x0 : State) (x1 : ℕ) : State.fixed (@State.armSource x0 x1) = State.fixed x0 := by
  unfold State.armSource; (repeat' split) <;> simp

@[simp] theorem State.disarmSource_fixed (x0 : State) (x1 : ℕ) : State.fixed (@State.disarmSource x0 x1) = State.fixed x0 := by
  simp [State.disarmSource]

@[simp] theorem State.armCapture_fixed (x0 : State) (x1 : ℕ) : State.fixed (@State.armCapture x0 x1) = State.fixed x0 := by
  unfold State.armCapture
  (repeat' first
    | with_reducible rfl
    | (extract_lets +onlyGivenNames s1; have hs : State.fixed s1 = State.fixed x0 := by (simp [s1, *]; done)
       clear_value s1)
    | (extract_lets +onlyGivenNames s1; clear_value s1)
    | intro _ | with_reducible refine State.each_fixed_trans ?_ ?_ | split | (simp [*]; done))

@[simp] theorem State.disarmCapture_fixed (x0 : State) (x1 : ℕ) : State.fixed (@State.disarmCapture x0 x1) = State.fixed x0 := by
  unfold State.disarmCapture
  (repeat' first
    | with_reducible rfl
    | (extract_lets +onlyGivenNames s1; have hs : State.fixed s1 = State.fixed x0 := by (simp [s1, *]; done)
       clear_value s1)
    | (extract_lets +onlyGivenNames s1; clear_value s1)
    | intro _ | with_reducible refine State.each_fixed_trans ?_ ?_ | split | (simp [*]; done))

@[simp] theorem State.freshStream_fixed (x0 : State) (x1 : ℕ) : State.fixed (@State.freshStream x0 x1) = State.fixed x0 := by
  unfold State.freshStream
  (repeat' first
    | with_reducible rfl
    | (extract_lets +onlyGivenNames s1
       have hs : State.fixed s1 = State.fixed x0 := by
         first | (simp [s1, *]; done) | (unfold s1; (repeat' first | with_reducible rfl | intro _ | with_reducible refine State.each_fixed_trans ?_ ?_ | split | (simp [*]; done)); done)
       clear_value s1)
    | (extract_lets +onlyGivenNames s1; clear_value s1)
    | intro _ | with_reducible refine State.each_fixed_trans ?_ ?_ | split | (simp [*]; done) | refine (pair_fixed ‹_› rfl).trans ?_
    | refine (State.newEntry_fixed _ _ _ _ ‹_›).trans ?_)

@[simp] theorem State.boundaryMarker_fixed (x0 : State) (x1 : ℕ) : State.fixed (@State.boundaryMarker x0 x1) = State.fixed x0 := by
  unfold State.boundaryMarker
  (repeat' first
    | with_reducible rfl
    | (extract_lets +onlyGivenNames s1
       have hs : State.fixed s1 = State.fixed x0 := by
         first | (simp [s1, *]; done) | (unfold s1; (repeat' first | with_reducible rfl | intro _ | with_reducible refine State.each_fixed_trans ?_ ?_ | split | (simp [*]; done)); done)
       clear_value s1)
    | (extract_lets +onlyGivenNames s1; clear_value s1)
    | intro _ | with_reducible refine State.each_fixed_trans ?_ ?_ | split | (simp [*]; done) | refine (pair_fixed ‹_› rfl).trans ?_
    | refine (State.newEntry_fixed _ _ _ _ ‹_›).trans ?_)

@[simp] theorem effectAwnDensityCheck_fixed (x0 : Fin 132) (x1 : Fin 4) (x2 : State) : State.fixed (@effectAwnDensityCheck x0 x1 x2) = State.fixed x2 := by
  unfold effectAwnDensityCheck
  (repeat' first
    | with_reducible rfl
    | (extract_lets +onlyGivenNames s1; have hs : State.fixed s1 = State.fixed x2 := by (simp [s1, *]; done)
       clear_value s1)
    | (extract_lets +onlyGivenNames s1; clear_value s1)
    | intro _ | with_reducible refine State.each_fixed_trans ?_ ?_ | split | (simp [*]; done))

@[simp] theorem effectAwnCheckDone_fixed (x0 : Fin 132) (x1 : Fin 4) (x2 : List ℕ) (x3 : List ℕ) (x4 : State) : State.fixed (@effectAwnCheckDone x0 x1 x2 x3 x4) = State.fixed x4 := by
  unfold effectAwnCheckDone
  (repeat' first
    | with_reducible rfl
    | (extract_lets +onlyGivenNames s1
       have hs : State.fixed s1 = State.fixed x4 := by
         first | (simp [s1, *]; done) | (unfold s1; (repeat' first | with_reducible rfl | intro _ | with_reducible refine State.each_fixed_trans ?_ ?_ | split | (simp [*]; done)); done)
       clear_value s1)
    | (extract_lets +onlyGivenNames s1; clear_value s1)
    | intro _ | with_reducible refine State.each_fixed_trans ?_ ?_ | split | (simp [*]; done) | refine (pair_fixed ‹_› rfl).trans ?_
    | refine (State.newEntry_fixed _ _ _ _ ‹_›).trans ?_)

@[simp] theorem effectAwnLoopUnlock_fixed (x0 : Fin 132) (x1 : Fin 4) (x2 : Fin 3) (x3 : State) : State.fixed (@effectAwnLoopUnlock x0 x1 x2 x3) = State.fixed x3 := by
  unfold effectAwnLoopUnlock
  (repeat' first
    | with_reducible rfl
    | (extract_lets +onlyGivenNames s1
       have hs : State.fixed s1 = State.fixed x3 := by
         first | (simp [s1, *]; done) | (unfold s1; (repeat' first | with_reducible rfl | intro _ | with_reducible refine State.each_fixed_trans ?_ ?_ | split | (simp [*]; done)); done)
       clear_value s1)
    | (extract_lets +onlyGivenNames s1; clear_value s1)
    | intro _ | with_reducible refine State.each_fixed_trans ?_ ?_ | split | (simp [*]; done) | refine (pair_fixed ‹_› rfl).trans ?_
    | refine (State.newEntry_fixed _ _ _ _ ‹_›).trans ?_)

@[simp] theorem effectAwnRelockAttempt_fixed (x0 : Fin 132) (x1 : Fin 4) (x2 : Bool) (x3 : State) : State.fixed (@effectAwnRelockAttempt x0 x1 x2 x3) = State.fixed x3 := by
  unfold effectAwnRelockAttempt
  (repeat' first
    | with_reducible rfl
    | (extract_lets +onlyGivenNames s1; have hs : State.fixed s1 = State.fixed x3 := by (simp [s1, *]; done)
       clear_value s1)
    | (extract_lets +onlyGivenNames s1; clear_value s1)
    | intro _ | with_reducible refine State.each_fixed_trans ?_ ?_ | split | (simp [*]; done))

/-! ## Trigger -/

@[simp] theorem State.startPulseAt_fixed (x0 : State) (x1 : ℕ) (x2 : ℕ) : State.fixed (@State.startPulseAt x0 x1 x2) = State.fixed x0 := by
  simp [State.startPulseAt]

@[simp] theorem State.startPulse_fixed (x0 : State) (x1 : ℕ) : State.fixed (@State.startPulse x0 x1) = State.fixed x0 := by
  simp [State.startPulse]

@[simp] theorem State.outTrigger_fixed (x0 : State) (x1 : ℕ) (x2 : ℕ) (x3 : Descriptor) : State.fixed (@State.outTrigger x0 x1 x2 x3) = State.fixed x0 := by
  unfold State.outTrigger
  (repeat' first
    | with_reducible rfl
    | (extract_lets +onlyGivenNames s1; have hs : State.fixed s1 = State.fixed x0 := by (simp [s1, *]; done)
       clear_value s1)
    | (extract_lets +onlyGivenNames s1; clear_value s1)
    | intro _ | with_reducible refine State.each_fixed_trans ?_ ?_ | split | (simp [*]; done))

@[simp] theorem State.drillTrigger_fixed (x0 : State) (x1 : ℕ) (x2 : Descriptor) : State.fixed (@State.drillTrigger x0 x1 x2) = State.fixed x0 := by
  unfold State.drillTrigger
  (repeat' first
    | with_reducible rfl
    | (extract_lets +onlyGivenNames s1; have hs : State.fixed s1 = State.fixed x0 := by (simp [s1, *]; done)
       clear_value s1)
    | (extract_lets +onlyGivenNames s1; clear_value s1)
    | intro _ | with_reducible refine State.each_fixed_trans ?_ ?_ | split | (simp [*]; done))

@[simp] theorem State.sendTrigger_fixed (x0 : State) (x1 : ℕ) (x2 : Descriptor) : State.fixed (@State.sendTrigger x0 x1 x2) = State.fixed x0 := by
  unfold State.sendTrigger
  (repeat' first
    | with_reducible rfl
    | (extract_lets +onlyGivenNames s1
       have hs : State.fixed s1 = State.fixed x0 := by
         first | (simp [s1, *]; done) | (unfold s1; (repeat' first | with_reducible rfl | intro _ | with_reducible refine State.each_fixed_trans ?_ ?_ | split | (simp [*]; done)); done)
       clear_value s1)
    | (extract_lets +onlyGivenNames s1; clear_value s1)
    | intro _ | with_reducible refine State.each_fixed_trans ?_ ?_ | split | (simp [*]; done) | refine (pair_fixed ‹_› rfl).trans ?_
    | refine (State.newEntry_fixed _ _ _ _ ‹_›).trans ?_)

@[simp] theorem State.tillerAccept_fixed (x0 : State) (x1 : ℕ) (x2 : Descriptor) : State.fixed (@State.tillerAccept x0 x1 x2) = State.fixed x0 := by
  unfold State.tillerAccept
  extract_lets tick core see bits
  have hsee : ∀ b s, (see b s).fixed = s.fixed := fun b s => by unfold see; exact State.modTiller_fixed _ _
  clear_value see
  repeat' split
  all_goals simp [hsee]

@[simp] theorem State.consume_fixed (x0 : State) (x1 : ℕ) (x2 : Descriptor) : State.fixed (@State.consume x0 x1 x2) = State.fixed x0 := by
  unfold State.consume
  (repeat' first
    | with_reducible rfl
    | (extract_lets +onlyGivenNames s1
       have hs : State.fixed s1 = State.fixed x0 := by
         first | (simp [s1, *]; done) | (unfold s1; (repeat' first | with_reducible rfl | intro _ | with_reducible refine State.each_fixed_trans ?_ ?_ | split | (simp [*]; done)); done)
       clear_value s1)
    | (extract_lets +onlyGivenNames s1; clear_value s1)
    | intro _ | with_reducible refine State.each_fixed_trans ?_ ?_ | split | (simp [*]; done) | refine (pair_fixed ‹_› rfl).trans ?_
    | refine (State.newEntry_fixed _ _ _ _ ‹_›).trans ?_)

@[simp] theorem State.offerTrigger_fixed (x0 : State) (x1 : ℕ) (x2 : Descriptor) : State.fixed (@State.offerTrigger x0 x1 x2) = State.fixed x0 := by
  unfold State.offerTrigger
  (repeat' first
    | with_reducible rfl
    | (extract_lets +onlyGivenNames s1
       have hs : State.fixed s1 = State.fixed x0 := by
         first | (simp [s1, *]; done) | (unfold s1; (repeat' first | with_reducible rfl | intro _ | with_reducible refine State.each_fixed_trans ?_ ?_ | split | (simp [*]; done)); done)
       clear_value s1)
    | (extract_lets +onlyGivenNames s1; clear_value s1)
    | intro _ | with_reducible refine State.each_fixed_trans ?_ ?_ | split | (simp [*]; done) | refine (pair_fixed ‹_› rfl).trans ?_
    | refine (State.newEntry_fixed _ _ _ _ ‹_›).trans ?_)

@[simp] theorem State.underOld_fixed {s : State} {r : Nat} {v : Vt96} {f : State → State} (hf : ∀ s, (f s).fixed = s.fixed) : (s.underOld r v f).fixed = s.fixed := by
  unfold State.underOld
  dsimp only
  split
  · split
    · exact (State.modRoute_fixed _ _ _).trans ((hf _).trans (State.modRoute_fixed _ _ _))
    · exact hf _
  · exact hf _

@[simp] theorem State.offer_fixed (x0 : State) (x1 : ℕ) (x2 : Descriptor) : State.fixed (@State.offer x0 x1 x2) = State.fixed x0 := by
  simp [State.offer]

@[simp] theorem State.offerSlope_fixed (x0 : State) (x1 : Descriptor) (x2 : Bool) : State.fixed (@State.offerSlope x0 x1 x2) = State.fixed x0 := by
  unfold State.offerSlope
  (repeat' first | with_reducible rfl | intro _ | with_reducible refine State.each_fixed_trans ?_ ?_ | split | (simp; done))

@[simp] theorem State.expireTimers_fixed (x0 : State) : State.fixed (@State.expireTimers x0) = State.fixed x0 := by
  unfold State.expireTimers
  (repeat' first | with_reducible rfl | intro _ | with_reducible refine State.each_fixed_trans ?_ ?_ | split | (simp; done))

@[simp] theorem State.tillerAct_fixed (x0 : State) (x1 : ℕ) (x2 : ℕ) (x3 : TillerStep) : State.fixed (@State.tillerAct x0 x1 x2 x3) = State.fixed x0 := by
  unfold State.tillerAct
  (repeat' first
    | with_reducible rfl
    | (extract_lets +onlyGivenNames s1
       have hs : State.fixed s1 = State.fixed x0 := by
         first | (simp [s1, *]; done) | (unfold s1; (repeat' first | with_reducible rfl | intro _ | with_reducible refine State.each_fixed_trans ?_ ?_ | split | (simp [*]; done)); done)
       clear_value s1)
    | (extract_lets +onlyGivenNames s1; clear_value s1)
    | intro _ | with_reducible refine State.each_fixed_trans ?_ ?_ | split | (simp [*]; done) | refine (pair_fixed ‹_› rfl).trans ?_
    | refine (State.newEntry_fixed _ _ _ _ ‹_›).trans ?_)

@[simp] theorem State.tillerDue_fixed (x0 : State) : State.fixed (@State.tillerDue x0) = State.fixed x0 := by
  unfold State.tillerDue
  (repeat' first | with_reducible rfl | intro _ | with_reducible refine State.each_fixed_trans ?_ ?_ | split | (simp; done))

@[simp] theorem State.tillerNow_fixed (x0 : State) : State.fixed (@State.tillerNow x0) = State.fixed x0 := by
  simp [State.tillerNow]

@[simp] theorem effectComparatorEdge_fixed (x0 : Fin 128) (x1 : Bool) (x2 : Vt96) (x3 : State) : State.fixed (@effectComparatorEdge x0 x1 x2 x3) = State.fixed x3 := by
  unfold effectComparatorEdge
  extract_lets x masked s1
  have h1 : s1.fixed = x3.fixed := State.modChan_fixed _ _ _
  clear_value s1 masked x
  split
  · rfl
  · split
    · exact h1
    · split
      rename_i st wd s2 h
      extract_lets s3
      have h2 : s2.fixed = x3.fixed := (triple_fixed h (State.stampEdge_fixed _ _ _ _)).trans h1
      have h3 : s3.fixed = x3.fixed := by
        simp only [s3]; split <;> simp [h2]
      clear_value s3
      exact (State.offerSlope_fixed _ _ _).trans h3

@[simp] theorem effectTrigInEdge_fixed (x0 : Fin 4) (x1 : Bool) (x2 : Vt96) (x3 : State) : State.fixed (@effectTrigInEdge x0 x1 x2 x3) = State.fixed x3 := by
  unfold effectTrigInEdge
  (repeat' first
    | with_reducible rfl
    | (extract_lets +onlyGivenNames s1; have hs : State.fixed s1 = State.fixed x3 := by (simp [s1, *]; done)
       clear_value s1)
    | (extract_lets +onlyGivenNames s1; clear_value s1)
    | intro _ | with_reducible refine State.each_fixed_trans ?_ ?_ | split | (simp [*]; done))

@[simp] theorem State.digitalOld_fixed (x0 : State) (x1 : ℕ) (x2 : ℕ) (x3 : ℕ) (x4 : ℤ) (x5 : Bool) (x6 : ℤ) : State.fixed (@State.digitalOld x0 x1 x2 x3 x4 x5 x6) = State.fixed x0 := by
  unfold State.digitalOld
  (repeat' first
    | with_reducible rfl
    | (extract_lets +onlyGivenNames s1; have hs : State.fixed s1 = State.fixed x0 := by (simp [s1, *]; done)
       clear_value s1)
    | (extract_lets +onlyGivenNames s1; clear_value s1)
    | intro _ | with_reducible refine State.each_fixed_trans ?_ ?_ | split | (simp [*]; done))

@[simp] theorem State.digitalNew_fixed (x0 : State) (x1 : ℕ) (x2 : ℕ) (x3 : ℕ) (x4 : ℤ) (x5 : Bool) (x6 : ℤ) : State.fixed (@State.digitalNew x0 x1 x2 x3 x4 x5 x6) = State.fixed x0 := by
  unfold State.digitalNew
  (repeat' first
    | with_reducible rfl
    | (extract_lets +onlyGivenNames s1; have hs : State.fixed s1 = State.fixed x0 := by (simp [s1, *]; done)
       clear_value s1)
    | (extract_lets +onlyGivenNames s1; clear_value s1)
    | intro _ | with_reducible refine State.each_fixed_trans ?_ ?_ | split | (simp [*]; done))

@[simp] theorem State.digitalSample_fixed (x0 : State) (x1 : ℕ) (x2 : ℕ) (x3 : SampleData) (x4 : ℕ) : State.fixed (@State.digitalSample x0 x1 x2 x3 x4) = State.fixed x0 := by
  unfold State.digitalSample
  (repeat' first
    | with_reducible rfl
    | (extract_lets +onlyGivenNames s1; have hs : State.fixed s1 = State.fixed x0 := by (simp [s1, *]; done)
       clear_value s1)
    | (extract_lets +onlyGivenNames s1; clear_value s1)
    | intro _ | with_reducible refine State.each_fixed_trans ?_ ?_ | split | (simp [*]; done))

@[simp] theorem effectDigitalTriggerFire_fixed (x0 : Fin 32) (x1 : DigitalWatch) (x2 : State) : State.fixed (@effectDigitalTriggerFire x0 x1 x2) = State.fixed x2 := by
  unfold effectDigitalTriggerFire
  (repeat' first | with_reducible rfl | intro _ | with_reducible refine State.each_fixed_trans ?_ ?_ | split | (simp; done))

@[simp] theorem State.skipInstants_fixed (x0 : State) (x1 : ℕ) (x2 : Vt96) : State.fixed (@State.skipInstants x0 x1 x2) = State.fixed x0 := by
  simp [State.skipInstants]

@[simp] theorem effectScheduledTrigger_fixed (x0 : Fin 32) (x1 : State) : State.fixed (@effectScheduledTrigger x0 x1) = State.fixed x1 := by
  unfold effectScheduledTrigger
  (repeat' first
    | with_reducible rfl
    | (extract_lets +onlyGivenNames s1; have hs : State.fixed s1 = State.fixed x1 := by (simp [s1, *]; done)
       clear_value s1)
    | (extract_lets +onlyGivenNames s1; clear_value s1)
    | intro _ | with_reducible refine State.each_fixed_trans ?_ ?_ | split | (simp [*]; done))

@[simp] theorem effectTrigOutEdge_fixed (x0 : Fin 4) (x1 : State) : State.fixed (@effectTrigOutEdge x0 x1) = State.fixed x1 := by
  unfold effectTrigOutEdge; (repeat' split) <;> simp

@[simp] theorem effectTrigOutPulseEnd_fixed (x0 : Fin 4) (x1 : State) : State.fixed (@effectTrigOutPulseEnd x0 x1) = State.fixed x1 := by
  simp [effectTrigOutPulseEnd]

@[simp] theorem effectTillerTransition_fixed (x0 : State) : State.fixed (@effectTillerTransition x0) = State.fixed x0 := by
  unfold effectTillerTransition
  (repeat' first
    | with_reducible rfl
    | (extract_lets +onlyGivenNames s1; have hs : State.fixed s1 = State.fixed x0 := by (simp [s1, *]; done)
       clear_value s1)
    | (extract_lets +onlyGivenNames s1; clear_value s1)
    | intro _ | with_reducible refine State.each_fixed_trans ?_ ?_ | split | (simp [*]; done))

@[simp] theorem effectTillerTimerExpire_fixed (x0 : Fin 4) (x1 : State) : State.fixed (@effectTillerTimerExpire x0 x1) = State.fixed x1 := by
  simp [effectTillerTimerExpire]

@[simp] theorem State.haltTiller_fixed (x0 : State) : State.fixed (@State.haltTiller x0) = State.fixed x0 := by
  simp [State.haltTiller]

@[simp] theorem State.tillerControl_fixed (x0 : State) (x1 : ℕ) (x2 : ℕ) : State.fixed (@State.tillerControl x0 x1 x2) = State.fixed x0 := by
  simp [State.tillerControl]

@[simp] theorem State.armRoute_fixed (x0 : State) (x1 : ℕ) (x2 : Bool) : State.fixed (@State.armRoute x0 x1 x2) = State.fixed x0 := by
  simp [State.armRoute]

@[simp] theorem State.disarmRoutes_fixed (x0 : State) : State.fixed (@State.disarmRoutes x0) = State.fixed x0 := by
  unfold State.disarmRoutes
  (repeat' first | with_reducible rfl | intro _ | with_reducible refine State.each_fixed_trans ?_ ?_ | split | (simp; done))

@[simp] theorem State.rearmRoutes_fixed (x0 : State) (x1 : Bool) : State.fixed (@State.rearmRoutes x0 x1) = State.fixed x0 := by
  unfold State.rearmRoutes
  (repeat' first | with_reducible rfl | intro _ | with_reducible refine State.each_fixed_trans ?_ ?_ | split | (simp; done))

@[simp] theorem State.setRoute_fixed (x0 : State) (x1 : ℕ) (x2 : RouteCfg) : State.fixed (@State.setRoute x0 x1 x2) = State.fixed x0 := by
  unfold State.setRoute; (repeat' split) <;> simp

@[simp] theorem State.softTrigger_fixed (x0 : State) (x1 : U32) : State.fixed (@State.softTrigger x0 x1) = State.fixed x0 := by
  unfold State.softTrigger
  (repeat' first | with_reducible rfl | intro _ | with_reducible refine State.each_fixed_trans ?_ ?_ | split | (simp; done))

/-! ## Cmd -/

theorem answer_fixed (x0 : Bytes) (x1 : State) : ∀ a u, @answer x0 x1 = .ok (a, u) → State.fixed u = State.fixed x1 := by
  intro a u h
  injection h with h
  injection h with _ h
  rw [h]

end Sys2Proof.Machine
end

