-- ==== Sys2Proof/Laws/FixedB.lean ====
section
/-! SUPPORT. The queue, the clock and the rings under the operations of the drill, time base, conversion, calibration, rachis, probes and acquisition. -/

set_option linter.all false

namespace Sys2Proof.Machine

/-! ## Drill -/

@[simp] theorem State.drillMark_fixed (x0 : State) (x1 : ℕ) : State.fixed (@State.drillMark x0 x1) = State.fixed x0 := by
  unfold State.drillMark
  (repeat' first
    | with_reducible rfl
    | (extract_lets +onlyGivenNames s1; have hs : State.fixed s1 = State.fixed x0 := by (simp [s1, *]; done)
       clear_value s1)
    | (extract_lets +onlyGivenNames s1; clear_value s1)
    | intro _ | with_reducible refine State.each_fixed_trans ?_ ?_ | split | (simp [*]; done))

@[simp] theorem State.drillUpTo_fixed (x0 : State) : State.fixed (@State.drillUpTo x0) = State.fixed x0 := by
  unfold State.drillUpTo
  (repeat' first
    | with_reducible rfl
    | (extract_lets +onlyGivenNames s1
       have hs : State.fixed s1 = State.fixed x0 := by
         first | (simp [s1, *]; done) | (unfold s1; (repeat' first | with_reducible rfl | intro _ | with_reducible refine State.each_fixed_trans ?_ ?_ | split | (simp [*]; done)); done)
       clear_value s1)
    | (extract_lets +onlyGivenNames s1; clear_value s1)
    | intro _ | with_reducible refine State.each_fixed_trans ?_ ?_ | split | (simp [*]; done) | refine (pair_fixed ‹_› rfl).trans ?_
    | refine (State.newEntry_fixed _ _ _ _ ‹_›).trans ?_)

@[simp] theorem State.abortDrill_fixed (x0 : State) (x1 : ℕ) : State.fixed (@State.abortDrill x0 x1) = State.fixed x0 := by
  unfold State.abortDrill
  (repeat' first
    | with_reducible rfl
    | (extract_lets +onlyGivenNames s1; have hs : State.fixed s1 = State.fixed x0 := by (simp [s1, *]; done)
       clear_value s1)
    | (extract_lets +onlyGivenNames s1; clear_value s1)
    | intro _ | with_reducible refine State.each_fixed_trans ?_ ?_ | split | (simp [*]; done))

@[simp] theorem effectDrillRunStart_fixed (x0 : List PinSample) (x1 : State) : State.fixed (@effectDrillRunStart x0 x1) = State.fixed x1 := by
  unfold effectDrillRunStart; (repeat' split) <;> simp

@[simp] theorem effectDrillRunEnd_fixed (x0 : State) : State.fixed (@effectDrillRunEnd x0) = State.fixed x0 := by
  unfold effectDrillRunEnd
  (repeat' first
    | with_reducible rfl
    | (extract_lets +onlyGivenNames s1; have hs : State.fixed s1 = State.fixed x0 := by (simp [s1, *]; done)
       clear_value s1)
    | (extract_lets +onlyGivenNames s1; clear_value s1)
    | intro _ | with_reducible refine State.each_fixed_trans ?_ ?_ | split | (simp [*]; done))

@[simp] theorem effectVdrillOutOfRange_fixed (x0 : State) : State.fixed (@effectVdrillOutOfRange x0) = State.fixed x0 := by
  simp [effectVdrillOutOfRange]

@[simp] theorem State.startDrill_fixed (x0 : State) (x1 : Bytes) : State.fixed (@State.startDrill x0 x1) = State.fixed x0 := by
  simp [State.startDrill]

theorem drillSegmentLoadCmd_run_fixed (f : Frame) (s : State) : ∀ a u, drillSegmentLoadCmd.run f s = .ok (a, u) → u.fixed = s.fixed := by
  unfold drillSegmentLoadCmd; dsimp only; intro a u h; exact ok_pair h rfl

theorem drillConfigCmd_run_fixed (f : Frame) (s : State) : ∀ a u, drillConfigCmd.run f s = .ok (a, u) → u.fixed = s.fixed := by
  unfold drillConfigCmd; dsimp only; intro a u h; exact answer_fixed _ _ _ _ h

theorem drillConfigCmd_apply_fixed (f : Frame) (s : State) : ∀ u, drillConfigCmd.apply f s = .ok u → u.fixed = s.fixed := by
  unfold drillConfigCmd; dsimp only; intro u h
  (repeat' split at h) <;> first | (injection h; done) | (refine ok_state h ?_; simp; done)

theorem drillControlCmd_run_fixed (f : Frame) (s : State) : ∀ a u, drillControlCmd.run f s = .ok (a, u) → u.fixed = s.fixed := by
  unfold drillControlCmd; dsimp only; intro a u h
  (repeat' split at h) <;> first | (injection h; done) | (refine ok_pair h ?_; simp; done)

theorem drillStatusGetCmd_run_fixed (f : Frame) (s : State) : ∀ a u, drillStatusGetCmd.run f s = .ok (a, u) → u.fixed = s.fixed := by
  unfold drillStatusGetCmd; dsimp only; intro a u h; refine ok_pair h ?_; simp

/-! ## TimeBase -/

@[simp] theorem State.gateProbe_fixed (x0 : State) (x1 : ℕ) (x2 : ℕ) : State.fixed (@State.gateProbe x0 x1 x2) = State.fixed x0 := by
  unfold State.gateProbe
  (repeat' first
    | with_reducible rfl
    | (extract_lets +onlyGivenNames s1; have hs : State.fixed s1 = State.fixed x0 := by (simp [s1, *]; done)
       clear_value s1)
    | (extract_lets +onlyGivenNames s1; clear_value s1)
    | intro _ | with_reducible refine State.each_fixed_trans ?_ ?_ | split | (simp [*]; done))

@[simp] theorem State.losePhase_fixed (x0 : State) (x1 : ℕ) : State.fixed (@State.losePhase x0 x1) = State.fixed x0 := by
  simp [State.losePhase]

@[simp] theorem State.ungateProbe_fixed (x0 : State) (x1 : ℕ) (x2 : ℕ) : State.fixed (@State.ungateProbe x0 x1 x2) = State.fixed x0 := by
  simp [State.ungateProbe]

@[simp] theorem State.gateAll_fixed (x0 : State) (x1 : ℕ) : State.fixed (@State.gateAll x0 x1) = State.fixed x0 := by
  unfold State.gateAll
  (repeat' first | with_reducible rfl | intro _ | with_reducible refine State.each_fixed_trans ?_ ?_ | split | (simp; done))

@[simp] theorem State.ungateAll_fixed (x0 : State) (x1 : ℕ) : State.fixed (@State.ungateAll x0 x1) = State.fixed x0 := by
  unfold State.ungateAll
  (repeat' first | with_reducible rfl | intro _ | with_reducible refine State.each_fixed_trans ?_ ?_ | split | (simp; done))

@[simp] theorem State.freezeSteering_fixed (x0 : State) : State.fixed (@State.freezeSteering x0) = State.fixed x0 := by
  unfold State.freezeSteering
  repeat' first
    | with_reducible rfl
    | (extract_lets +onlyGivenNames s1
       have hs : State.fixed s1 = State.fixed x0 := by
         first
           | (simp [s1, *]; done)
           | (unfold s1; (repeat' first | with_reducible rfl | intro _ | with_reducible refine State.each_fixed_trans ?_ ?_ | split | (simp [*]; done)); done)
       clear_value s1)
    | (extract_lets +onlyGivenNames s1; clear_value s1)
    | intro _
    | with_reducible refine State.each_fixed_trans ?_ ?_
    | (split; skip)
    | (simp [*]; done)
    | assumption
    | refine (pair_fixed ‹_› rfl).trans ?_
    | refine (triple_fixed ‹_› rfl).trans ?_
    | refine (State.newEntry_fixed _ _ _ _ ‹_›).trans ?_
    | refine (State.beginRecord_fixed _ _ _ _ _ ‹_›).trans ?_
    | refine (State.finishEnded_fixed _ _ _ _ ‹_›).trans ?_
    | refine (State.takeRecordId_fixed _ _ _ ‹_›).trans ?_
    | refine (State.takePages_fixed _ _ _ _ _ _ ‹_›).trans ?_
    | refine (State.sizeRing_fixed _ _ _ _ _ _ ‹_›).trans ?_
    | refine (State.startWork_fixed _ _ _ _ _ _ ‹_›).trans ?_
    | refine (State.applySteward_fixed _ _ _ _ ‹_›).trans ?_
    | refine (State.applyStage_fixed _ _ _ _ ‹_›).trans ?_
    | (simp; skip)

@[simp] theorem State.enterHoldover_fixed (x0 : State) (x1 : Bool) : State.fixed (@State.enterHoldover x0 x1) = State.fixed x0 := by
  simp [State.enterHoldover]

@[simp] theorem State.loseRef_fixed (x0 : State) (x1 : ℕ) : State.fixed (@State.loseRef x0 x1) = State.fixed x0 := by
  unfold State.loseRef
  (repeat' first
    | with_reducible rfl
    | (extract_lets +onlyGivenNames s1; have hs : State.fixed s1 = State.fixed x0 := by (simp [s1, *]; done)
       clear_value s1)
    | (extract_lets +onlyGivenNames s1; clear_value s1)
    | intro _ | with_reducible refine State.each_fixed_trans ?_ ?_ | split | (simp [*]; done))

@[simp] theorem State.followRef_fixed (x0 : State) : State.fixed (@State.followRef x0) = State.fixed x0 := by
  simp [State.followRef]

@[simp] theorem State.qualifyRef_fixed (x0 : State) : State.fixed (@State.qualifyRef x0) = State.fixed x0 := by
  unfold State.qualifyRef
  (repeat' first
    | with_reducible rfl
    | (extract_lets +onlyGivenNames s1; have hs : State.fixed s1 = State.fixed x0 := by (simp [s1, *]; done)
       clear_value s1)
    | (extract_lets +onlyGivenNames s1; clear_value s1)
    | intro _ | with_reducible refine State.each_fixed_trans ?_ ?_ | split | (simp [*]; done))

@[simp] theorem effectHoldoverReturn_fixed (x0 : State) : State.fixed (@effectHoldoverReturn x0) = State.fixed x0 := by
  unfold effectHoldoverReturn; (repeat' split) <;> simp

@[simp] theorem effectRefGateClose_fixed (x0 : ℕ) (x1 : State) : State.fixed (@effectRefGateClose x0 x1) = State.fixed x1 := by
  unfold effectRefGateClose
  (repeat' first
    | with_reducible rfl
    | (extract_lets +onlyGivenNames s1; have hs : State.fixed s1 = State.fixed x1 := by (simp [s1, *]; done)
       clear_value s1)
    | (extract_lets +onlyGivenNames s1; clear_value s1)
    | intro _ | with_reducible refine State.each_fixed_trans ?_ ?_ | split | (simp [*]; done))

@[simp] theorem effectRefSignalDetect_fixed (x0 : Bool) (x1 : State) : State.fixed (@effectRefSignalDetect x0 x1) = State.fixed x1 := by
  unfold effectRefSignalDetect; (repeat' split) <;> simp

@[simp] theorem effectRefLossOfSignal_fixed (x0 : State) : State.fixed (@effectRefLossOfSignal x0) = State.fixed x0 := by
  unfold effectRefLossOfSignal; (repeat' split) <;> simp

@[simp] theorem effectRefPhaseHit_fixed (x0 : State) : State.fixed (@effectRefPhaseHit x0) = State.fixed x0 := by
  unfold effectRefPhaseHit; (repeat' split) <;> simp

@[simp] theorem effectOcxoEstimateUpdate_fixed (x0 : ℤ) (x1 : State) : State.fixed (@effectOcxoEstimateUpdate x0 x1) = State.fixed x1 := by
  unfold effectOcxoEstimateUpdate; (repeat' split) <;> simp

@[simp] theorem State.judgeAlignment_fixed (x0 : State) (x1 : ℤ) : State.fixed (@State.judgeAlignment x0 x1) = State.fixed x0 := by
  unfold State.judgeAlignment
  (repeat' first
    | with_reducible rfl
    | (extract_lets +onlyGivenNames s1; have hs : State.fixed s1 = State.fixed x0 := by (simp [s1, *]; done)
       clear_value s1)
    | (extract_lets +onlyGivenNames s1; clear_value s1)
    | intro _ | with_reducible refine State.each_fixed_trans ?_ ?_ | split | (simp [*]; done))

@[simp] theorem State.acceptPps_fixed (x0 : State) (x1 : Vt96) : State.fixed (@State.acceptPps x0 x1) = State.fixed x0 := by
  simp [State.acceptPps]

@[simp] theorem effectPpsEdge_fixed (x0 : Vt96) (x1 : State) : State.fixed (@effectPpsEdge x0 x1) = State.fixed x1 := by
  unfold effectPpsEdge
  (repeat' first
    | with_reducible rfl
    | (extract_lets +onlyGivenNames s1; have hs : State.fixed s1 = State.fixed x1 := by (simp [s1, *]; done)
       clear_value s1)
    | (extract_lets +onlyGivenNames s1; clear_value s1)
    | intro _ | with_reducible refine State.each_fixed_trans ?_ ?_ | split | (simp [*]; done))

@[simp] theorem State.stepPhase_fixed (x0 : State) (x1 : ℤ) : State.fixed (@State.stepPhase x0 x1) = State.fixed x0 := by
  simp [State.stepPhase]

@[simp] theorem State.setLabel_fixed (x0 : State) (x1 : ℤ) : State.fixed (@State.setLabel x0 x1) = State.fixed x0 := by
  simp [State.setLabel]

@[simp] theorem State.startAtGrandTick_fixed (x0 : State) : State.fixed (@State.startAtGrandTick x0) = State.fixed x0 := by
  simp [State.startAtGrandTick]

@[simp] theorem State.alignToPps_fixed (x0 : State) : State.fixed (@State.alignToPps x0) = State.fixed x0 := by
  simp [State.alignToPps]

@[simp] theorem State.alignNow_fixed (x0 : State) : State.fixed (@State.alignNow x0) = State.fixed x0 := by
  unfold State.alignNow
  (repeat' first
    | with_reducible rfl
    | (extract_lets +onlyGivenNames s1
       have hs : State.fixed s1 = State.fixed x0 := by
         first | (simp [s1, *]; done) | (unfold s1; (repeat' first | with_reducible rfl | intro _ | with_reducible refine State.each_fixed_trans ?_ ?_ | split | (simp [*]; done)); done)
       clear_value s1)
    | (extract_lets +onlyGivenNames s1; clear_value s1)
    | intro _ | with_reducible refine State.each_fixed_trans ?_ ?_ | split | (simp [*]; done) | refine (pair_fixed ‹_› rfl).trans ?_
    | refine (State.newEntry_fixed _ _ _ _ ‹_›).trans ?_)

@[simp] theorem State.alignVt_fixed (x0 : State) : State.fixed (@State.alignVt x0) = State.fixed x0 := by
  unfold State.alignVt
  (repeat' first
    | with_reducible rfl
    | (extract_lets +onlyGivenNames s1; have hs : State.fixed s1 = State.fixed x0 := by (simp [s1, *]; done)
       clear_value s1)
    | (extract_lets +onlyGivenNames s1; clear_value s1)
    | intro _ | with_reducible refine State.each_fixed_trans ?_ ?_ | split | (simp [*]; done))

@[simp] theorem State.alignWhenReady_fixed (x0 : State) : State.fixed (@State.alignWhenReady x0) = State.fixed x0 := by
  unfold State.alignWhenReady; (repeat' split) <;> simp

@[simp] theorem effectPpsActivityTimeout_fixed (x0 : State) : State.fixed (@effectPpsActivityTimeout x0) = State.fixed x0 := by
  unfold effectPpsActivityTimeout; (repeat' split) <;> simp

@[simp] theorem effectAlignWaitTimeout_fixed (x0 : State) : State.fixed (@effectAlignWaitTimeout x0) = State.fixed x0 := by
  unfold effectAlignWaitTimeout; (repeat' split) <;> simp

@[simp] theorem State.leapNotice_fixed (x0 : State) (x1 : IrigFrame) (x2 : ℕ) : State.fixed (@State.leapNotice x0 x1 x2) = State.fixed x0 := by
  unfold State.leapNotice
  (repeat' first
    | with_reducible rfl
    | (extract_lets +onlyGivenNames s1; have hs : State.fixed s1 = State.fixed x0 := by (simp [s1, *]; done)
       clear_value s1)
    | (extract_lets +onlyGivenNames s1; clear_value s1)
    | intro _ | with_reducible refine State.each_fixed_trans ?_ ?_ | split | (simp [*]; done))

@[simp] theorem State.irigAgreement_fixed (x0 : State) (x1 : IrigFrame) (x2 : ℕ) : State.fixed (@State.irigAgreement x0 x1 x2) = State.fixed x0 := by
  unfold State.irigAgreement
  (repeat' first
    | with_reducible rfl
    | (extract_lets +onlyGivenNames s1; have hs : State.fixed s1 = State.fixed x0 := by (simp [s1, *]; done)
       clear_value s1)
    | (extract_lets +onlyGivenNames s1; clear_value s1)
    | intro _ | with_reducible refine State.each_fixed_trans ?_ ?_ | split | (simp [*]; done))

@[simp] theorem effectIrigFrame_fixed (x0 : IrigFrame) (x1 : State) : State.fixed (@effectIrigFrame x0 x1) = State.fixed x1 := by
  unfold effectIrigFrame
  (repeat' first
    | with_reducible rfl
    | (extract_lets +onlyGivenNames s1
       have hs : State.fixed s1 = State.fixed x1 := by
         first | (simp [s1, *]; done) | (unfold s1; (repeat' first | with_reducible rfl | intro _ | with_reducible refine State.each_fixed_trans ?_ ?_ | split | (simp [*]; done)); done)
       clear_value s1)
    | (extract_lets +onlyGivenNames s1; clear_value s1)
    | intro _ | with_reducible refine State.each_fixed_trans ?_ ?_ | split | (simp [*]; done) | refine (pair_fixed ‹_› rfl).trans ?_
    | refine (State.newEntry_fixed _ _ _ _ ‹_›).trans ?_)

@[simp] theorem effectIrigActivityTimeout_fixed (x0 : State) : State.fixed (@effectIrigActivityTimeout x0) = State.fixed x0 := by
  simp [effectIrigActivityTimeout]

@[simp] theorem effectRootLockAcquired_fixed (x0 : BitVec 6) (x1 : State) : State.fixed (@effectRootLockAcquired x0 x1) = State.fixed x1 := by
  unfold effectRootLockAcquired
  (repeat' first
    | with_reducible rfl
    | (extract_lets +onlyGivenNames s1
       have hs : State.fixed s1 = State.fixed x1 := by
         first | (simp [s1, *]; done) | (unfold s1; (repeat' first | with_reducible rfl | intro _ | with_reducible refine State.each_fixed_trans ?_ ?_ | split | (simp [*]; done)); done)
       clear_value s1)
    | (extract_lets +onlyGivenNames s1; clear_value s1)
    | intro _ | with_reducible refine State.each_fixed_trans ?_ ?_ | split | (simp [*]; done) | refine (pair_fixed ‹_› rfl).trans ?_
    | refine (State.newEntry_fixed _ _ _ _ ‹_›).trans ?_)

@[simp] theorem State.abortRun_fixed (x0 : State) : State.fixed (@State.abortRun x0) = State.fixed x0 := by
  unfold State.abortRun
  (repeat' first
    | with_reducible rfl
    | (extract_lets +onlyGivenNames s1
       have hs : State.fixed s1 = State.fixed x0 := by
         first | (simp [s1, *]; done) | (unfold s1; (repeat' first | with_reducible rfl | intro _ | with_reducible refine State.each_fixed_trans ?_ ?_ | split | (simp [*]; done)); done)
       clear_value s1)
    | (extract_lets +onlyGivenNames s1; clear_value s1)
    | intro _ | with_reducible refine State.each_fixed_trans ?_ ?_ | split | (simp [*]; done) | refine (pair_fixed ‹_› rfl).trans ?_
    | refine (State.newEntry_fixed _ _ _ _ ‹_›).trans ?_)

@[simp] theorem State.abortTest_fixed (x0 : State) : State.fixed (@State.abortTest x0) = State.fixed x0 := by
  unfold State.abortTest; (repeat' split) <;> simp

@[simp] theorem State.loseRoot_fixed (x0 : State) : State.fixed (@State.loseRoot x0) = State.fixed x0 := by
  unfold State.loseRoot
  (repeat' first
    | with_reducible rfl
    | (extract_lets +onlyGivenNames s1
       have hs : State.fixed s1 = State.fixed x0 := by
         first | (simp [s1, *]; done) | (unfold s1; (repeat' first | with_reducible rfl | intro _ | with_reducible refine State.each_fixed_trans ?_ ?_ | split | (simp [*]; done)); done)
       clear_value s1)
    | (extract_lets +onlyGivenNames s1; clear_value s1)
    | intro _ | with_reducible refine State.each_fixed_trans ?_ ?_ | split | (simp [*]; done) | refine (pair_fixed ‹_› rfl).trans ?_
    | refine (State.newEntry_fixed _ _ _ _ ‹_›).trans ?_)

@[simp] theorem effectGrandTickCheck_fixed (x0 : Bool) (x1 : State) : State.fixed (@effectGrandTickCheck x0 x1) = State.fixed x1 := by
  unfold effectGrandTickCheck; (repeat' split) <;> simp

@[simp] theorem effectRootLockRetry_fixed (x0 : State) : State.fixed (@effectRootLockRetry x0) = State.fixed x0 := by
  unfold effectRootLockRetry; (repeat' split) <;> simp

@[simp] theorem effectVtSecondSave_fixed (x0 : State) : State.fixed (@effectVtSecondSave x0) = State.fixed x0 := by
  simp [effectVtSecondSave]

@[simp] theorem State.snapAt_fixed (x0 : State) (x1 : Vt96) : State.fixed (@State.snapAt x0 x1) = State.fixed x0 := by
  simp [State.snapAt]

@[simp] theorem effectSnap_fixed (x0 : State) : State.fixed (@effectSnap x0) = State.fixed x0 := by
  unfold effectSnap; (repeat' split) <;> simp

@[simp] theorem State.setTimebase_fixed (x0 : State) (x1 : TimebaseCfg) : State.fixed (@State.setTimebase x0 x1) = State.fixed x0 := by
  unfold State.setTimebase
  (repeat' first
    | with_reducible rfl
    | (extract_lets +onlyGivenNames s1
       have hs : State.fixed s1 = State.fixed x0 := by
         first | (simp [s1, *]; done) | (unfold s1; (repeat' first | with_reducible rfl | intro _ | with_reducible refine State.each_fixed_trans ?_ ?_ | split | (simp [*]; done)); done)
       clear_value s1)
    | (extract_lets +onlyGivenNames s1; clear_value s1)
    | intro _ | with_reducible refine State.each_fixed_trans ?_ ?_ | split | (simp [*]; done) | refine (pair_fixed ‹_› rfl).trans ?_
    | refine (State.newEntry_fixed _ _ _ _ ‹_›).trans ?_)

theorem State.leapChange_fixed (x0 : State) (x1 : Bytes) (x2 : ℤ) : ∀ u, @State.leapChange x0 x1 x2 = .ok u → State.fixed u = State.fixed x0 := by
  unfold State.leapChange
  intros
  rename_i h
  try simp only [bind, pure, Except.pure, Option.map_eq_some_iff] at h
  repeat' first
    | exact answer_fixed _ _ _ _ h
    | (replace h := Except.bind_ok h; rcases h with ⟨_, h0, h⟩)
    | (rcases h with ⟨_, h0, h⟩)
    | (extract_lets +onlyGivenNames s1 at h
       have hs : State.fixed s1 = State.fixed x0 := by
         first
           | (simp [s1, *]; done)
           | (unfold s1; (repeat' first | with_reducible rfl | intro _ | with_reducible refine State.each_fixed_trans ?_ ?_ | split | (simp [*]; done)); done)
       clear_value s1)
    | (extract_lets +onlyGivenNames s1 at h; clear_value s1)
    | (split at h; skip)
    | (injection h; done)
    | (injection h with h h1; subst h1)
    | (injection h with h; subst h)
    | (injection h with h)
  all_goals repeat' first
    | with_reducible rfl
    | (simp [*]; done)
    | assumption
    | refine (pair_fixed ‹_› rfl).trans ?_
    | refine (triple_fixed ‹_› rfl).trans ?_
    | refine (State.newEntry_fixed _ _ _ _ ‹_›).trans ?_
    | refine (State.beginRecord_fixed _ _ _ _ _ ‹_›).trans ?_
    | refine (State.takeRecordId_fixed _ _ _ ‹_›).trans ?_
    | refine (State.takePages_fixed _ _ _ _ _ _ ‹_›).trans ?_
    | refine (State.sizeRing_fixed _ _ _ _ _ _ ‹_›).trans ?_
    | refine (State.startWork_fixed _ _ _ _ _ _ ‹_›).trans ?_
    | refine (State.doneAtOnce_fixed _ _ _ _ _ _ ‹_›).trans ?_
    | refine (State.newItem_fixed _ _ _ _ _ _ _ ‹_›).trans ?_
    | intro _
    | with_reducible refine State.each_fixed_trans ?_ ?_
    | (split; skip)
    | (simp; skip)

@[simp] theorem State.boundaryAlign_fixed (x0 : State) : State.fixed (@State.boundaryAlign x0) = State.fixed x0 := by
  unfold State.boundaryAlign
  (repeat' first
    | with_reducible rfl
    | (extract_lets +onlyGivenNames s1; have hs : State.fixed s1 = State.fixed x0 := by (simp [s1, *]; done)
       clear_value s1)
    | (extract_lets +onlyGivenNames s1; clear_value s1)
    | intro _ | with_reducible refine State.each_fixed_trans ?_ ?_ | split | (simp [*]; done))

@[simp] theorem State.forceHoldover_fixed (x0 : State) (x1 : Bool) : State.fixed (@State.forceHoldover x0 x1) = State.fixed x0 := by
  unfold State.forceHoldover
  (repeat' first
    | with_reducible rfl
    | (extract_lets +onlyGivenNames s1; have hs : State.fixed s1 = State.fixed x0 := by (simp [s1, *]; done)
       clear_value s1)
    | (extract_lets +onlyGivenNames s1; clear_value s1)
    | intro _ | with_reducible refine State.each_fixed_trans ?_ ?_ | split | (simp [*]; done))

theorem timeGetCmd_run_fixed (f : Frame) (s : State) : ∀ a u, timeGetCmd.run f s = .ok (a, u) → u.fixed = s.fixed := by
  unfold timeGetCmd; dsimp only; intro a u h; exact answer_fixed _ _ _ _ h

theorem timebaseConfigCmd_run_fixed (f : Frame) (s : State) : ∀ a u, timebaseConfigCmd.run f s = .ok (a, u) → u.fixed = s.fixed := by
  unfold timebaseConfigCmd; dsimp only; intro a u h; exact answer_fixed _ _ _ _ h

theorem timebaseConfigCmd_apply_fixed (f : Frame) (s : State) : ∀ u, timebaseConfigCmd.apply f s = .ok u → u.fixed = s.fixed := by
  unfold timebaseConfigCmd; dsimp only; intro u h; refine ok_state h ?_; simp

theorem timeSetCmd_run_fixed (f : Frame) (s : State) : ∀ a u, timeSetCmd.run f s = .ok (a, u) → u.fixed = s.fixed := by
  unfold timeSetCmd; dsimp only; intro a u h; exact answer_fixed _ _ _ _ h

theorem timeSetCmd_apply_fixed (f : Frame) (s : State) : ∀ u, timeSetCmd.apply f s = .ok u → u.fixed = s.fixed := by
  unfold timeSetCmd; dsimp only; intro u h
  (repeat' split at h) <;> first | (injection h; done) | (refine ok_state h ?_; simp; done)

theorem leapScheduleCmd_run_fixed (f : Frame) (s : State) : ∀ a u, leapScheduleCmd.run f s = .ok (a, u) → u.fixed = s.fixed := by
  unfold leapScheduleCmd; dsimp only; intro a u h; exact answer_fixed _ _ _ _ h

theorem leapScheduleCmd_apply_fixed (f : Frame) (s : State) : ∀ u, leapScheduleCmd.apply f s = .ok u → u.fixed = s.fixed := by
  intro u h
  exact State.leapChange_fixed _ _ _ _ h

theorem timeAlignCmd_run_fixed (f : Frame) (s : State) : ∀ a u, timeAlignCmd.run f s = .ok (a, u) → u.fixed = s.fixed := by
  unfold timeAlignCmd; dsimp only; intro a u h; exact answer_fixed _ _ _ _ h

theorem timeAlignCmd_apply_fixed (f : Frame) (s : State) : ∀ u, timeAlignCmd.apply f s = .ok u → u.fixed = s.fixed := by
  unfold timeAlignCmd; dsimp only; intro u h
  (repeat' split at h) <;> first | (injection h; done) | (refine ok_state h ?_; simp; done)

theorem timeConvertCmd_run_fixed (f : Frame) (s : State) : ∀ a u, timeConvertCmd.run f s = .ok (a, u) → u.fixed = s.fixed := by
  unfold timeConvertCmd; dsimp only; intro a u h
  (repeat' split at h) <;> first | (injection h; done) | (refine ok_pair h ?_; simp; done)

theorem holdoverForceCmd_run_fixed (f : Frame) (s : State) : ∀ a u, holdoverForceCmd.run f s = .ok (a, u) → u.fixed = s.fixed := by
  unfold holdoverForceCmd; dsimp only; intro a u h; exact answer_fixed _ _ _ _ h

theorem holdoverForceCmd_apply_fixed (f : Frame) (s : State) : ∀ u, holdoverForceCmd.apply f s = .ok u → u.fixed = s.fixed := by
  unfold holdoverForceCmd; dsimp only; intro u h; refine ok_state h ?_; simp

theorem leapTableGetCmd_run_fixed (f : Frame) (s : State) : ∀ a u, leapTableGetCmd.run f s = .ok (a, u) → u.fixed = s.fixed := by
  unfold leapTableGetCmd; dsimp only; intro a u h; exact answer_fixed _ _ _ _ h

/-! ## Conversion -/

@[simp] theorem State.definingChange_fixed (x0 : State) (x1 : ℕ) : State.fixed (@State.definingChange x0 x1) = State.fixed x0 := by
  unfold State.definingChange
  (repeat' first
    | with_reducible rfl
    | (extract_lets +onlyGivenNames s1
       have hs : State.fixed s1 = State.fixed x0 := by
         first | (simp [s1, *]; done) | (unfold s1; (repeat' first | with_reducible rfl | intro _ | with_reducible refine State.each_fixed_trans ?_ ?_ | split | (simp [*]; done)); done)
       clear_value s1)
    | (extract_lets +onlyGivenNames s1; clear_value s1)
    | intro _ | with_reducible refine State.each_fixed_trans ?_ ?_ | split | (simp [*]; done) | refine (pair_fixed ‹_› rfl).trans ?_
    | refine (State.newEntry_fixed _ _ _ _ ‹_›).trans ?_)

@[simp] theorem State.logDither_fixed (x0 : State) (x1 : ℕ) : State.fixed (@State.logDither x0 x1) = State.fixed x0 := by
  simp [State.logDither]

@[simp] theorem State.setFrontEnd_fixed (x0 : State) (x1 : ℕ) (x2 : FeCfg) : State.fixed (@State.setFrontEnd x0 x1 x2) = State.fixed x0 := by
  unfold State.setFrontEnd
  (repeat' first
    | with_reducible rfl
    | (extract_lets +onlyGivenNames s1
       have hs : State.fixed s1 = State.fixed x0 := by
         first | (simp [s1, *]; done) | (unfold s1; (repeat' first | with_reducible rfl | intro _ | with_reducible refine State.each_fixed_trans ?_ ?_ | split | (simp [*]; done)); done)
       clear_value s1)
    | (extract_lets +onlyGivenNames s1; clear_value s1)
    | intro _ | with_reducible refine State.each_fixed_trans ?_ ?_ | split | (simp [*]; done) | refine (pair_fixed ‹_› rfl).trans ?_
    | refine (State.newEntry_fixed _ _ _ _ ‹_›).trans ?_)

@[simp] theorem State.setComparator_fixed (x0 : State) (x1 : ℕ) (x2 : CompCfg) : State.fixed (@State.setComparator x0 x1 x2) = State.fixed x0 := by
  unfold State.setComparator
  (repeat' first
    | with_reducible rfl
    | (extract_lets +onlyGivenNames s1
       have hs : State.fixed s1 = State.fixed x0 := by
         first | (simp [s1, *]; done) | (unfold s1; (repeat' first | with_reducible rfl | intro _ | with_reducible refine State.each_fixed_trans ?_ ?_ | split | (simp [*]; done)); done)
       clear_value s1)
    | (extract_lets +onlyGivenNames s1; clear_value s1)
    | intro _ | with_reducible refine State.each_fixed_trans ?_ ?_ | split | (simp [*]; done) | refine (pair_fixed ‹_› rfl).trans ?_
    | refine (State.newEntry_fixed _ _ _ _ ‹_›).trans ?_)

@[simp] theorem State.patchMarker_fixed (x0 : State) (x1 : ℕ) (x2 : Bool) : State.fixed (@State.patchMarker x0 x1 x2) = State.fixed x0 := by
  simp [State.patchMarker]

@[simp] theorem effectComparatorMaskEnd_fixed (x0 : Fin 128) (x1 : Bool) (x2 : State) : State.fixed (@effectComparatorMaskEnd x0 x1 x2) = State.fixed x2 := by
  unfold effectComparatorMaskEnd
  (repeat' first
    | with_reducible rfl
    | (extract_lets +onlyGivenNames s1; have hs : State.fixed s1 = State.fixed x2 := by (simp [s1, *]; done)
       clear_value s1)
    | (extract_lets +onlyGivenNames s1; clear_value s1)
    | intro _ | with_reducible refine State.each_fixed_trans ?_ ?_ | split | (simp [*]; done))

@[simp] theorem effectComparatorFault_fixed (x0 : Fin 128) (x1 : State) : State.fixed (@effectComparatorFault x0 x1) = State.fixed x1 := by
  unfold effectComparatorFault
  (repeat' first
    | with_reducible rfl
    | (extract_lets +onlyGivenNames s1; have hs : State.fixed s1 = State.fixed x1 := by (simp [s1, *]; done)
       clear_value s1)
    | (extract_lets +onlyGivenNames s1; clear_value s1)
    | intro _ | with_reducible refine State.each_fixed_trans ?_ ?_ | split | (simp [*]; done))

@[simp] theorem State.changeCoefficients_fixed (x0 : State) (x1 : ℕ) (x2 : Channel → Channel) : State.fixed (@State.changeCoefficients x0 x1 x2) = State.fixed x0 := by
  simp [State.changeCoefficients]

@[simp] theorem State.noSpare_fixed (x0 : State) (x1 : ℕ) (x2 : ℕ) (x3 : ℕ) : State.fixed (@State.noSpare x0 x1 x2 x3) = State.fixed x0 := by
  unfold State.noSpare
  (repeat' first
    | with_reducible rfl
    | (extract_lets +onlyGivenNames s1
       have hs : State.fixed s1 = State.fixed x0 := by
         first | (simp [s1, *]; done) | (unfold s1; (repeat' first | with_reducible rfl | intro _ | with_reducible refine State.each_fixed_trans ?_ ?_ | split | (simp [*]; done)); done)
       clear_value s1)
    | (extract_lets +onlyGivenNames s1; clear_value s1)
    | intro _ | with_reducible refine State.each_fixed_trans ?_ ?_ | split | (simp [*]; done) | refine (pair_fixed ‹_› rfl).trans ?_
    | refine (State.newEntry_fixed _ _ _ _ ‹_›).trans ?_)

@[simp] theorem State.declareFaulty_fixed (x0 : State) (x1 : ℕ) (x2 : Fin 9) (x3 : SliceDetection) : State.fixed (@State.declareFaulty x0 x1 x2 x3) = State.fixed x0 := by
  unfold State.declareFaulty
  (repeat' first
    | with_reducible rfl
    | (extract_lets +onlyGivenNames s1
       have hs : State.fixed s1 = State.fixed x0 := by
         first | (simp [s1, *]; done) | (unfold s1; (repeat' first | with_reducible rfl | intro _ | with_reducible refine State.each_fixed_trans ?_ ?_ | split | (simp [*]; done)); done)
       clear_value s1)
    | (extract_lets +onlyGivenNames s1; clear_value s1)
    | intro _ | with_reducible refine State.each_fixed_trans ?_ ?_ | split | (simp [*]; done) | refine (pair_fixed ‹_› rfl).trans ?_
    | refine (State.newEntry_fixed _ _ _ _ ‹_›).trans ?_)

@[simp] theorem effectSliceFaultDetect_fixed (x0 : Fin 128) (x1 : Fin 9) (x2 : SliceDetection) (x3 : State) : State.fixed (@effectSliceFaultDetect x0 x1 x2 x3) = State.fixed x3 := by
  unfold effectSliceFaultDetect; (repeat' split) <;> simp

@[simp] theorem effectShadowCheckDone_fixed (x0 : Fin 128) (x1 : Bool) (x2 : Bool) (x3 : State) : State.fixed (@effectShadowCheckDone x0 x1 x2 x3) = State.fixed x3 := by
  unfold effectShadowCheckDone
  (repeat' first
    | with_reducible rfl
    | (extract_lets +onlyGivenNames s1
       have hs : State.fixed s1 = State.fixed x3 := by
         first | (simp [s1, *]; done) | (unfold s1; (repeat' first | with_reducible rfl | intro _ | with_reducible refine State.each_fixed_trans ?_ ?_ | split | (simp [*]; done)); done)
       clear_value s1)
    | (extract_lets +onlyGivenNames s1; clear_value s1)
    | intro _ | with_reducible refine State.each_fixed_trans ?_ ?_ | split | (simp [*]; done) | refine (pair_fixed ‹_› rfl).trans ?_
    | refine (State.newEntry_fixed _ _ _ _ ‹_›).trans ?_)

@[simp] theorem effectShadowSlewEnd_fixed (x0 : Fin 128) (x1 : State) : State.fixed (@effectShadowSlewEnd x0 x1) = State.fixed x1 := by
  simp [effectShadowSlewEnd]

@[simp] theorem State.restoreSlice_fixed (x0 : State) (x1 : ℕ) : State.fixed (@State.restoreSlice x0 x1) = State.fixed x0 := by
  simp [State.restoreSlice]

theorem channelConfigCmd_run_fixed (f : Frame) (s : State) : ∀ a u, channelConfigCmd.run f s = .ok (a, u) → u.fixed = s.fixed := by
  unfold channelConfigCmd; dsimp only; intro a u h; exact answer_fixed _ _ _ _ h

theorem channelConfigCmd_apply_fixed (f : Frame) (s : State) : ∀ u, channelConfigCmd.apply f s = .ok u → u.fixed = s.fixed := by
  unfold channelConfigCmd
  dsimp only
  intros
  rename_i h
  try simp only [bind, pure, Except.pure, Option.map_eq_some_iff] at h
  repeat' first
    | exact answer_fixed _ _ _ _ h
    | (replace h := Except.bind_ok h; rcases h with ⟨_, h0, h⟩)
    | (rcases h with ⟨_, h0, h⟩)
    | (extract_lets +onlyGivenNames s1 at h
       have hs : State.fixed s1 = State.fixed s := by
         first
           | (simp [s1, *]; done)
           | (unfold s1; (repeat' first | with_reducible rfl | intro _ | with_reducible refine State.each_fixed_trans ?_ ?_ | split | (simp [*]; done)); done)
       clear_value s1)
    | (extract_lets +onlyGivenNames s1 at h; clear_value s1)
    | (split at h; skip)
    | (injection h; done)
    | (injection h with h h1; subst h1)
    | (injection h with h; subst h)
    | (injection h with h)
  all_goals repeat' first
    | with_reducible rfl
    | (simp [*]; done)
    | assumption
    | refine (pair_fixed ‹_› rfl).trans ?_
    | refine (triple_fixed ‹_› rfl).trans ?_
    | refine (State.newEntry_fixed _ _ _ _ ‹_›).trans ?_
    | refine (State.beginRecord_fixed _ _ _ _ _ ‹_›).trans ?_
    | refine (State.takeRecordId_fixed _ _ _ ‹_›).trans ?_
    | refine (State.takePages_fixed _ _ _ _ _ _ ‹_›).trans ?_
    | refine (State.sizeRing_fixed _ _ _ _ _ _ ‹_›).trans ?_
    | refine (State.startWork_fixed _ _ _ _ _ _ ‹_›).trans ?_
    | refine (State.doneAtOnce_fixed _ _ _ _ _ _ ‹_›).trans ?_
    | refine (State.newItem_fixed _ _ _ _ _ _ _ ‹_›).trans ?_
    | intro _
    | with_reducible refine State.each_fixed_trans ?_ ?_
    | (split; skip)
    | (simp; skip)

theorem comparatorConfigCmd_run_fixed (f : Frame) (s : State) : ∀ a u, comparatorConfigCmd.run f s = .ok (a, u) → u.fixed = s.fixed := by
  unfold comparatorConfigCmd; dsimp only; intro a u h; exact answer_fixed _ _ _ _ h

theorem comparatorConfigCmd_apply_fixed (f : Frame) (s : State) : ∀ u, comparatorConfigCmd.apply f s = .ok u → u.fixed = s.fixed := by
  unfold comparatorConfigCmd
  dsimp only
  intros
  rename_i h
  try simp only [bind, pure, Except.pure, Option.map_eq_some_iff] at h
  repeat' first
    | exact answer_fixed _ _ _ _ h
    | (replace h := Except.bind_ok h; rcases h with ⟨_, h0, h⟩)
    | (rcases h with ⟨_, h0, h⟩)
    | (extract_lets +onlyGivenNames s1 at h
       have hs : State.fixed s1 = State.fixed s := by
         first
           | (simp [s1, *]; done)
           | (unfold s1; (repeat' first | with_reducible rfl | intro _ | with_reducible refine State.each_fixed_trans ?_ ?_ | split | (simp [*]; done)); done)
       clear_value s1)
    | (extract_lets +onlyGivenNames s1 at h; clear_value s1)
    | (split at h; skip)
    | (injection h; done)
    | (injection h with h h1; subst h1)
    | (injection h with h; subst h)
    | (injection h with h)
  all_goals repeat' first
    | with_reducible rfl
    | (simp [*]; done)
    | assumption
    | refine (pair_fixed ‹_› rfl).trans ?_
    | refine (triple_fixed ‹_› rfl).trans ?_
    | refine (State.newEntry_fixed _ _ _ _ ‹_›).trans ?_
    | refine (State.beginRecord_fixed _ _ _ _ _ ‹_›).trans ?_
    | refine (State.takeRecordId_fixed _ _ _ ‹_›).trans ?_
    | refine (State.takePages_fixed _ _ _ _ _ _ ‹_›).trans ?_
    | refine (State.sizeRing_fixed _ _ _ _ _ _ ‹_›).trans ?_
    | refine (State.startWork_fixed _ _ _ _ _ _ ‹_›).trans ?_
    | refine (State.doneAtOnce_fixed _ _ _ _ _ _ ‹_›).trans ?_
    | refine (State.newItem_fixed _ _ _ _ _ _ _ ‹_›).trans ?_
    | intro _
    | with_reducible refine State.each_fixed_trans ?_ ?_
    | (split; skip)
    | (simp; skip)

theorem rotationConfigCmd_run_fixed (f : Frame) (s : State) : ∀ a u, rotationConfigCmd.run f s = .ok (a, u) → u.fixed = s.fixed := by
  unfold rotationConfigCmd; dsimp only; intro a u h; exact answer_fixed _ _ _ _ h

theorem rotationConfigCmd_apply_fixed (f : Frame) (s : State) : ∀ u, rotationConfigCmd.apply f s = .ok u → u.fixed = s.fixed := by
  unfold rotationConfigCmd; dsimp only; intro u h; refine ok_state h ?_; simp

theorem channelStatusGetCmd_run_fixed (f : Frame) (s : State) : ∀ a u, channelStatusGetCmd.run f s = .ok (a, u) → u.fixed = s.fixed := by
  unfold channelStatusGetCmd; dsimp only; intro a u h; exact ok_pair h rfl

theorem delayTableGetCmd_run_fixed (f : Frame) (s : State) : ∀ a u, delayTableGetCmd.run f s = .ok (a, u) → u.fixed = s.fixed := by
  unfold delayTableGetCmd; dsimp only; intro a u h; exact answer_fixed _ _ _ _ h

/-! ## Calibration -/

@[simp] theorem State.declareLimits_fixed (x0 : State) (x1 : ℕ) (x2 : List Terms) : State.fixed (@State.declareLimits x0 x1 x2) = State.fixed x0 := by
  unfold State.declareLimits
  (repeat' first | with_reducible rfl | intro _ | with_reducible refine State.each_fixed_trans ?_ ?_ | split | (simp; done))

@[simp] theorem effectCalBlockEnd_fixed (x0 : Fin 128) (x1 : BitVec 4) (x2 : BlockEnd) (x3 : State) : State.fixed (@effectCalBlockEnd x0 x1 x2 x3) = State.fixed x3 := by
  unfold effectCalBlockEnd
  (repeat' first
    | with_reducible rfl
    | (extract_lets +onlyGivenNames s1; have hs : State.fixed s1 = State.fixed x3 := by (simp [s1, *]; done)
       clear_value s1)
    | (extract_lets +onlyGivenNames s1; clear_value s1)
    | intro _ | with_reducible refine State.each_fixed_trans ?_ ?_ | split | (simp [*]; done))

@[simp] theorem State.stageCoefficients_fixed (x0 : State) (x1 : Fin 128) (x2 : List Terms) (x3 : List Terms) : State.fixed (@State.stageCoefficients x0 x1 x2 x3) = State.fixed x0 := by
  unfold State.stageCoefficients; (repeat' split) <;> simp

@[simp] theorem State.ensembleResult_fixed (x0 : State) (x1 : Fin 128) (x2 : WindowEstimate) : State.fixed (@State.ensembleResult x0 x1 x2) = State.fixed x0 := by
  unfold State.ensembleResult
  (repeat' first
    | with_reducible rfl
    | (extract_lets +onlyGivenNames s1
       have hs : State.fixed s1 = State.fixed x0 := by
         first | (simp [s1, *]; done) | (unfold s1; (repeat' first | with_reducible rfl | intro _ | with_reducible refine State.each_fixed_trans ?_ ?_ | split | (simp [*]; done)); done)
       clear_value s1)
    | (extract_lets +onlyGivenNames s1; clear_value s1)
    | intro _ | with_reducible refine State.each_fixed_trans ?_ ?_ | split | (simp [*]; done) | refine (pair_fixed ‹_› rfl).trans ?_
    | refine (State.newEntry_fixed _ _ _ _ ‹_›).trans ?_)

@[simp] theorem effectEnsembleWindowEnd_fixed (x0 : Fin 128) (x1 : WindowEstimate) (x2 : State) : State.fixed (@effectEnsembleWindowEnd x0 x1 x2) = State.fixed x2 := by
  unfold effectEnsembleWindowEnd
  (repeat' first
    | with_reducible rfl
    | (extract_lets +onlyGivenNames s1; have hs : State.fixed s1 = State.fixed x2 := by (simp [s1, *]; done)
       clear_value s1)
    | (extract_lets +onlyGivenNames s1; clear_value s1)
    | intro _ | with_reducible refine State.each_fixed_trans ?_ ?_ | split | (simp [*]; done))

@[simp] theorem effectTempSampleTick_fixed (x0 : State) : State.fixed (@effectTempSampleTick x0) = State.fixed x0 := by
  unfold effectTempSampleTick
  repeat' first
    | with_reducible rfl
    | (extract_lets +onlyGivenNames s1
       have hs : State.fixed s1 = State.fixed x0 := by
         first
           | (simp [s1, *]; done)
           | (unfold s1; (repeat' first | with_reducible rfl | intro _ | with_reducible refine State.each_fixed_trans ?_ ?_ | split | (simp [*]; done)); done)
       clear_value s1)
    | (extract_lets +onlyGivenNames s1; clear_value s1)
    | intro _
    | with_reducible refine State.each_fixed_trans ?_ ?_
    | (split; skip)
    | (simp [*]; done)
    | assumption
    | refine (pair_fixed ‹_› rfl).trans ?_
    | refine (triple_fixed ‹_› rfl).trans ?_
    | refine (State.newEntry_fixed _ _ _ _ ‹_›).trans ?_
    | refine (State.beginRecord_fixed _ _ _ _ _ ‹_›).trans ?_
    | refine (State.finishEnded_fixed _ _ _ _ ‹_›).trans ?_
    | refine (State.takeRecordId_fixed _ _ _ ‹_›).trans ?_
    | refine (State.takePages_fixed _ _ _ _ _ _ ‹_›).trans ?_
    | refine (State.sizeRing_fixed _ _ _ _ _ _ ‹_›).trans ?_
    | refine (State.startWork_fixed _ _ _ _ _ _ ‹_›).trans ?_
    | refine (State.applySteward_fixed _ _ _ _ ‹_›).trans ?_
    | refine (State.applyStage_fixed _ _ _ _ ‹_›).trans ?_
    | (simp; skip)

@[simp] theorem State.startRun_fixed (x0 : State) : State.fixed (@State.startRun x0) = State.fixed x0 := by
  unfold State.startRun
  (repeat' first
    | with_reducible rfl
    | (extract_lets +onlyGivenNames s1
       have hs : State.fixed s1 = State.fixed x0 := by
         first | (simp [s1, *]; done) | (unfold s1; (repeat' first | with_reducible rfl | intro _ | with_reducible refine State.each_fixed_trans ?_ ?_ | split | (simp [*]; done)); done)
       clear_value s1)
    | (extract_lets +onlyGivenNames s1; clear_value s1)
    | intro _ | with_reducible refine State.each_fixed_trans ?_ ?_ | split | (simp [*]; done) | refine (pair_fixed ‹_› rfl).trans ?_
    | refine (State.newEntry_fixed _ _ _ _ ‹_›).trans ?_)

@[simp] theorem State.failSet_fixed (x0 : State) (x1 : ℕ) (x2 : ℕ) : State.fixed (@State.failSet x0 x1 x2) = State.fixed x0 := by
  unfold State.failSet; (repeat' split) <;> simp

@[simp] theorem State.writeSets_fixed (x0 : State) (x1 : ℕ) (x2 : ℤ) (x3 : Bool × Bool × Bool × Bool) (x4 : WindowEstimate) (x5 : ℕ → Bool) : State.fixed (@State.writeSets x0 x1 x2 x3 x4 x5) = State.fixed x0 := by
  unfold State.writeSets
  (repeat' first | with_reducible rfl | intro _ | with_reducible refine State.each_fixed_trans ?_ ?_ | split | (simp; done))

@[simp] theorem State.runChannel_fixed (x0 : State) (x1 : CalRun) (x2 : ℕ) (x3 : WindowEstimate) (x4 : ℕ → Bool) : State.fixed (@State.runChannel x0 x1 x2 x3 x4) = State.fixed x0 := by
  unfold State.runChannel
  (repeat' first
    | with_reducible rfl
    | (extract_lets +onlyGivenNames s1; have hs : State.fixed s1 = State.fixed x0 := by (simp [s1, *]; done)
       clear_value s1)
    | (extract_lets +onlyGivenNames s1; clear_value s1)
    | intro _ | with_reducible refine State.each_fixed_trans ?_ ?_ | split | (simp [*]; done))

@[simp] theorem effectCalRunWindowEnd_fixed (x0 : RunWindow) (x1 : State) : State.fixed (@effectCalRunWindowEnd x0 x1) = State.fixed x1 := by
  unfold effectCalRunWindowEnd
  (repeat' first
    | with_reducible rfl
    | (extract_lets +onlyGivenNames s1
       have hs : State.fixed s1 = State.fixed x1 := by
         first | (simp [s1, *]; done) | (unfold s1; (repeat' first | with_reducible rfl | intro _ | with_reducible refine State.each_fixed_trans ?_ ?_ | split | (simp [*]; done)); done)
       clear_value s1)
    | (extract_lets +onlyGivenNames s1; clear_value s1)
    | intro _ | with_reducible refine State.each_fixed_trans ?_ ?_ | split | (simp [*]; done) | refine (pair_fixed ‹_› rfl).trans ?_
    | refine (State.newEntry_fixed _ _ _ _ ‹_›).trans ?_)

@[simp] theorem State.completeRun_fixed (x0 : State) : State.fixed (@State.completeRun x0) = State.fixed x0 := by
  unfold State.completeRun
  (repeat' first
    | with_reducible rfl
    | (extract_lets +onlyGivenNames s1
       have hs : State.fixed s1 = State.fixed x0 := by
         first | (simp [s1, *]; done) | (unfold s1; (repeat' first | with_reducible rfl | intro _ | with_reducible refine State.each_fixed_trans ?_ ?_ | split | (simp [*]; done)); done)
       clear_value s1)
    | (extract_lets +onlyGivenNames s1; clear_value s1)
    | intro _ | with_reducible refine State.each_fixed_trans ?_ ?_ | split | (simp [*]; done) | refine (pair_fixed ‹_› rfl).trans ?_
    | refine (State.newEntry_fixed _ _ _ _ ‹_›).trans ?_)

@[simp] theorem effectCalSetCheck_fixed (x0 : List (Fin 128 × Fin 5)) (x1 : State) : State.fixed (@effectCalSetCheck x0 x1) = State.fixed x1 := by
  unfold effectCalSetCheck
  (repeat' first | with_reducible rfl | intro _ | with_reducible refine State.each_fixed_trans ?_ ?_ | split | (simp; done))

@[simp] theorem State.dueHandovers_fixed (x0 : State) (x1 : ℕ) : State.fixed (@State.dueHandovers x0 x1).2 = State.fixed x0 := by
  unfold State.dueHandovers
  (repeat' first | with_reducible rfl | intro _ | with_reducible refine State.each_fixed_trans ?_ ?_ | split | (simp; done))

@[simp] theorem State.applySubstitute_fixed (x0 : State) (x1 : ℕ) (x2 : Fin 9) : State.fixed (@State.applySubstitute x0 x1 x2) = State.fixed x0 := by
  unfold State.applySubstitute
  (repeat' first
    | with_reducible rfl
    | (extract_lets +onlyGivenNames s1; have hs : State.fixed s1 = State.fixed x0 := by (simp [s1, *]; done)
       clear_value s1)
    | (extract_lets +onlyGivenNames s1; clear_value s1)
    | intro _ | with_reducible refine State.each_fixed_trans ?_ ?_ | split | (simp [*]; done))

@[simp] theorem State.applyHandover_fixed (x0 : State) (x1 : ℕ) : State.fixed (@State.applyHandover x0 x1) = State.fixed x0 := by
  unfold State.applyHandover
  (repeat' first
    | with_reducible rfl
    | (extract_lets +onlyGivenNames s1; have hs : State.fixed s1 = State.fixed x0 := by (simp [s1, *]; done)
       clear_value s1)
    | (extract_lets +onlyGivenNames s1; clear_value s1)
    | intro _ | with_reducible refine State.each_fixed_trans ?_ ?_ | split | (simp [*]; done))

@[simp] theorem State.applyMgmt_fixed (x0 : State) (x1 : MgmtChange) : State.fixed (@State.applyMgmt x0 x1) = State.fixed x0 := by
  unfold State.applyMgmt; (repeat' split) <;> simp

@[simp] theorem State.calLogWrite_fixed (x0 : State) (x1 : U48) (x2 : List MgmtChange) : State.fixed (@State.calLogWrite x0 x1 x2) = State.fixed x0 := by
  unfold State.calLogWrite
  (repeat' first
    | with_reducible rfl
    | (extract_lets +onlyGivenNames s1; have hs : State.fixed s1 = State.fixed x0 := by (simp [s1, *]; done)
       clear_value s1)
    | (extract_lets +onlyGivenNames s1; clear_value s1)
    | intro _ | with_reducible refine State.each_fixed_trans ?_ ?_ | split | (simp [*]; done))

@[simp] theorem State.setCalChannel_fixed (x0 : State) (x1 : ℕ) (x2 : Bool) (x3 : Bool) : State.fixed (@State.setCalChannel x0 x1 x2 x3) = State.fixed x0 := by
  unfold State.setCalChannel
  (repeat' first
    | with_reducible rfl
    | (extract_lets +onlyGivenNames s1; have hs : State.fixed s1 = State.fixed x0 := by (simp [s1, *]; done)
       clear_value s1)
    | (extract_lets +onlyGivenNames s1; clear_value s1)
    | intro _ | with_reducible refine State.each_fixed_trans ?_ ?_ | split | (simp [*]; done))

theorem sliceSubstituteCmd_run_fixed (f : Frame) (s : State) : ∀ a u, sliceSubstituteCmd.run f s = .ok (a, u) → u.fixed = s.fixed := by
  unfold sliceSubstituteCmd; dsimp only; intro a u h; exact answer_fixed _ _ _ _ h

theorem sliceSubstituteCmd_apply_fixed (f : Frame) (s : State) : ∀ u, sliceSubstituteCmd.apply f s = .ok u → u.fixed = s.fixed := by
  unfold sliceSubstituteCmd; dsimp only; intro u h
  (repeat' split at h) <;> first | (injection h; done) | (refine ok_state h ?_; simp; done)

theorem calConfigCmd_run_fixed (f : Frame) (s : State) : ∀ a u, calConfigCmd.run f s = .ok (a, u) → u.fixed = s.fixed := by
  unfold calConfigCmd; dsimp only; intro a u h; exact answer_fixed _ _ _ _ h

theorem calConfigCmd_apply_fixed (f : Frame) (s : State) : ∀ u, calConfigCmd.apply f s = .ok u → u.fixed = s.fixed := by
  unfold calConfigCmd; dsimp only; intro u h; refine ok_state h ?_; simp

theorem calChannelConfigCmd_run_fixed (f : Frame) (s : State) : ∀ a u, calChannelConfigCmd.run f s = .ok (a, u) → u.fixed = s.fixed := by
  unfold calChannelConfigCmd; dsimp only; intro a u h; exact answer_fixed _ _ _ _ h

theorem calChannelConfigCmd_apply_fixed (f : Frame) (s : State) : ∀ u, calChannelConfigCmd.apply f s = .ok u → u.fixed = s.fixed := by
  unfold calChannelConfigCmd
  dsimp only
  intros
  rename_i h
  try simp only [bind, pure, Except.pure, Option.map_eq_some_iff] at h
  repeat' first
    | exact answer_fixed _ _ _ _ h
    | (replace h := Except.bind_ok h; rcases h with ⟨_, h0, h⟩)
    | (rcases h with ⟨_, h0, h⟩)
    | (extract_lets +onlyGivenNames s1 at h
       have hs : State.fixed s1 = State.fixed s := by
         first
           | (simp [s1, *]; done)
           | (unfold s1; (repeat' first | with_reducible rfl | intro _ | with_reducible refine State.each_fixed_trans ?_ ?_ | split | (simp [*]; done)); done)
       clear_value s1)
    | (extract_lets +onlyGivenNames s1 at h; clear_value s1)
    | (split at h; skip)
    | (injection h; done)
    | (injection h with h h1; subst h1)
    | (injection h with h; subst h)
    | (injection h with h)
  all_goals repeat' first
    | with_reducible rfl
    | (simp [*]; done)
    | assumption
    | refine (pair_fixed ‹_› rfl).trans ?_
    | refine (triple_fixed ‹_› rfl).trans ?_
    | refine (State.newEntry_fixed _ _ _ _ ‹_›).trans ?_
    | refine (State.beginRecord_fixed _ _ _ _ _ ‹_›).trans ?_
    | refine (State.takeRecordId_fixed _ _ _ ‹_›).trans ?_
    | refine (State.takePages_fixed _ _ _ _ _ _ ‹_›).trans ?_
    | refine (State.sizeRing_fixed _ _ _ _ _ _ ‹_›).trans ?_
    | refine (State.startWork_fixed _ _ _ _ _ _ ‹_›).trans ?_
    | refine (State.doneAtOnce_fixed _ _ _ _ _ _ ‹_›).trans ?_
    | refine (State.newItem_fixed _ _ _ _ _ _ _ ‹_›).trans ?_
    | intro _
    | with_reducible refine State.each_fixed_trans ?_ ?_
    | (split; skip)
    | (simp; skip)

theorem calRunCmd_run_fixed (f : Frame) (s : State) : ∀ a u, calRunCmd.run f s = .ok (a, u) → u.fixed = s.fixed := by
  unfold calRunCmd
  dsimp only
  intros
  rename_i h
  try simp only [bind, pure, Except.pure, Option.map_eq_some_iff] at h
  repeat' first
    | exact answer_fixed _ _ _ _ h
    | (replace h := Except.bind_ok h; rcases h with ⟨_, h0, h⟩)
    | (rcases h with ⟨_, h0, h⟩)
    | (extract_lets +onlyGivenNames s1 at h
       have hs : State.fixed s1 = State.fixed s := by
         first
           | (simp [s1, *]; done)
           | (unfold s1; (repeat' first | with_reducible rfl | intro _ | with_reducible refine State.each_fixed_trans ?_ ?_ | split | (simp [*]; done)); done)
       clear_value s1)
    | (extract_lets +onlyGivenNames s1 at h; clear_value s1)
    | (split at h; skip)
    | (injection h; done)
    | (injection h with h h1; subst h1)
    | (injection h with h; subst h)
    | (injection h with h)
  all_goals repeat' first
    | with_reducible rfl
    | (simp [*]; done)
    | assumption
    | refine (pair_fixed ‹_› rfl).trans ?_
    | refine (triple_fixed ‹_› rfl).trans ?_
    | refine (State.newEntry_fixed _ _ _ _ ‹_›).trans ?_
    | refine (State.beginRecord_fixed _ _ _ _ _ ‹_›).trans ?_
    | refine (State.takeRecordId_fixed _ _ _ ‹_›).trans ?_
    | refine (State.takePages_fixed _ _ _ _ _ _ ‹_›).trans ?_
    | refine (State.sizeRing_fixed _ _ _ _ _ _ ‹_›).trans ?_
    | refine (State.startWork_fixed _ _ _ _ _ _ ‹_›).trans ?_
    | refine (State.doneAtOnce_fixed _ _ _ _ _ _ ‹_›).trans ?_
    | refine (State.newItem_fixed _ _ _ _ _ _ _ ‹_›).trans ?_
    | intro _
    | with_reducible refine State.each_fixed_trans ?_ ?_
    | (split; skip)
    | (simp; skip)

theorem calRunCmd_apply_fixed (f : Frame) (s : State) : ∀ u, calRunCmd.apply f s = .ok u → u.fixed = s.fixed := by
  unfold calRunCmd; dsimp only; intro u h
  (repeat' split at h) <;> first | (injection h; done) | (refine ok_state h ?_; simp; done)

theorem calStatusGetCmd_run_fixed (f : Frame) (s : State) : ∀ a u, calStatusGetCmd.run f s = .ok (a, u) → u.fixed = s.fixed := by
  unfold calStatusGetCmd; dsimp only; intro a u h; exact answer_fixed _ _ _ _ h

theorem calSetGetCmd_run_fixed (f : Frame) (s : State) : ∀ a u, calSetGetCmd.run f s = .ok (a, u) → u.fixed = s.fixed := by
  unfold calSetGetCmd; dsimp only; intro a u h; exact answer_fixed _ _ _ _ h

theorem calLogGetCmd_run_fixed (f : Frame) (s : State) : ∀ a u, calLogGetCmd.run f s = .ok (a, u) → u.fixed = s.fixed := by
  unfold calLogGetCmd; dsimp only; intro a u h; exact answer_fixed _ _ _ _ h

/-! ## Rachis -/

@[simp] theorem State.refreshFast_fixed (x0 : State) : State.fixed (@State.refreshFast x0) = State.fixed x0 := by
  unfold State.refreshFast
  (repeat' first | with_reducible rfl | intro _ | with_reducible refine State.each_fixed_trans ?_ ?_ | split | (simp; done))

@[simp] theorem State.rachisQuenchChange_fixed (x0 : Bool) (x1 : State) : State.fixed (@State.rachisQuenchChange x0 x1) = State.fixed x1 := by
  unfold State.rachisQuenchChange
  (repeat' first
    | with_reducible rfl
    | (extract_lets +onlyGivenNames s1; have hs : State.fixed s1 = State.fixed x1 := by (simp [s1, *]; done)
       clear_value s1)
    | (extract_lets +onlyGivenNames s1; clear_value s1)
    | intro _ | with_reducible refine State.each_fixed_trans ?_ ?_ | split | (simp [*]; done))

@[simp] theorem State.linkDown_fixed (x0 : State) (x1 : ℕ) : State.fixed (@State.linkDown x0 x1) = State.fixed x0 := by
  unfold State.linkDown
  (repeat' first
    | with_reducible rfl
    | (extract_lets +onlyGivenNames s1; have hs : State.fixed s1 = State.fixed x0 := by (simp [s1, *]; done)
       clear_value s1)
    | (extract_lets +onlyGivenNames s1; clear_value s1)
    | intro _ | with_reducible refine State.each_fixed_trans ?_ ?_ | split | (simp [*]; done))

@[simp] theorem effectRachisFastLevelChange_fixed (x0 : Fin 4) (x1 : Bool) (x2 : State) : State.fixed (@effectRachisFastLevelChange x0 x1 x2) = State.fixed x2 := by
  simp [effectRachisFastLevelChange]

@[simp] theorem State.discardHalf_fixed (x0 : State) (x1 : ℕ) (x2 : ℕ) : State.fixed (@State.discardHalf x0 x1 x2) = State.fixed x0 := by
  simp [State.discardHalf]

@[simp] theorem effectBurstAReceive_fixed (x0 : Fin 4) (x1 : BurstA) (x2 : State) : State.fixed (@effectBurstAReceive x0 x1 x2) = State.fixed x2 := by
  unfold effectBurstAReceive; (repeat' split) <;> simp

@[simp] theorem effectBurstATimeout_fixed (x0 : Fin 4) (x1 : State) : State.fixed (@effectBurstATimeout x0 x1) = State.fixed x1 := by
  unfold effectBurstATimeout; (repeat' split) <;> simp

@[simp] theorem effectBurstBReceive_fixed (x0 : Fin 4) (x1 : Bool) (x2 : State) : State.fixed (@effectBurstBReceive x0 x1 x2) = State.fixed x2 := by
  unfold effectBurstBReceive
  (repeat' first
    | with_reducible rfl
    | (extract_lets +onlyGivenNames s1; have hs : State.fixed s1 = State.fixed x2 := by (simp [s1, *]; done)
       clear_value s1)
    | (extract_lets +onlyGivenNames s1; clear_value s1)
    | intro _ | with_reducible refine State.each_fixed_trans ?_ ?_ | split | (simp [*]; done))

@[simp] theorem State.takeWhole_fixed (x0 : State) (x1 : ℕ) (x2 : RachisMsg) : State.fixed (@State.takeWhole x0 x1 x2).2 = State.fixed x0 := by
  unfold State.takeWhole
  (repeat' first
    | with_reducible rfl
    | (extract_lets +onlyGivenNames s1
       have hs : State.fixed s1 = State.fixed x0 := by
         first | (simp [s1, *]; done) | (unfold s1; (repeat' first | with_reducible rfl | intro _ | with_reducible refine State.each_fixed_trans ?_ ?_ | split | (simp [*]; done)); done)
       clear_value s1)
    | (extract_lets +onlyGivenNames s1; clear_value s1)
    | intro _ | with_reducible refine State.each_fixed_trans ?_ ?_ | split | (simp [*]; done) | refine (pair_fixed ‹_› rfl).trans ?_
    | refine (State.newEntry_fixed _ _ _ _ ‹_›).trans ?_)

@[simp] theorem State.breakLoop_fixed (x0 : State) (x1 : ℕ) (x2 : BitVec 5) : State.fixed (@State.breakLoop x0 x1 x2).2 = State.fixed x0 := by
  unfold State.breakLoop
  (repeat' first
    | with_reducible rfl
    | (extract_lets +onlyGivenNames s1; have hs : State.fixed s1 = State.fixed x0 := by (simp [s1, *]; done)
       clear_value s1)
    | (extract_lets +onlyGivenNames s1; clear_value s1)
    | intro _ | with_reducible refine State.each_fixed_trans ?_ ?_ | split | (simp [*]; done))

@[simp] theorem State.takeOn_fixed (x0 : State) (x1 : ℕ) (x2 : RachisMsg) (x3 : BitVec 4) : State.fixed (@State.takeOn x0 x1 x2 x3).2 = State.fixed x0 := by
  unfold State.takeOn
  split
  rename_i ok s1 h
  have h1 : s1.fixed = x0.fixed := pair_fixed h (by simp)
  clear h
  split
  · extract_lets s2
    have h2 : s2.fixed = x0.fixed := by
      simp only [s2]
      split <;> simp [h1]
    clear_value s2
    split
    rename_i keep s3 h
    have h3 : s3.fixed = x0.fixed := pair_fixed h (by simp [h2])
    dsimp only
    split
    · simp [h3]
    · exact h3
  · exact h1

@[simp] theorem effectTriggerMessage_fixed (x0 : Fin 4) (x1 : RachisMsg) (x2 : State) : State.fixed (@effectTriggerMessage x0 x1 x2) = State.fixed x2 := by
  unfold effectTriggerMessage
  split
  rename_i ok s1 h
  have h1 : s1.fixed = x2.fixed := (pair_fixed h rfl).trans (by simp)
  split
  · exact h1
  · extract_lets s2 rs
    have h2 : s2.fixed = x2.fixed := by simp [s2, h1]
    exact State.each_fixed_trans (fun s a => by simp) h2

@[simp] theorem effectSyncMessage_fixed (x0 : Fin 4) (x1 : RachisMsg) (x2 : State) : State.fixed (@effectSyncMessage x0 x1 x2) = State.fixed x2 := by
  unfold effectSyncMessage
  split
  rename_i ok s1 h
  have h1 : s1.fixed = x2.fixed := (pair_fixed h rfl).trans (by simp)
  split
  · exact h1
  · extract_lets s2 v
    have h2 : s2.fixed = x2.fixed := by simp [s2, h1]
    clear_value s2
    split
    · exact State.each_fixed_trans (fun s a => by split <;> simp) (by simp [h2])
    · simp [h2]

@[simp] theorem State.modDomain_fixed (x0 : State) (x1 : RachisMsg) (x2 : DomainCommit → DomainCommit) : State.fixed (@State.modDomain x0 x1 x2) = State.fixed x0 := by
  simp [State.modDomain]

@[simp] theorem State.reportLoss_fixed (x0 : State) (x1 : LossReport) : State.fixed (@State.reportLoss x0 x1) = State.fixed x0 := by
  unfold State.reportLoss; (repeat' split) <;> simp

@[simp] theorem State.sendLosses_fixed (x0 : State) : State.fixed (@State.sendLosses x0) = State.fixed x0 := by
  unfold State.sendLosses
  (repeat' first | with_reducible rfl | intro _ | with_reducible refine State.each_fixed_trans ?_ ?_ | split | (simp; done))

@[simp] theorem State.takeVote_fixed (x0 : State) (x1 : ℕ) (x2 : RachisMsg) (x3 : DomainCommit → DomainCommit) : State.fixed (@State.takeVote x0 x1 x2 x3) = State.fixed x0 := by
  unfold State.takeVote; (repeat' split) <;> simp

@[simp] theorem effectCommitReady_fixed (x0 : Fin 4) (x1 : RachisMsg) (x2 : State) : State.fixed (@effectCommitReady x0 x1 x2) = State.fixed x2 := by
  unfold effectCommitReady
  repeat' first
    | with_reducible rfl
    | (extract_lets +onlyGivenNames s1
       have hs : State.fixed s1 = State.fixed x2 := by
         first
           | (simp [s1, *]; done)
           | (unfold s1; (repeat' first | with_reducible rfl | intro _ | with_reducible refine State.each_fixed_trans ?_ ?_ | split | (simp [*]; done)); done)
       clear_value s1)
    | (extract_lets +onlyGivenNames s1; clear_value s1)
    | intro _
    | with_reducible refine State.each_fixed_trans ?_ ?_
    | (split; skip)
    | (simp [*]; done)
    | assumption
    | refine (pair_fixed ‹_› rfl).trans ?_
    | refine (triple_fixed ‹_› rfl).trans ?_
    | refine (State.newEntry_fixed _ _ _ _ ‹_›).trans ?_
    | refine (State.beginRecord_fixed _ _ _ _ _ ‹_›).trans ?_
    | refine (State.finishEnded_fixed _ _ _ _ ‹_›).trans ?_
    | refine (State.takeRecordId_fixed _ _ _ ‹_›).trans ?_
    | refine (State.takePages_fixed _ _ _ _ _ _ ‹_›).trans ?_
    | refine (State.sizeRing_fixed _ _ _ _ _ _ ‹_›).trans ?_
    | refine (State.startWork_fixed _ _ _ _ _ _ ‹_›).trans ?_
    | refine (State.applySteward_fixed _ _ _ _ ‹_›).trans ?_
    | refine (State.applyStage_fixed _ _ _ _ ‹_›).trans ?_
    | (simp; skip)

@[simp] theorem effectCommitRefuse_fixed (x0 : Fin 4) (x1 : RachisMsg) (x2 : State) : State.fixed (@effectCommitRefuse x0 x1 x2) = State.fixed x2 := by
  unfold effectCommitRefuse
  repeat' first
    | with_reducible rfl
    | (extract_lets +onlyGivenNames s1
       have hs : State.fixed s1 = State.fixed x2 := by
         first
           | (simp [s1, *]; done)
           | (unfold s1; (repeat' first | with_reducible rfl | intro _ | with_reducible refine State.each_fixed_trans ?_ ?_ | split | (simp [*]; done)); done)
       clear_value s1)
    | (extract_lets +onlyGivenNames s1; clear_value s1)
    | intro _
    | with_reducible refine State.each_fixed_trans ?_ ?_
    | (split; skip)
    | (simp [*]; done)
    | assumption
    | refine (pair_fixed ‹_› rfl).trans ?_
    | refine (triple_fixed ‹_› rfl).trans ?_
    | refine (State.newEntry_fixed _ _ _ _ ‹_›).trans ?_
    | refine (State.beginRecord_fixed _ _ _ _ _ ‹_›).trans ?_
    | refine (State.finishEnded_fixed _ _ _ _ ‹_›).trans ?_
    | refine (State.takeRecordId_fixed _ _ _ ‹_›).trans ?_
    | refine (State.takePages_fixed _ _ _ _ _ _ ‹_›).trans ?_
    | refine (State.sizeRing_fixed _ _ _ _ _ _ ‹_›).trans ?_
    | refine (State.startWork_fixed _ _ _ _ _ _ ‹_›).trans ?_
    | refine (State.applySteward_fixed _ _ _ _ ‹_›).trans ?_
    | refine (State.applyStage_fixed _ _ _ _ ‹_›).trans ?_
    | (simp; skip)

@[simp] theorem State.takeDecision_fixed (x0 : State) (x1 : ℕ) (x2 : RachisMsg) (x3 : Bool) : State.fixed (@State.takeDecision x0 x1 x2 x3) = State.fixed x0 := by
  simp [State.takeDecision]

@[simp] theorem effectCommitGo_fixed (x0 : Fin 4) (x1 : RachisMsg) (x2 : State) : State.fixed (@effectCommitGo x0 x1 x2) = State.fixed x2 := by
  unfold effectCommitGo
  repeat' first
    | with_reducible rfl
    | (extract_lets +onlyGivenNames s1
       have hs : State.fixed s1 = State.fixed x2 := by
         first
           | (simp [s1, *]; done)
           | (unfold s1; (repeat' first | with_reducible rfl | intro _ | with_reducible refine State.each_fixed_trans ?_ ?_ | split | (simp [*]; done)); done)
       clear_value s1)
    | (extract_lets +onlyGivenNames s1; clear_value s1)
    | intro _
    | with_reducible refine State.each_fixed_trans ?_ ?_
    | (split; skip)
    | (simp [*]; done)
    | assumption
    | refine (pair_fixed ‹_› rfl).trans ?_
    | refine (triple_fixed ‹_› rfl).trans ?_
    | refine (State.newEntry_fixed _ _ _ _ ‹_›).trans ?_
    | refine (State.beginRecord_fixed _ _ _ _ _ ‹_›).trans ?_
    | refine (State.finishEnded_fixed _ _ _ _ ‹_›).trans ?_
    | refine (State.takeRecordId_fixed _ _ _ ‹_›).trans ?_
    | refine (State.takePages_fixed _ _ _ _ _ _ ‹_›).trans ?_
    | refine (State.sizeRing_fixed _ _ _ _ _ _ ‹_›).trans ?_
    | refine (State.startWork_fixed _ _ _ _ _ _ ‹_›).trans ?_
    | refine (State.applySteward_fixed _ _ _ _ ‹_›).trans ?_
    | refine (State.applyStage_fixed _ _ _ _ ‹_›).trans ?_
    | (simp; skip)

@[simp] theorem effectCommitAbort_fixed (x0 : Fin 4) (x1 : RachisMsg) (x2 : State) : State.fixed (@effectCommitAbort x0 x1 x2) = State.fixed x2 := by
  unfold effectCommitAbort
  repeat' first
    | with_reducible rfl
    | (extract_lets +onlyGivenNames s1
       have hs : State.fixed s1 = State.fixed x2 := by
         first
           | (simp [s1, *]; done)
           | (unfold s1; (repeat' first | with_reducible rfl | intro _ | with_reducible refine State.each_fixed_trans ?_ ?_ | split | (simp [*]; done)); done)
       clear_value s1)
    | (extract_lets +onlyGivenNames s1; clear_value s1)
    | intro _
    | with_reducible refine State.each_fixed_trans ?_ ?_
    | (split; skip)
    | (simp [*]; done)
    | assumption
    | refine (pair_fixed ‹_› rfl).trans ?_
    | refine (triple_fixed ‹_› rfl).trans ?_
    | refine (State.newEntry_fixed _ _ _ _ ‹_›).trans ?_
    | refine (State.beginRecord_fixed _ _ _ _ _ ‹_›).trans ?_
    | refine (State.finishEnded_fixed _ _ _ _ ‹_›).trans ?_
    | refine (State.takeRecordId_fixed _ _ _ ‹_›).trans ?_
    | refine (State.takePages_fixed _ _ _ _ _ _ ‹_›).trans ?_
    | refine (State.sizeRing_fixed _ _ _ _ _ _ ‹_›).trans ?_
    | refine (State.startWork_fixed _ _ _ _ _ _ ‹_›).trans ?_
    | refine (State.applySteward_fixed _ _ _ _ ‹_›).trans ?_
    | refine (State.applyStage_fixed _ _ _ _ ‹_›).trans ?_
    | (simp; skip)

@[simp] theorem effectCommitLossReport_fixed (x0 : Fin 4) (x1 : Fin 256) (x2 : U48) (x3 : Fin 32) (x4 : State) : State.fixed (@effectCommitLossReport x0 x1 x2 x3 x4) = State.fixed x4 := by
  unfold effectCommitLossReport; (repeat' split) <;> simp

@[simp] theorem State.meetPeer_fixed (x0 : State) (x1 : ℕ) (x2 : BitVec 5) : State.fixed (@State.meetPeer x0 x1 x2).2 = State.fixed x0 := by
  unfold State.meetPeer
  (repeat' first
    | with_reducible rfl
    | (extract_lets +onlyGivenNames s1; have hs : State.fixed s1 = State.fixed x0 := by (simp [s1, *]; done)
       clear_value s1)
    | (extract_lets +onlyGivenNames s1; clear_value s1)
    | intro _ | with_reducible refine State.each_fixed_trans ?_ ?_ | split | (simp [*]; done))

@[simp] theorem State.beginTraining_fixed (x0 : State) (x1 : ℕ) : State.fixed (@State.beginTraining x0 x1) = State.fixed x0 := by
  simp [State.beginTraining]

@[simp] theorem State.takeLoop_fixed (x0 : State) (x1 : ℕ) (x2 : RachisMsg) (x3 : Vt96) : State.fixed (@State.takeLoop x0 x1 x2 x3) = State.fixed x0 := by
  unfold State.takeLoop; (repeat' split) <;> simp

@[simp] theorem effectDelayRequest_fixed (x0 : Fin 4) (x1 : RachisMsg) (x2 : Vt96) (x3 : State) : State.fixed (@effectDelayRequest x0 x1 x2 x3) = State.fixed x3 := by
  unfold effectDelayRequest
  extract_lets p
  split
  rename_i ok s1 h
  have h1 : s1.fixed = x3.fixed := (pair_fixed h (State.takeWhole_fixed _ _ _))
  split
  · simp [h1]
  · split
    · exact h1
    · split
      rename_i k s2 h2
      have h3 : s2.fixed = x3.fixed := (pair_fixed h2 (State.meetPeer_fixed _ _ _)).trans ((State.beginTraining_fixed _ _).trans h1)
      split
      · simp [h3]
      · exact h3

@[simp] theorem effectDelayExchangeTimer_fixed (x0 : Fin 4) (x1 : State) : State.fixed (@effectDelayExchangeTimer x0 x1) = State.fixed x1 := by
  unfold effectDelayExchangeTimer
  extract_lets p loop s1
  have h1 : s1.fixed = x1.fixed := by
    unfold s1; split <;> simp
  clear_value s1
  split
  · rfl
  · split
    · simp [h1]
    · exact h1

@[simp] theorem State.takeDelay_fixed (x0 : State) (x1 : ℕ) (x2 : ℤ) : State.fixed (@State.takeDelay x0 x1 x2) = State.fixed x0 := by
  unfold State.takeDelay
  (repeat' first
    | with_reducible rfl
    | (extract_lets +onlyGivenNames s1; have hs : State.fixed s1 = State.fixed x0 := by (simp [s1, *]; done)
       clear_value s1)
    | (extract_lets +onlyGivenNames s1; clear_value s1)
    | intro _ | with_reducible refine State.each_fixed_trans ?_ ?_ | split | (simp [*]; done))

@[simp] theorem effectDelayResponse_fixed (x0 : Fin 4) (x1 : RachisMsg) (x2 : Vt96) (x3 : Vt96) (x4 : State) : State.fixed (@effectDelayResponse x0 x1 x2 x3 x4) = State.fixed x4 := by
  unfold effectDelayResponse
  repeat' first
    | with_reducible rfl
    | (extract_lets +onlyGivenNames s1
       have hs : State.fixed s1 = State.fixed x4 := by
         first
           | (simp [s1, *]; done)
           | (unfold s1; (repeat' first | with_reducible rfl | intro _ | with_reducible refine State.each_fixed_trans ?_ ?_ | split | (simp [*]; done)); done)
       clear_value s1)
    | (extract_lets +onlyGivenNames s1; clear_value s1)
    | intro _
    | with_reducible refine State.each_fixed_trans ?_ ?_
    | (split; skip)
    | (simp [*]; done)
    | assumption
    | refine (pair_fixed ‹_› rfl).trans ?_
    | refine (triple_fixed ‹_› rfl).trans ?_
    | refine (State.newEntry_fixed _ _ _ _ ‹_›).trans ?_
    | refine (State.beginRecord_fixed _ _ _ _ _ ‹_›).trans ?_
    | refine (State.finishEnded_fixed _ _ _ _ ‹_›).trans ?_
    | refine (State.takeRecordId_fixed _ _ _ ‹_›).trans ?_
    | refine (State.takePages_fixed _ _ _ _ _ _ ‹_›).trans ?_
    | refine (State.sizeRing_fixed _ _ _ _ _ _ ‹_›).trans ?_
    | refine (State.startWork_fixed _ _ _ _ _ _ ‹_›).trans ?_
    | refine (State.applySteward_fixed _ _ _ _ ‹_›).trans ?_
    | refine (State.applyStage_fixed _ _ _ _ ‹_›).trans ?_
    | (simp; skip)

@[simp] theorem State.followTime_fixed (x0 : State) (x1 : ℕ) (x2 : RachisMsg) (x3 : Vt96) : State.fixed (@State.followTime x0 x1 x2 x3) = State.fixed x0 := by
  unfold State.followTime
  (repeat' first
    | with_reducible rfl
    | (extract_lets +onlyGivenNames s1; have hs : State.fixed s1 = State.fixed x0 := by (simp [s1, *]; done)
       clear_value s1)
    | (extract_lets +onlyGivenNames s1; clear_value s1)
    | intro _ | with_reducible refine State.each_fixed_trans ?_ ?_ | split | (simp [*]; done))

@[simp] theorem effectTimeMessage_fixed (x0 : Fin 4) (x1 : RachisMsg) (x2 : Vt96) (x3 : State) : State.fixed (@effectTimeMessage x0 x1 x2 x3) = State.fixed x3 := by
  unfold effectTimeMessage
  extract_lets p
  split
  rename_i ok s1 h
  have h1 : s1.fixed = x3.fixed := (pair_fixed h (State.takeOn_fixed _ _ _ _))
  split
  · exact h1
  · split
    · simp [h1]
    · extract_lets s2 s3
      have h2 : s2.fixed = x3.fixed := by simp [s2, h1]
      have h3 : s3.fixed = x3.fixed := by simp [s3, h2]
      clear_value s2 s3
      split
      · split
        · exact h3
        · exact State.each_fixed_trans (fun s q => State.sendMsg_fixed _ _ _ _) h3
      · exact h2

@[simp] theorem State.sendTime_fixed (x0 : State) : State.fixed (@State.sendTime x0) = State.fixed x0 := by
  unfold State.sendTime
  split
  · exact State.each_fixed_trans (fun s q => State.sendMsg_fixed _ _ _ _) rfl
  · rfl

@[simp] theorem State.commitRoute_fixed (x0 : State) (x1 : ℕ) (x2 : RouteCfg) : State.fixed (@State.commitRoute x0 x1 x2) = State.fixed x0 := by
  unfold State.commitRoute
  (repeat' first
    | with_reducible rfl
    | (extract_lets +onlyGivenNames s1; have hs : State.fixed s1 = State.fixed x0 := by (simp [s1, *]; done)
       clear_value s1)
    | (extract_lets +onlyGivenNames s1; clear_value s1)
    | intro _ | with_reducible refine State.each_fixed_trans ?_ ?_ | split | (simp [*]; done))

@[simp] theorem State.dropFastPaths_fixed (x0 : State) : State.fixed (@State.dropFastPaths x0) = State.fixed x0 := by
  unfold State.dropFastPaths
  (repeat' first | with_reducible rfl | intro _ | with_reducible refine State.each_fixed_trans ?_ ?_ | split | (simp; done))

@[simp] theorem State.changeReference_fixed (x0 : State) : State.fixed (@State.changeReference x0) = State.fixed x0 := by
  unfold State.changeReference; (repeat' split) <;> simp

@[simp] theorem State.setRachis_fixed (x0 : State) (x1 : RachisCfg) : State.fixed (@State.setRachis x0 x1) = State.fixed x0 := by
  unfold State.setRachis
  (repeat' first
    | with_reducible rfl
    | (extract_lets +onlyGivenNames s1
       have hs : State.fixed s1 = State.fixed x0 := by
         first | (simp [s1, *]; done) | (unfold s1; (repeat' first | with_reducible rfl | intro _ | with_reducible refine State.each_fixed_trans ?_ ?_ | split | (simp [*]; done)); done)
       clear_value s1)
    | (extract_lets +onlyGivenNames s1; clear_value s1)
    | intro _ | with_reducible refine State.each_fixed_trans ?_ ?_ | split | (simp [*]; done) | refine (pair_fixed ‹_› rfl).trans ?_
    | refine (State.newEntry_fixed _ _ _ _ ‹_›).trans ?_)

theorem triggerRouteConfigCmd_run_fixed (f : Frame) (s : State) : ∀ a u, triggerRouteConfigCmd.run f s = .ok (a, u) → u.fixed = s.fixed := by
  unfold triggerRouteConfigCmd; dsimp only; intro a u h; exact answer_fixed _ _ _ _ h

theorem triggerRouteConfigCmd_apply_fixed (f : Frame) (s : State) : ∀ u, triggerRouteConfigCmd.apply f s = .ok u → u.fixed = s.fixed := by
  unfold triggerRouteConfigCmd; dsimp only; intro u h
  (repeat' split at h) <;> first | (injection h; done) | (refine ok_state h ?_; simp; done)

theorem armTriggerCmd_run_fixed (f : Frame) (s : State) : ∀ a u, armTriggerCmd.run f s = .ok (a, u) → u.fixed = s.fixed := by
  unfold armTriggerCmd
  dsimp only
  intros
  rename_i h
  try simp only [bind, pure, Except.pure, Option.map_eq_some_iff] at h
  repeat' first
    | exact answer_fixed _ _ _ _ h
    | (replace h := Except.bind_ok h; rcases h with ⟨_, h0, h⟩)
    | (rcases h with ⟨_, h0, h⟩)
    | (extract_lets +onlyGivenNames s1 at h
       have hs : State.fixed s1 = State.fixed s := by
         first
           | (simp [s1, *]; done)
           | (unfold s1; (repeat' first | with_reducible rfl | intro _ | with_reducible refine State.each_fixed_trans ?_ ?_ | split | (simp [*]; done)); done)
       clear_value s1)
    | (extract_lets +onlyGivenNames s1 at h; clear_value s1)
    | (split at h; skip)
    | (injection h; done)
    | (injection h with h h1; subst h1)
    | (injection h with h; subst h)
    | (injection h with h)
  all_goals repeat' first
    | with_reducible rfl
    | (simp [*]; done)
    | assumption
    | refine (pair_fixed ‹_› rfl).trans ?_
    | refine (triple_fixed ‹_› rfl).trans ?_
    | refine (State.newEntry_fixed _ _ _ _ ‹_›).trans ?_
    | refine (State.beginRecord_fixed _ _ _ _ _ ‹_›).trans ?_
    | refine (State.takeRecordId_fixed _ _ _ ‹_›).trans ?_
    | refine (State.takePages_fixed _ _ _ _ _ _ ‹_›).trans ?_
    | refine (State.sizeRing_fixed _ _ _ _ _ _ ‹_›).trans ?_
    | refine (State.startWork_fixed _ _ _ _ _ _ ‹_›).trans ?_
    | refine (State.doneAtOnce_fixed _ _ _ _ _ _ ‹_›).trans ?_
    | refine (State.newItem_fixed _ _ _ _ _ _ _ ‹_›).trans ?_
    | intro _
    | with_reducible refine State.each_fixed_trans ?_ ?_
    | (split; skip)
    | (simp; skip)

theorem softTriggerCmd_run_fixed (f : Frame) (s : State) : ∀ a u, softTriggerCmd.run f s = .ok (a, u) → u.fixed = s.fixed := by
  unfold softTriggerCmd; dsimp only; intro a u h; refine ok_pair h ?_; simp

theorem triggerStatusGetCmd_run_fixed (f : Frame) (s : State) : ∀ a u, triggerStatusGetCmd.run f s = .ok (a, u) → u.fixed = s.fixed := by
  unfold triggerStatusGetCmd; dsimp only; intro a u h; exact answer_fixed _ _ _ _ h

theorem trigOutConfigCmd_run_fixed (f : Frame) (s : State) : ∀ a u, trigOutConfigCmd.run f s = .ok (a, u) → u.fixed = s.fixed := by
  unfold trigOutConfigCmd; dsimp only; intro a u h; exact answer_fixed _ _ _ _ h

theorem trigOutConfigCmd_apply_fixed (f : Frame) (s : State) : ∀ u, trigOutConfigCmd.apply f s = .ok u → u.fixed = s.fixed := by
  unfold trigOutConfigCmd; dsimp only; intro u h; refine ok_state h ?_; simp

theorem routeAssignCmd_run_fixed (f : Frame) (s : State) : ∀ a u, routeAssignCmd.run f s = .ok (a, u) → u.fixed = s.fixed := by
  unfold routeAssignCmd; dsimp only; intro a u h; exact answer_fixed _ _ _ _ h

theorem routeAssignCmd_apply_fixed (f : Frame) (s : State) : ∀ u, routeAssignCmd.apply f s = .ok u → u.fixed = s.fixed := by
  unfold routeAssignCmd
  dsimp only
  intros
  rename_i h
  try simp only [bind, pure, Except.pure, Option.map_eq_some_iff] at h
  repeat' first
    | exact answer_fixed _ _ _ _ h
    | (replace h := Except.bind_ok h; rcases h with ⟨_, h0, h⟩)
    | (rcases h with ⟨_, h0, h⟩)
    | (extract_lets +onlyGivenNames s1 at h
       have hs : State.fixed s1 = State.fixed s := by
         first
           | (simp [s1, *]; done)
           | (unfold s1; (repeat' first | with_reducible rfl | intro _ | with_reducible refine State.each_fixed_trans ?_ ?_ | split | (simp [*]; done)); done)
       clear_value s1)
    | (extract_lets +onlyGivenNames s1 at h; clear_value s1)
    | (split at h; skip)
    | (injection h; done)
    | (injection h with h h1; subst h1)
    | (injection h with h; subst h)
    | (injection h with h)
  all_goals repeat' first
    | with_reducible rfl
    | (simp [*]; done)
    | assumption
    | refine (pair_fixed ‹_› rfl).trans ?_
    | refine (triple_fixed ‹_› rfl).trans ?_
    | refine (State.newEntry_fixed _ _ _ _ ‹_›).trans ?_
    | refine (State.beginRecord_fixed _ _ _ _ _ ‹_›).trans ?_
    | refine (State.takeRecordId_fixed _ _ _ ‹_›).trans ?_
    | refine (State.takePages_fixed _ _ _ _ _ _ ‹_›).trans ?_
    | refine (State.sizeRing_fixed _ _ _ _ _ _ ‹_›).trans ?_
    | refine (State.startWork_fixed _ _ _ _ _ _ ‹_›).trans ?_
    | refine (State.doneAtOnce_fixed _ _ _ _ _ _ ‹_›).trans ?_
    | refine (State.newItem_fixed _ _ _ _ _ _ _ ‹_›).trans ?_
    | intro _
    | with_reducible refine State.each_fixed_trans ?_ ?_
    | (split; skip)
    | (simp; skip)

theorem tillerLoadCmd_run_fixed (f : Frame) (s : State) : ∀ a u, tillerLoadCmd.run f s = .ok (a, u) → u.fixed = s.fixed := by
  unfold tillerLoadCmd; dsimp only; intro a u h; exact answer_fixed _ _ _ _ h

theorem tillerLoadCmd_apply_fixed (f : Frame) (s : State) : ∀ u, tillerLoadCmd.apply f s = .ok u → u.fixed = s.fixed := by
  unfold tillerLoadCmd; dsimp only; intro u h; refine ok_state h ?_; simp

theorem tillerControlCmd_run_fixed (f : Frame) (s : State) : ∀ a u, tillerControlCmd.run f s = .ok (a, u) → u.fixed = s.fixed := by
  unfold tillerControlCmd; dsimp only; intro a u h; refine ok_pair h ?_; simp

theorem rachisConfigCmd_run_fixed (f : Frame) (s : State) : ∀ a u, rachisConfigCmd.run f s = .ok (a, u) → u.fixed = s.fixed := by
  unfold rachisConfigCmd; dsimp only; intro a u h; exact answer_fixed _ _ _ _ h

theorem rachisConfigCmd_apply_fixed (f : Frame) (s : State) : ∀ u, rachisConfigCmd.apply f s = .ok u → u.fixed = s.fixed := by
  unfold rachisConfigCmd; dsimp only; intro u h; refine ok_state h ?_; simp

theorem rachisStatusGetCmd_run_fixed (f : Frame) (s : State) : ∀ a u, rachisStatusGetCmd.run f s = .ok (a, u) → u.fixed = s.fixed := by
  unfold rachisStatusGetCmd; dsimp only; intro a u h; exact answer_fixed _ _ _ _ h

theorem rachisSendCmd_run_fixed (f : Frame) (s : State) : ∀ a u, rachisSendCmd.run f s = .ok (a, u) → u.fixed = s.fixed := by
  unfold rachisSendCmd; dsimp only; intro a u h; refine ok_pair h ?_; simp

theorem rachisQuenchCmd_run_fixed (f : Frame) (s : State) : ∀ a u, rachisQuenchCmd.run f s = .ok (a, u) → u.fixed = s.fixed := by
  unfold rachisQuenchCmd; dsimp only; intro a u h; refine ok_pair h ?_; simp

/-! ## Probe -/

@[simp] theorem State.foldPhase_fixed (x0 : State) (x1 : ℕ) : State.fixed (@State.foldPhase x0 x1) = State.fixed x0 := by
  unfold State.foldPhase; (repeat' split) <;> simp

@[simp] theorem State.standProbe_fixed (x0 : State) (x1 : ℕ) (x2 : Vt96) : State.fixed (@State.standProbe x0 x1 x2) = State.fixed x0 := by
  simp [State.standProbe]

theorem State.setProbe_fixed (x0 : State) (x1 : ℕ) (x2 : ProbeCfg) : ∀ u, @State.setProbe x0 x1 x2 = .ok u → State.fixed u = State.fixed x0 := by
  unfold State.setProbe
  intros
  rename_i h
  try simp only [bind, pure, Except.pure, Option.map_eq_some_iff] at h
  repeat' first
    | exact answer_fixed _ _ _ _ h
    | (replace h := Except.bind_ok h; rcases h with ⟨_, h0, h⟩)
    | (rcases h with ⟨_, h0, h⟩)
    | (extract_lets +onlyGivenNames s1 at h
       have hs : State.fixed s1 = State.fixed x0 := by
         first
           | (simp [s1, *]; done)
           | (unfold s1; (repeat' first | with_reducible rfl | intro _ | with_reducible refine State.each_fixed_trans ?_ ?_ | split | (simp [*]; done)); done)
       clear_value s1)
    | (extract_lets +onlyGivenNames s1 at h; clear_value s1)
    | (split at h; skip)
    | (injection h; done)
    | (injection h with h h1; subst h1)
    | (injection h with h; subst h)
    | (injection h with h)
  all_goals repeat' first
    | with_reducible rfl
    | (simp [*]; done)
    | assumption
    | refine (pair_fixed ‹_› rfl).trans ?_
    | refine (triple_fixed ‹_› rfl).trans ?_
    | refine (State.newEntry_fixed _ _ _ _ ‹_›).trans ?_
    | refine (State.beginRecord_fixed _ _ _ _ _ ‹_›).trans ?_
    | refine (State.takeRecordId_fixed _ _ _ ‹_›).trans ?_
    | refine (State.takePages_fixed _ _ _ _ _ _ ‹_›).trans ?_
    | refine (State.sizeRing_fixed _ _ _ _ _ _ ‹_›).trans ?_
    | refine (State.startWork_fixed _ _ _ _ _ _ ‹_›).trans ?_
    | refine (State.doneAtOnce_fixed _ _ _ _ _ _ ‹_›).trans ?_
    | refine (State.newItem_fixed _ _ _ _ _ _ _ ‹_›).trans ?_
    | intro _
    | with_reducible refine State.each_fixed_trans ?_ ?_
    | (split; skip)
    | (simp; skip)

@[simp] theorem State.syncProbes_fixed (x0 : State) (x1 : ℕ) (x2 : ℕ) : State.fixed (@State.syncProbes x0 x1 x2) = State.fixed x0 := by
  unfold State.syncProbes
  (repeat' first
    | with_reducible rfl
    | (extract_lets +onlyGivenNames s1; have hs : State.fixed s1 = State.fixed x0 := by (simp [s1, *]; done)
       clear_value s1)
    | (extract_lets +onlyGivenNames s1; clear_value s1)
    | intro _ | with_reducible refine State.each_fixed_trans ?_ ?_ | split | (simp [*]; done))

@[simp] theorem effectSyncEdge_fixed (x0 : State) : State.fixed (@effectSyncEdge x0) = State.fixed x0 := by
  unfold effectSyncEdge; (repeat' split) <;> simp

@[simp] theorem effectRachisSyncInstant_fixed (x0 : State) : State.fixed (@effectRachisSyncInstant x0) = State.fixed x0 := by
  unfold effectRachisSyncInstant; (repeat' split) <;> simp

@[simp] theorem effectProbeSyncGateEnd_fixed (x0 : Fin 8) (x1 : State) : State.fixed (@effectProbeSyncGateEnd x0 x1) = State.fixed x1 := by
  unfold effectProbeSyncGateEnd
  extract_lets x l s1
  have h1 : s1.fixed = x1.fixed := by
    refine State.each_fixed_trans (fun s k => ?_) rfl
    extract_lets more s2
    have h2 : s2.fixed = s.fixed := by simp only [s2]; split <;> simp
    simp [h2]
  clear_value s1
  split
  · rfl
  · simp [h1]

@[simp] theorem effectProbeLock_fixed (x0 : Fin 8) (x1 : BitVec 7) (x2 : State) : State.fixed (@effectProbeLock x0 x1 x2) = State.fixed x2 := by
  unfold effectProbeLock
  (repeat' first
    | with_reducible rfl
    | (extract_lets +onlyGivenNames s1
       have hs : State.fixed s1 = State.fixed x2 := by
         first | (simp [s1, *]; done) | (unfold s1; (repeat' first | with_reducible rfl | intro _ | with_reducible refine State.each_fixed_trans ?_ ?_ | split | (simp [*]; done)); done)
       clear_value s1)
    | (extract_lets +onlyGivenNames s1; clear_value s1)
    | intro _ | with_reducible refine State.each_fixed_trans ?_ ?_ | split | (simp [*]; done) | refine (pair_fixed ‹_› rfl).trans ?_
    | refine (State.newEntry_fixed _ _ _ _ ‹_›).trans ?_)

@[simp] theorem effectProbeUnlock_fixed (x0 : Fin 8) (x1 : State) : State.fixed (@effectProbeUnlock x0 x1) = State.fixed x1 := by
  unfold effectProbeUnlock; (repeat' split) <;> simp

@[simp] theorem effectProbeRelockRetry_fixed (x0 : Fin 8) (x1 : State) : State.fixed (@effectProbeRelockRetry x0 x1) = State.fixed x1 := by
  simp [effectProbeRelockRetry]

@[simp] theorem effectProbeGateOpen_fixed (x0 : Fin 8) (x1 : State) : State.fixed (@effectProbeGateOpen x0 x1) = State.fixed x1 := by
  unfold effectProbeGateOpen
  (repeat' first
    | with_reducible rfl
    | (extract_lets +onlyGivenNames s1; have hs : State.fixed s1 = State.fixed x1 := by (simp [s1, *]; done)
       clear_value s1)
    | (extract_lets +onlyGivenNames s1; clear_value s1)
    | intro _ | with_reducible refine State.each_fixed_trans ?_ ?_ | split | (simp [*]; done))

theorem probeConfigCmd_run_fixed (f : Frame) (s : State) : ∀ a u, probeConfigCmd.run f s = .ok (a, u) → u.fixed = s.fixed := by
  unfold probeConfigCmd; dsimp only; intro a u h; exact answer_fixed _ _ _ _ h

theorem probeConfigCmd_apply_fixed (f : Frame) (s : State) : ∀ u, probeConfigCmd.apply f s = .ok u → u.fixed = s.fixed := by
  intro u h
  exact State.setProbe_fixed _ _ _ _ h

theorem probeProfileLoadCmd_run_fixed (f : Frame) (s : State) : ∀ a u, probeProfileLoadCmd.run f s = .ok (a, u) → u.fixed = s.fixed := by
  unfold probeProfileLoadCmd; dsimp only; intro a u h; exact ok_pair h rfl

theorem probeStatusGetCmd_run_fixed (f : Frame) (s : State) : ∀ a u, probeStatusGetCmd.run f s = .ok (a, u) → u.fixed = s.fixed := by
  unfold probeStatusGetCmd; dsimp only; intro a u h; exact answer_fixed _ _ _ _ h

/-! ## Acquire -/

@[simp] theorem State.modeFiveEntry_fixed (x0 : State) (x1 : Frame) (x2 : ℕ) (x3 : ℕ) (x4 : ℕ) : State.fixed (@State.modeFiveEntry x0 x1 x2 x3 x4) = State.fixed x0 := by
  unfold State.modeFiveEntry
  repeat' first
    | with_reducible rfl
    | (extract_lets +onlyGivenNames s1
       have hs : State.fixed s1 = State.fixed x0 := by
         first
           | (simp [s1, *]; done)
           | (unfold s1; (repeat' first | with_reducible rfl | intro _ | with_reducible refine State.each_fixed_trans ?_ ?_ | split | (simp [*]; done)); done)
       clear_value s1)
    | (extract_lets +onlyGivenNames s1; clear_value s1)
    | intro _
    | with_reducible refine State.each_fixed_trans ?_ ?_
    | (split; skip)
    | (simp [*]; done)
    | assumption
    | refine (pair_fixed ‹_› rfl).trans ?_
    | refine (triple_fixed ‹_› rfl).trans ?_
    | refine (State.newEntry_fixed _ _ _ _ ‹_›).trans ?_
    | refine (State.beginRecord_fixed _ _ _ _ _ ‹_›).trans ?_
    | refine (State.finishEnded_fixed _ _ _ _ ‹_›).trans ?_
    | refine (State.takeRecordId_fixed _ _ _ ‹_›).trans ?_
    | refine (State.takePages_fixed _ _ _ _ _ _ ‹_›).trans ?_
    | refine (State.sizeRing_fixed _ _ _ _ _ _ ‹_›).trans ?_
    | refine (State.startWork_fixed _ _ _ _ _ _ ‹_›).trans ?_
    | refine (State.applySteward_fixed _ _ _ _ ‹_›).trans ?_
    | refine (State.applyStage_fixed _ _ _ _ ‹_›).trans ?_
    | (simp; skip)

@[simp] theorem State.setCapture_fixed (x0 : State) (x1 : Frame) (x2 : ℕ) (x3 : CaptureCfg) : State.fixed (@State.setCapture x0 x1 x2 x3) = State.fixed x0 := by
  unfold State.setCapture
  (repeat' first
    | with_reducible rfl
    | (extract_lets +onlyGivenNames s1
       have hs : State.fixed s1 = State.fixed x0 := by
         first | (simp [s1, *]; done) | (unfold s1; (repeat' first | with_reducible rfl | intro _ | with_reducible refine State.each_fixed_trans ?_ ?_ | split | (simp [*]; done)); done)
       clear_value s1)
    | (extract_lets +onlyGivenNames s1; clear_value s1)
    | intro _ | with_reducible refine State.each_fixed_trans ?_ ?_ | split | (simp [*]; done) | refine (pair_fixed ‹_› rfl).trans ?_
    | refine (State.newEntry_fixed _ _ _ _ ‹_›).trans ?_)

@[simp] theorem State.setReduction_fixed (x0 : State) (x1 : ℕ) (x2 : ReductionCfg) : State.fixed (@State.setReduction x0 x1 x2) = State.fixed x0 := by
  unfold State.setReduction; (repeat' split) <;> simp

@[simp] theorem State.setAccum_fixed (x0 : State) (x1 : ℕ) (x2 : AccumCfg) : State.fixed (@State.setAccum x0 x1 x2) = State.fixed x0 := by
  unfold State.setAccum; (repeat' split) <;> simp

@[simp] theorem State.disarmNow_fixed (x0 : State) (x1 : ℕ) : State.fixed (@State.disarmNow x0 x1) = State.fixed x0 := by
  simp [State.disarmNow]

@[simp] theorem State.releaseRing_fixed (x0 : State) (x1 : RingId) : State.fixed (@State.releaseRing x0 x1) = State.fixed x0 := by
  simp [State.releaseRing]

@[simp] theorem State.setTi_fixed (x0 : State) (x1 : ℕ) (x2 : ℕ) (x3 : ℕ) (x4 : TiCfg) : State.fixed (@State.setTi x0 x1 x2 x3 x4) = State.fixed x0 := by
  unfold State.setTi
  extract_lets src passes s1 s2 moved taken s3 s4 s5
  have h1 : s1.fixed = x0.fixed := by unfold s1; split <;> simp
  have h2 : s2.fixed = x0.fixed := by unfold s2; split <;> simp [h1]
  have h3 : s3.fixed = x0.fixed := by unfold s3 taken; split <;> simp [h2]
  have h4 : s4.fixed = x0.fixed := by simp [s4, h3]
  have h5 : s5.fixed = x0.fixed := by
    unfold s5
    split
    · exact h4
    · exact h4
  exact h5

@[simp] theorem State.openTransfer_fixed (x0 : State) (x1 : Transfer) : State.fixed (@State.openTransfer x0 x1) = State.fixed x0 := by
  unfold State.openTransfer; (repeat' split) <;> simp

theorem State.fitRings_fixed (x0 : State) (x1 : State) (x2 : ℕ) : ∀ u, @State.fitRings x0 x1 x2 = .ok u → State.fixed u = State.fixed x1 := by
  unfold State.fitRings
  extract_lets l s1
  have h1 : s1.fixed = x1.fixed := State.each_fixed_trans (fun s a => State.dropRing_fixed _ _) rfl
  clear_value s1
  intro u h
  split at h
  · injection h
  suffices H : ∀ (l : List RingId) (acc : Except Status State), (∀ t, acc = .ok t → t.fixed = x1.fixed) →
      ∀ u, l.foldl (fun acc r => match acc with
        | .error e => .error e
        | .ok s =>
          match s.sizeRing r x2 (s.ringStook r) (s.wantedPages r) with
          | some s => .ok s
          | none => if x0.wantedPages r = s.wantedPages r ∧ x0.ringStook r = s.ringStook r then .ok s else .error .exhausted) acc = .ok u →
        u.fixed = x1.fixed by
    exact H l _ (fun t ht => by injection ht with ht; rw [← ht]; exact h1) u h
  intro l
  induction l with
  | nil => intro acc ha u hu; exact ha u hu
  | cons r l ih =>
    intro acc ha u hu
    refine ih _ ?_ u hu
    intro t ht
    cases acc with
    | error e => injection ht
    | ok s =>
      dsimp only at ht
      split at ht
      · injection ht with ht
        subst ht
        exact (State.sizeRing_fixed _ _ _ _ _ _ ‹_›).trans (ha _ rfl)
      · split at ht
        · injection ht with ht; rw [← ht]; exact ha _ rfl
        · injection ht

@[simp] theorem State.closeGates_fixed (x0 : State) : State.fixed (@State.closeGates x0) = State.fixed x0 := by
  unfold State.closeGates
  (repeat' first
    | with_reducible rfl
    | (extract_lets +onlyGivenNames s1; have hs : State.fixed s1 = State.fixed x0 := by (simp [s1, *]; done)
       clear_value s1)
    | (extract_lets +onlyGivenNames s1; clear_value s1)
    | intro _ | with_reducible refine State.each_fixed_trans ?_ ?_ | split | (simp [*]; done))

theorem captureConfigCmd_run_fixed (f : Frame) (s : State) : ∀ a u, captureConfigCmd.run f s = .ok (a, u) → u.fixed = s.fixed := by
  unfold captureConfigCmd; dsimp only; intro a u h; exact answer_fixed _ _ _ _ h

theorem captureConfigCmd_apply_fixed (f : Frame) (s : State) : ∀ u, captureConfigCmd.apply f s = .ok u → u.fixed = s.fixed := by
  unfold captureConfigCmd
  dsimp only
  intros
  rename_i h
  try simp only [bind, pure, Except.pure, Option.map_eq_some_iff] at h
  repeat' first
    | exact answer_fixed _ _ _ _ h
    | (replace h := Except.bind_ok h; rcases h with ⟨_, h0, h⟩)
    | (rcases h with ⟨_, h0, h⟩)
    | (extract_lets +onlyGivenNames s1 at h
       have hs : State.fixed s1 = State.fixed s := by
         first
           | (simp [s1, *]; done)
           | (unfold s1; (repeat' first | with_reducible rfl | intro _ | with_reducible refine State.each_fixed_trans ?_ ?_ | split | (simp [*]; done)); done)
       clear_value s1)
    | (extract_lets +onlyGivenNames s1 at h; clear_value s1)
    | (split at h; skip)
    | (injection h; done)
    | (injection h with h h1; subst h1)
    | (injection h with h; subst h)
    | (injection h with h)
  all_goals repeat' first
    | with_reducible rfl
    | (simp [*]; done)
    | assumption
    | refine (pair_fixed ‹_› rfl).trans ?_
    | refine (triple_fixed ‹_› rfl).trans ?_
    | refine (State.newEntry_fixed _ _ _ _ ‹_›).trans ?_
    | refine (State.beginRecord_fixed _ _ _ _ _ ‹_›).trans ?_
    | refine (State.takeRecordId_fixed _ _ _ ‹_›).trans ?_
    | refine (State.takePages_fixed _ _ _ _ _ _ ‹_›).trans ?_
    | refine (State.sizeRing_fixed _ _ _ _ _ _ ‹_›).trans ?_
    | refine (State.startWork_fixed _ _ _ _ _ _ ‹_›).trans ?_
    | refine (State.doneAtOnce_fixed _ _ _ _ _ _ ‹_›).trans ?_
    | refine (State.newItem_fixed _ _ _ _ _ _ _ ‹_›).trans ?_
    | intro _
    | with_reducible refine State.each_fixed_trans ?_ ?_
    | (split; skip)
    | (simp; skip)

theorem reductionConfigCmd_run_fixed (f : Frame) (s : State) : ∀ a u, reductionConfigCmd.run f s = .ok (a, u) → u.fixed = s.fixed := by
  unfold reductionConfigCmd; dsimp only; intro a u h; exact answer_fixed _ _ _ _ h

theorem reductionConfigCmd_apply_fixed (f : Frame) (s : State) : ∀ u, reductionConfigCmd.apply f s = .ok u → u.fixed = s.fixed := by
  unfold reductionConfigCmd
  dsimp only
  intros
  rename_i h
  try simp only [bind, pure, Except.pure, Option.map_eq_some_iff] at h
  repeat' first
    | exact answer_fixed _ _ _ _ h
    | (replace h := Except.bind_ok h; rcases h with ⟨_, h0, h⟩)
    | (rcases h with ⟨_, h0, h⟩)
    | (extract_lets +onlyGivenNames s1 at h
       have hs : State.fixed s1 = State.fixed s := by
         first
           | (simp [s1, *]; done)
           | (unfold s1; (repeat' first | with_reducible rfl | intro _ | with_reducible refine State.each_fixed_trans ?_ ?_ | split | (simp [*]; done)); done)
       clear_value s1)
    | (extract_lets +onlyGivenNames s1 at h; clear_value s1)
    | (split at h; skip)
    | (injection h; done)
    | (injection h with h h1; subst h1)
    | (injection h with h; subst h)
    | (injection h with h)
  all_goals repeat' first
    | with_reducible rfl
    | (simp [*]; done)
    | assumption
    | refine (pair_fixed ‹_› rfl).trans ?_
    | refine (triple_fixed ‹_› rfl).trans ?_
    | refine (State.newEntry_fixed _ _ _ _ ‹_›).trans ?_
    | refine (State.beginRecord_fixed _ _ _ _ _ ‹_›).trans ?_
    | refine (State.takeRecordId_fixed _ _ _ ‹_›).trans ?_
    | refine (State.takePages_fixed _ _ _ _ _ _ ‹_›).trans ?_
    | refine (State.sizeRing_fixed _ _ _ _ _ _ ‹_›).trans ?_
    | refine (State.startWork_fixed _ _ _ _ _ _ ‹_›).trans ?_
    | refine (State.doneAtOnce_fixed _ _ _ _ _ _ ‹_›).trans ?_
    | refine (State.newItem_fixed _ _ _ _ _ _ _ ‹_›).trans ?_
    | intro _
    | with_reducible refine State.each_fixed_trans ?_ ?_
    | (split; skip)
    | (simp; skip)

theorem accumConfigCmd_run_fixed (f : Frame) (s : State) : ∀ a u, accumConfigCmd.run f s = .ok (a, u) → u.fixed = s.fixed := by
  unfold accumConfigCmd; dsimp only; intro a u h; exact answer_fixed _ _ _ _ h

theorem accumConfigCmd_apply_fixed (f : Frame) (s : State) : ∀ u, accumConfigCmd.apply f s = .ok u → u.fixed = s.fixed := by
  unfold accumConfigCmd
  dsimp only
  intros
  rename_i h
  try simp only [bind, pure, Except.pure, Option.map_eq_some_iff] at h
  repeat' first
    | exact answer_fixed _ _ _ _ h
    | (replace h := Except.bind_ok h; rcases h with ⟨_, h0, h⟩)
    | (rcases h with ⟨_, h0, h⟩)
    | (extract_lets +onlyGivenNames s1 at h
       have hs : State.fixed s1 = State.fixed s := by
         first
           | (simp [s1, *]; done)
           | (unfold s1; (repeat' first | with_reducible rfl | intro _ | with_reducible refine State.each_fixed_trans ?_ ?_ | split | (simp [*]; done)); done)
       clear_value s1)
    | (extract_lets +onlyGivenNames s1 at h; clear_value s1)
    | (split at h; skip)
    | (injection h; done)
    | (injection h with h h1; subst h1)
    | (injection h with h; subst h)
    | (injection h with h)
  all_goals repeat' first
    | with_reducible rfl
    | (simp [*]; done)
    | assumption
    | refine (pair_fixed ‹_› rfl).trans ?_
    | refine (triple_fixed ‹_› rfl).trans ?_
    | refine (State.newEntry_fixed _ _ _ _ ‹_›).trans ?_
    | refine (State.beginRecord_fixed _ _ _ _ _ ‹_›).trans ?_
    | refine (State.takeRecordId_fixed _ _ _ ‹_›).trans ?_
    | refine (State.takePages_fixed _ _ _ _ _ _ ‹_›).trans ?_
    | refine (State.sizeRing_fixed _ _ _ _ _ _ ‹_›).trans ?_
    | refine (State.startWork_fixed _ _ _ _ _ _ ‹_›).trans ?_
    | refine (State.doneAtOnce_fixed _ _ _ _ _ _ ‹_›).trans ?_
    | refine (State.newItem_fixed _ _ _ _ _ _ _ ‹_›).trans ?_
    | intro _
    | with_reducible refine State.each_fixed_trans ?_ ?_
    | (split; skip)
    | (simp; skip)

theorem armCaptureCmd_run_fixed (f : Frame) (s : State) : ∀ a u, armCaptureCmd.run f s = .ok (a, u) → u.fixed = s.fixed := by
  unfold armCaptureCmd
  dsimp only
  intros
  rename_i h
  try simp only [bind, pure, Except.pure, Option.map_eq_some_iff] at h
  repeat' first
    | exact answer_fixed _ _ _ _ h
    | (replace h := Except.bind_ok h; rcases h with ⟨_, h0, h⟩)
    | (rcases h with ⟨_, h0, h⟩)
    | (extract_lets +onlyGivenNames s1 at h
       have hs : State.fixed s1 = State.fixed s := by
         first
           | (simp [s1, *]; done)
           | (unfold s1; (repeat' first | with_reducible rfl | intro _ | with_reducible refine State.each_fixed_trans ?_ ?_ | split | (simp [*]; done)); done)
       clear_value s1)
    | (extract_lets +onlyGivenNames s1 at h; clear_value s1)
    | (split at h; skip)
    | (injection h; done)
    | (injection h with h h1; subst h1)
    | (injection h with h; subst h)
    | (injection h with h)
  all_goals repeat' first
    | with_reducible rfl
    | (simp [*]; done)
    | assumption
    | refine (pair_fixed ‹_› rfl).trans ?_
    | refine (triple_fixed ‹_› rfl).trans ?_
    | refine (State.newEntry_fixed _ _ _ _ ‹_›).trans ?_
    | refine (State.beginRecord_fixed _ _ _ _ _ ‹_›).trans ?_
    | refine (State.takeRecordId_fixed _ _ _ ‹_›).trans ?_
    | refine (State.takePages_fixed _ _ _ _ _ _ ‹_›).trans ?_
    | refine (State.sizeRing_fixed _ _ _ _ _ _ ‹_›).trans ?_
    | refine (State.startWork_fixed _ _ _ _ _ _ ‹_›).trans ?_
    | refine (State.doneAtOnce_fixed _ _ _ _ _ _ ‹_›).trans ?_
    | refine (State.newItem_fixed _ _ _ _ _ _ _ ‹_›).trans ?_
    | intro _
    | with_reducible refine State.each_fixed_trans ?_ ?_
    | (split; skip)
    | (simp; skip)

theorem armStampsCmd_run_fixed (f : Frame) (s : State) : ∀ a u, armStampsCmd.run f s = .ok (a, u) → u.fixed = s.fixed := by
  unfold armStampsCmd
  dsimp only
  intros
  rename_i h
  try simp only [bind, pure, Except.pure, Option.map_eq_some_iff] at h
  repeat' first
    | exact answer_fixed _ _ _ _ h
    | (replace h := Except.bind_ok h; rcases h with ⟨_, h0, h⟩)
    | (rcases h with ⟨_, h0, h⟩)
    | (extract_lets +onlyGivenNames s1 at h
       have hs : State.fixed s1 = State.fixed s := by
         first
           | (simp [s1, *]; done)
           | (unfold s1; (repeat' first | with_reducible rfl | intro _ | with_reducible refine State.each_fixed_trans ?_ ?_ | split | (simp [*]; done)); done)
       clear_value s1)
    | (extract_lets +onlyGivenNames s1 at h; clear_value s1)
    | (split at h; skip)
    | (injection h; done)
    | (injection h with h h1; subst h1)
    | (injection h with h; subst h)
    | (injection h with h)
  all_goals repeat' first
    | with_reducible rfl
    | (simp [*]; done)
    | assumption
    | refine (pair_fixed ‹_› rfl).trans ?_
    | refine (triple_fixed ‹_› rfl).trans ?_
    | refine (State.newEntry_fixed _ _ _ _ ‹_›).trans ?_
    | refine (State.beginRecord_fixed _ _ _ _ _ ‹_›).trans ?_
    | refine (State.takeRecordId_fixed _ _ _ ‹_›).trans ?_
    | refine (State.takePages_fixed _ _ _ _ _ _ ‹_›).trans ?_
    | refine (State.sizeRing_fixed _ _ _ _ _ _ ‹_›).trans ?_
    | refine (State.startWork_fixed _ _ _ _ _ _ ‹_›).trans ?_
    | refine (State.doneAtOnce_fixed _ _ _ _ _ _ ‹_›).trans ?_
    | refine (State.newItem_fixed _ _ _ _ _ _ _ ‹_›).trans ?_
    | intro _
    | with_reducible refine State.each_fixed_trans ?_ ?_
    | (split; skip)
    | (simp; skip)

theorem stampConfigCmd_run_fixed (f : Frame) (s : State) : ∀ a u, stampConfigCmd.run f s = .ok (a, u) → u.fixed = s.fixed := by
  unfold stampConfigCmd; dsimp only; intro a u h; exact answer_fixed _ _ _ _ h

theorem stampConfigCmd_apply_fixed (f : Frame) (s : State) : ∀ u, stampConfigCmd.apply f s = .ok u → u.fixed = s.fixed := by
  unfold stampConfigCmd
  dsimp only
  intros
  rename_i h
  try simp only [bind, pure, Except.pure, Option.map_eq_some_iff] at h
  repeat' first
    | exact answer_fixed _ _ _ _ h
    | (replace h := Except.bind_ok h; rcases h with ⟨_, h0, h⟩)
    | (rcases h with ⟨_, h0, h⟩)
    | (extract_lets +onlyGivenNames s1 at h
       have hs : State.fixed s1 = State.fixed s := by
         first
           | (simp [s1, *]; done)
           | (unfold s1; (repeat' first | with_reducible rfl | intro _ | with_reducible refine State.each_fixed_trans ?_ ?_ | split | (simp [*]; done)); done)
       clear_value s1)
    | (extract_lets +onlyGivenNames s1 at h; clear_value s1)
    | (split at h; skip)
    | (injection h; done)
    | (injection h with h h1; subst h1)
    | (injection h with h; subst h)
    | (injection h with h)
  all_goals repeat' first
    | with_reducible rfl
    | (simp [*]; done)
    | assumption
    | refine (pair_fixed ‹_› rfl).trans ?_
    | refine (triple_fixed ‹_› rfl).trans ?_
    | refine (State.newEntry_fixed _ _ _ _ ‹_›).trans ?_
    | refine (State.beginRecord_fixed _ _ _ _ _ ‹_›).trans ?_
    | refine (State.takeRecordId_fixed _ _ _ ‹_›).trans ?_
    | refine (State.takePages_fixed _ _ _ _ _ _ ‹_›).trans ?_
    | refine (State.sizeRing_fixed _ _ _ _ _ _ ‹_›).trans ?_
    | refine (State.startWork_fixed _ _ _ _ _ _ ‹_›).trans ?_
    | refine (State.doneAtOnce_fixed _ _ _ _ _ _ ‹_›).trans ?_
    | refine (State.newItem_fixed _ _ _ _ _ _ _ ‹_›).trans ?_
    | intro _
    | with_reducible refine State.each_fixed_trans ?_ ?_
    | (split; skip)
    | (simp; skip)

theorem tiConfigCmd_run_fixed (f : Frame) (s : State) : ∀ a u, tiConfigCmd.run f s = .ok (a, u) → u.fixed = s.fixed := by
  unfold tiConfigCmd; dsimp only; intro a u h; exact answer_fixed _ _ _ _ h

theorem tiConfigCmd_apply_fixed (f : Frame) (s : State) : ∀ u, tiConfigCmd.apply f s = .ok u → u.fixed = s.fixed := by
  unfold tiConfigCmd; dsimp only; intro u h; refine ok_state h ?_; simp

theorem captureStatusGetCmd_run_fixed (f : Frame) (s : State) : ∀ a u, captureStatusGetCmd.run f s = .ok (a, u) → u.fixed = s.fixed := by
  unfold captureStatusGetCmd; dsimp only; intro a u h; exact answer_fixed _ _ _ _ h

theorem awnStatusGetCmd_run_fixed (f : Frame) (s : State) : ∀ a u, awnStatusGetCmd.run f s = .ok (a, u) → u.fixed = s.fixed := by
  unfold awnStatusGetCmd; dsimp only; intro a u h; exact answer_fixed _ _ _ _ h

theorem recordFetchCmd_run_fixed (f : Frame) (s : State) : ∀ a u, recordFetchCmd.run f s = .ok (a, u) → u.fixed = s.fixed := by
  unfold recordFetchCmd; dsimp only; intro a u h
  obtain ⟨⟨j, s1⟩, h0, h⟩ := Except.bind_ok h
  refine ok_pair h ?_
  simp [State.startWork_fixed _ _ _ _ _ _ h0]

end Sys2Proof.Machine
end

