-- ==== Sys2Proof/Laws/FixedC.lean ====
section
/-! SUPPORT. The queue, the clock and the rings under the operations of engines, measurement, the archive and the DRAM. -/

set_option linter.all false

namespace Sys2Proof.Machine

/-! ## Engines -/

@[simp] theorem State.formUnits_fixed (x0 : State) (x1 : ℕ) : State.fixed (@State.formUnits x0 x1) = State.fixed x0 := by
  unfold State.formUnits; (repeat' split) <;> simp

@[simp] theorem State.releaseInputs_fixed (x0 : State) (x1 : ℕ) : State.fixed (@State.releaseInputs x0 x1) = State.fixed x0 := by
  unfold State.releaseInputs
  (repeat' first
    | with_reducible rfl
    | (extract_lets +onlyGivenNames s1; have hs : State.fixed s1 = State.fixed x0 := by (simp [s1, *]; done)
       clear_value s1)
    | (extract_lets +onlyGivenNames s1; clear_value s1)
    | intro _ | with_reducible refine State.each_fixed_trans ?_ ?_ | split | (simp [*]; done))

@[simp] theorem State.deregisterInst_fixed (x0 : State) (x1 : ℕ) : State.fixed (@State.deregisterInst x0 x1) = State.fixed x0 := by
  unfold State.deregisterInst
  (repeat' first | with_reducible rfl | intro _ | with_reducible refine State.each_fixed_trans ?_ ?_ | split | (simp; done))

@[simp] theorem State.freeEngines_fixed (x0 : State) (x1 : ℕ) : State.fixed (@State.freeEngines x0 x1) = State.fixed x0 := by
  unfold State.freeEngines
  (repeat' first | with_reducible rfl | intro _ | with_reducible refine State.each_fixed_trans ?_ ?_ | split | (simp; done))

@[simp] theorem State.stopInstance_fixed (x0 : State) (x1 : ℕ) (x2 : ℕ) : State.fixed (@State.stopInstance x0 x1 x2) = State.fixed x0 := by
  simp [State.stopInstance]

@[simp] theorem State.removeInstance_fixed (x0 : State) (x1 : ℕ) : State.fixed (@State.removeInstance x0 x1) = State.fixed x0 := by
  unfold State.removeInstance; (repeat' split) <;> simp

@[simp] theorem State.pushResult_fixed (x0 : State) (x1 : Nat) (x2 x3 : U32) (x4 : Nat) (x5 : Bytes) (x6 : Bool) : (x0.pushResult x1 x2 x3 x4 x5 x6).2.fixed = x0.fixed := by
  unfold State.pushResult
  cases x0.inst x1 with
  | none => rfl
  | some x =>
    cases x0.inst (x1 % 1024) with
    | none => rfl
    | some m =>
      dsimp only
      generalize hr : x0.pushItem _ _ = r
      have h : r.2.fixed = x0.fixed := hr ▸ State.pushItem_fixed _ _ _
      clear hr
      split
      · exact (State.modInst_fixed _ _ _).trans ((State.modInst_fixed _ _ _).trans h)
      · exact h

@[simp] theorem State.pushBodies_fixed (x0 : State) (x1 : ℕ) (x2 : WorkUnit) (x3 : List Bytes) : State.fixed (@State.pushBodies x0 x1 x2 x3).2 = State.fixed x0 := by
  induction x3 generalizing x0 with
  | nil => rfl
  | cons b l ih =>
    unfold State.pushBodies
    split
    rename_i ok s1 h
    have h1 : s1.fixed = x0.fixed := pair_fixed h (by simp)
    split
    · exact h1
    · rw [ih]; simp [h1]

@[simp] theorem State.flushUnits_fixed (x0 : State) (x1 : ℕ) (x2 : ℕ) : State.fixed (@State.flushUnits x0 x1 x2) = State.fixed x0 := by
  induction x2 generalizing x0 with
  | zero => rfl
  | succ n ih =>
    unfold State.flushUnits
    split
    · split
      · split
        · rfl
        · split
          · rw [ih]; simp
          · split
            rename_i ok s1 h
            have h1 : s1.fixed = x0.fixed := (pair_fixed h rfl).trans (by simp)
            split
            · rw [ih]; simp [h1]
            · exact h1
      · rfl
    · rfl

@[simp] theorem State.flushLast_fixed (x0 : State) (x1 : ℕ) : State.fixed (@State.flushLast x0 x1) = State.fixed x0 := by
  unfold State.flushLast
  split
  · extract_lets r
    have hr : r.2.fixed = x0.fixed := by simp [r]
    clear_value r
    split
    · simp [hr]
    · exact hr
  · rfl

@[simp] theorem State.reapInstance_fixed (x0 : State) (x1 : ℕ) : State.fixed (@State.reapInstance x0 x1) = State.fixed x0 := by
  unfold State.reapInstance
  (repeat' first
    | with_reducible rfl
    | (extract_lets +onlyGivenNames s1; have hs : State.fixed s1 = State.fixed x0 := by (simp [s1, *]; done)
       clear_value s1)
    | (extract_lets +onlyGivenNames s1; clear_value s1)
    | intro _ | with_reducible refine State.each_fixed_trans ?_ ?_ | split | (simp [*]; done))

@[simp] theorem State.serveInstance_fixed (x0 : State) (x1 : ℕ) : State.fixed (@State.serveInstance x0 x1) = State.fixed x0 := by
  unfold State.serveInstance
  refine State.each_fixed _ (fun s k => ?_) _ _
  split
  · extract_lets s1 s2
    have h1 : s1.fixed = s.fixed := by simp [s1]
    have h2 : s2.fixed = s.fixed := by simp only [s2]; split <;> simp [h1]
    clear_value s2
    simp [h2]
  · rfl

@[simp] theorem State.enterImage_fixed (x0 : State) (x1 : ℕ) (x2 : Instance) (x3 : ℕ) : State.fixed (@State.enterImage x0 x1 x2 x3) = State.fixed x0 := by
  unfold State.enterImage
  repeat' first
    | with_reducible rfl
    | (extract_lets +onlyGivenNames s1
       have hs : State.fixed s1 = State.fixed x0 := by
         first
           | (simp [s1, *]; done)
           | (unfold s1; (repeat' first | with_reducible rfl | intro _ | with_reducible refine State.each_fixed_trans ?_ ?_ | split | (simp [*]; done)); done)
       clear_value s1)
    | (extract_lets +onlyGivenNames s1; clear_value s1)
    | intro _
    | with_reducible refine State.each_fixed_trans ?_ ?_
    | (split; skip)
    | (simp [*]; done)
    | assumption
    | refine (pair_fixed ‹_› rfl).trans ?_
    | refine (triple_fixed ‹_› rfl).trans ?_
    | refine (State.newEntry_fixed _ _ _ _ ‹_›).trans ?_
    | refine (State.beginRecord_fixed _ _ _ _ _ ‹_›).trans ?_
    | refine (State.finishEnded_fixed _ _ _ _ ‹_›).trans ?_
    | refine (State.takeRecordId_fixed _ _ _ ‹_›).trans ?_
    | refine (State.takePages_fixed _ _ _ _ _ _ ‹_›).trans ?_
    | refine (State.sizeRing_fixed _ _ _ _ _ _ ‹_›).trans ?_
    | refine (State.startWork_fixed _ _ _ _ _ _ ‹_›).trans ?_
    | refine (State.applySteward_fixed _ _ _ _ ‹_›).trans ?_
    | refine (State.applyStage_fixed _ _ _ _ ‹_›).trans ?_
    | (simp; skip)

@[simp] theorem State.initEngine_fixed (x0 : State) (x1 : ℕ) (x2 : ℕ) : State.fixed (@State.initEngine x0 x1 x2) = State.fixed x0 := by
  unfold State.initEngine; (repeat' split) <;> simp

@[simp] theorem State.giveUnit_fixed (x0 : State) (x1 : ℕ) (x2 : ℕ) (x3 : Instance) (x4 : WorkUnit) : State.fixed (@State.giveUnit x0 x1 x2 x3 x4) = State.fixed x0 := by
  unfold State.giveUnit
  (repeat' first
    | with_reducible rfl
    | (extract_lets +onlyGivenNames s1
       have hs : State.fixed s1 = State.fixed x0 := by
         first | (simp [s1, *]; done) | (unfold s1; (repeat' first | with_reducible rfl | intro _ | with_reducible refine State.each_fixed_trans ?_ ?_ | split | (simp [*]; done)); done)
       clear_value s1)
    | (extract_lets +onlyGivenNames s1; clear_value s1)
    | intro _ | with_reducible refine State.each_fixed_trans ?_ ?_ | split | (simp [*]; done) | refine (pair_fixed ‹_› rfl).trans ?_
    | refine (State.newEntry_fixed _ _ _ _ ‹_›).trans ?_)

@[simp] theorem State.prefetch_fixed (x0 : State) (x1 : ℕ) : State.fixed (@State.prefetch x0 x1) = State.fixed x0 := by
  unfold State.prefetch; (repeat' split) <;> simp

@[simp] theorem State.pull_fixed (x0 : State) (x1 : ℕ) : State.fixed (@State.pull x0 x1) = State.fixed x0 := by
  unfold State.pull
  (repeat' first
    | with_reducible rfl
    | (extract_lets +onlyGivenNames s1
       have hs : State.fixed s1 = State.fixed x0 := by
         first | (simp [s1, *]; done) | (unfold s1; (repeat' first | with_reducible rfl | intro _ | with_reducible refine State.each_fixed_trans ?_ ?_ | split | (simp [*]; done)); done)
       clear_value s1)
    | (extract_lets +onlyGivenNames s1; clear_value s1)
    | intro _ | with_reducible refine State.each_fixed_trans ?_ ?_ | split | (simp [*]; done) | refine (pair_fixed ‹_› rfl).trans ?_
    | refine (State.newEntry_fixed _ _ _ _ ‹_›).trans ?_)

@[simp] theorem State.free3_fixed (x0 : State) : State.fixed (@State.free3 x0).2 = State.fixed x0 := by
  simp [State.free3]

@[simp] theorem State.modUnit_fixed (x0 : State) (x1 : ℕ) (x2 : ℕ) (x3 : WorkUnit → WorkUnit) : State.fixed (@State.modUnit x0 x1 x2 x3) = State.fixed x0 := by
  simp [State.modUnit]

@[simp] theorem State.freeBody_fixed (x0 : State) (x1 : ℕ) : State.fixed (@State.freeBody x0 x1).2 = State.fixed x0 := by
  induction x1 generalizing x0 with
  | zero => rfl
  | succ n ih =>
    unfold State.freeBody
    split
    rename_i v s1 h
    have h1 : s1.fixed = x0.fixed := pair_fixed h (by simp)
    exact (ih _).trans h1

@[simp] theorem State.lastBody_fixed (x0 : State) (x1 : ℕ) (x2 : Instance) : State.fixed (@State.lastBody x0 x1 x2).2 = State.fixed x0 := by
  unfold State.lastBody
  repeat' first
    | with_reducible rfl
    | (extract_lets +onlyGivenNames s1
       have hs : State.fixed s1 = State.fixed x0 := by
         first
           | (simp [s1, *]; done)
           | (unfold s1; (repeat' first | with_reducible rfl | intro _ | with_reducible refine State.each_fixed_trans ?_ ?_ | split | (simp [*]; done)); done)
       clear_value s1)
    | (extract_lets +onlyGivenNames s1; clear_value s1)
    | intro _
    | with_reducible refine State.each_fixed_trans ?_ ?_
    | (split; skip)
    | (simp [*]; done)
    | assumption
    | refine (pair_fixed ‹_› rfl).trans ?_
    | refine (triple_fixed ‹_› rfl).trans ?_
    | refine (State.newEntry_fixed _ _ _ _ ‹_›).trans ?_
    | refine (State.beginRecord_fixed _ _ _ _ _ ‹_›).trans ?_
    | refine (State.finishEnded_fixed _ _ _ _ ‹_›).trans ?_
    | refine (State.takeRecordId_fixed _ _ _ ‹_›).trans ?_
    | refine (State.takePages_fixed _ _ _ _ _ _ ‹_›).trans ?_
    | refine (State.sizeRing_fixed _ _ _ _ _ _ ‹_›).trans ?_
    | refine (State.startWork_fixed _ _ _ _ _ _ ‹_›).trans ?_
    | refine (State.applySteward_fixed _ _ _ _ ‹_›).trans ?_
    | refine (State.applyStage_fixed _ _ _ _ ‹_›).trans ?_
    | (simp; skip)

@[simp] theorem State.faultStop_fixed (x0 : State) (x1 : ℕ) (x2 : Byte) : State.fixed (@State.faultStop x0 x1 x2) = State.fixed x0 := by
  unfold State.faultStop
  split
  · split
    rename_i v s1 h
    have h1 : s1.fixed = x0.fixed := (pair_fixed h rfl).trans (by simp)
    simp [h1]
  · rfl

@[simp] theorem State.poisonUnit_fixed (x0 : State) (x1 : ℕ) (x2 : ℕ) (x3 : Byte) : State.fixed (@State.poisonUnit x0 x1 x2 x3) = State.fixed x0 := by
  unfold State.poisonUnit
  (repeat' first
    | with_reducible rfl
    | (extract_lets +onlyGivenNames s1
       have hs : State.fixed s1 = State.fixed x0 := by
         first | (simp [s1, *]; done) | (unfold s1; (repeat' first | with_reducible rfl | intro _ | with_reducible refine State.each_fixed_trans ?_ ?_ | split | (simp [*]; done)); done)
       clear_value s1)
    | (extract_lets +onlyGivenNames s1; clear_value s1)
    | intro _ | with_reducible refine State.each_fixed_trans ?_ ?_ | split | (simp [*]; done) | refine (pair_fixed ‹_› rfl).trans ?_
    | refine (State.newEntry_fixed _ _ _ _ ‹_›).trans ?_)

@[simp] theorem State.giveBackUnit_fixed (x0 : State) (x1 : ℕ) (x2 : Bool) : State.fixed (@State.giveBackUnit x0 x1 x2) = State.fixed x0 := by
  unfold State.giveBackUnit; (repeat' split) <;> simp

@[simp] theorem State.softFault_fixed (x0 : State) (x1 : ℕ) (x2 : Byte) : State.fixed (@State.softFault x0 x1 x2) = State.fixed x0 := by
  unfold State.softFault; (repeat' split) <;> simp

@[simp] theorem State.softFaultFree_fixed (x0 : State) (x1 : ℕ) : State.fixed (@State.softFaultFree x0 x1) = State.fixed x0 := by
  simp [State.softFaultFree]

@[simp] theorem effectEngineWatchdog_fixed (x0 : Fin 512) (x1 : State) : State.fixed (@effectEngineWatchdog x0 x1) = State.fixed x1 := by
  unfold effectEngineWatchdog; (repeat' split) <;> simp

@[simp] theorem State.serviceReturn_fixed (x0 : State) (x1 : ℕ) (x2 : U32) : State.fixed (@State.serviceReturn x0 x1 x2) = State.fixed x0 := by
  unfold State.serviceReturn
  extract_lets s1
  have h1 : s1.fixed = x0.fixed := by
    refine State.each_fixed_trans (fun s i => ?_) rfl
    split
    rename_i v s2 h
    have h2 : s2.fixed = s.fixed := (pair_fixed h rfl).trans (by simp)
    simp [h2]
  simp [h1]

@[simp] theorem effectFetch_fixed (x0 : Fin 512) (x1 : U32) (x2 : State) : State.fixed (@effectFetch x0 x1 x2) = State.fixed x2 := by
  unfold effectFetch
  (repeat' first
    | with_reducible rfl
    | (extract_lets +onlyGivenNames s1; have hs : State.fixed s1 = State.fixed x2 := by (simp [s1, *]; done)
       clear_value s1)
    | (extract_lets +onlyGivenNames s1; clear_value s1)
    | intro _ | with_reducible refine State.each_fixed_trans ?_ ?_ | split | (simp [*]; done))

@[simp] theorem effectEmit_fixed (x0 : Fin 512) (x1 : U32) (x2 : Bytes) (x3 : State) : State.fixed (@effectEmit x0 x1 x2 x3) = State.fixed x3 := by
  unfold effectEmit
  (repeat' first
    | with_reducible rfl
    | (extract_lets +onlyGivenNames s1; have hs : State.fixed s1 = State.fixed x3 := by (simp [s1, *]; done)
       clear_value s1)
    | (extract_lets +onlyGivenNames s1; clear_value s1)
    | intro _ | with_reducible refine State.each_fixed_trans ?_ ?_ | split | (simp [*]; done))

@[simp] theorem effectUnitTime_fixed (x0 : Fin 512) (x1 : U32) (x2 : State) : State.fixed (@effectUnitTime x0 x1 x2) = State.fixed x2 := by
  unfold effectUnitTime
  (repeat' first
    | with_reducible rfl
    | (extract_lets +onlyGivenNames s1; have hs : State.fixed s1 = State.fixed x2 := by (simp [s1, *]; done)
       clear_value s1)
    | (extract_lets +onlyGivenNames s1; clear_value s1)
    | intro _ | with_reducible refine State.each_fixed_trans ?_ ?_ | split | (simp [*]; done))

@[simp] theorem State.judgeSlow_fixed (x0 : State) (x1 : ℕ) (x2 : ℕ) : State.fixed (@State.judgeSlow x0 x1 x2) = State.fixed x0 := by
  simp [State.judgeSlow]

@[simp] theorem State.cancelCopies_fixed (x0 : State) (x1 : ℕ) (x2 : ℕ) : State.fixed (@State.cancelCopies x0 x1 x2) = State.fixed x0 := by
  unfold State.cancelCopies
  (repeat' first | with_reducible rfl | intro _ | with_reducible refine State.each_fixed_trans ?_ ?_ | split | (simp; done))

@[simp] theorem effectEndUnit_fixed (x0 : Fin 512) (x1 : Bytes) (x2 : State) : State.fixed (@effectEndUnit x0 x1 x2) = State.fixed x2 := by
  unfold effectEndUnit
  extract_lets s1
  have h1 : s1.fixed = x2.fixed := by simp [s1]
  clear_value s1
  split
  · extract_lets took
    split
    rename_i v s2 h
    have h2 : s2.fixed = x2.fixed := pair_fixed h (by simp [h1])
    clear h
    extract_lets out seen s3 taken s4 s5 s6 s7
    have h3 : s3.fixed = x2.fixed := by simp only [s3]; split <;> simp [h2]
    simp [s7, s6, s5, s4, h3]
  · exact h1

@[simp] theorem effectUnitReissue_fixed (x0 : Fin 512) (x1 : State) : State.fixed (@effectUnitReissue x0 x1) = State.fixed x1 := by
  unfold effectUnitReissue
  (repeat' first
    | with_reducible rfl
    | (extract_lets +onlyGivenNames s1; have hs : State.fixed s1 = State.fixed x1 := by (simp [s1, *]; done)
       clear_value s1)
    | (extract_lets +onlyGivenNames s1; clear_value s1)
    | intro _ | with_reducible refine State.each_fixed_trans ?_ ?_ | split | (simp [*]; done))

@[simp] theorem State.gateClosed_fixed (x0 : State) (x1 : ℕ) (x2 : ℕ) : State.fixed (@State.gateClosed x0 x1 x2) = State.fixed x0 := by
  unfold State.gateClosed; (repeat' split) <;> simp

@[simp] theorem effectEngineGateClose_fixed (x0 : Fin 1024) (x1 : List Bytes) (x2 : State) : State.fixed (@effectEngineGateClose x0 x1 x2) = State.fixed x2 := by
  unfold effectEngineGateClose
  extract_lets k s1
  have h1 : s1.fixed = x2.fixed := by simp [s1]
  clear_value s1
  split
  · split
    · extract_lets mine
      split
      rename_i v s2 h
      have h2 : s2.fixed = x2.fixed := pair_fixed h (by simp [h1])
      clear h
      extract_lets out
      clear_value out
      split
      · exact h2
      · split
        · simp [h2]
        · rename_i gen first s3 s4 s5 s6 _ _
          have h3 : s3.fixed = x2.fixed := by simp [s3, h2]
          have h4 : s4.fixed = x2.fixed := by simp [s4, h3]
          have h5 : s5.fixed = x2.fixed := by simp [s5, h4]
          have h6 : s6.fixed = x2.fixed := (foldl_fixed _ (fun s b => State.pushResult_fixed _ _ _ _ _ _ _) _ _).trans h5
          clear_value s6
          simp [h6]
    · exact h1
  · exact h1

@[simp] theorem State.stopWithoutEngines_fixed (x0 : State) (x1 : ℕ) : State.fixed (@State.stopWithoutEngines x0 x1) = State.fixed x0 := by
  unfold State.stopWithoutEngines; (repeat' split) <;> simp

@[simp] theorem effectEngineHardwareFault_fixed (x0 : Fin 512) (x1 : State) : State.fixed (@effectEngineHardwareFault x0 x1) = State.fixed x1 := by
  unfold effectEngineHardwareFault
  (repeat' first | with_reducible rfl | intro _ | with_reducible refine State.each_fixed_trans ?_ ?_ | split | (simp; done))

@[simp] theorem State.stopNode_fixed (x0 : State) (x1 : ℕ) : State.fixed (@State.stopNode x0 x1) = State.fixed x0 := by
  unfold State.stopNode
  (repeat' first | with_reducible rfl | intro _ | with_reducible refine State.each_fixed_trans ?_ ?_ | split | (simp; done))

@[simp] theorem effectNodeFault_fixed (x0 : Fin 8) (x1 : State) : State.fixed (@effectNodeFault x0 x1) = State.fixed x1 := by
  unfold effectNodeFault; (repeat' split) <;> simp

@[simp] theorem effectRingWriterResume_fixed (x0 : RingId) (x1 : State) : State.fixed (@effectRingWriterResume x0 x1) = State.fixed x1 := by
  unfold effectRingWriterResume; (repeat' split) <;> simp

/-! ## Measure -/

@[simp] theorem State.measureResult_fixed (x0 : State) (x1 : ℕ) (x2 : Instance) (x3 : ℕ) (x4 : Byte) (x5 : ℕ) (x6 : ℕ) (x7 : ℕ) (x8 : ℕ) (x9 : Option (ℤ × ℕ × ℕ)) (x10 : U32) (x11 : U32) : State.fixed (@State.measureResult x0 x1 x2 x3 x4 x5 x6 x7 x8 x9 x10 x11) = State.fixed x0 := by
  simp [State.measureResult]

@[simp] theorem State.plainResult_fixed (x0 : State) (x1 : ℕ) (x2 : Instance) (x3 : GateSums) : State.fixed (@State.plainResult x0 x1 x2 x3) = State.fixed x0 := by
  simp [State.plainResult]

@[simp] theorem State.keepEven_fixed (x0 : State) (x1 : ℕ) (x2 : Option EvenGate) : State.fixed (@State.keepEven x0 x1 x2) = State.fixed x0 := by
  simp [State.keepEven]

@[simp] theorem State.pairGate_fixed (x0 : State) (x1 : ℕ) (x2 : Instance) (x3 : GateSums) : State.fixed (@State.pairGate x0 x1 x2 x3) = State.fixed x0 := by
  unfold State.pairGate
  (repeat' first
    | with_reducible rfl
    | (extract_lets +onlyGivenNames s1; have hs : State.fixed s1 = State.fixed x0 := by (simp [s1, *]; done)
       clear_value s1)
    | (extract_lets +onlyGivenNames s1; clear_value s1)
    | intro _ | with_reducible refine State.each_fixed_trans ?_ ?_ | split | (simp [*]; done))

@[simp] theorem effectGateClose_fixed (x0 : Fin 1024) (x1 : State) : State.fixed (@effectGateClose x0 x1) = State.fixed x1 := by
  unfold effectGateClose
  (repeat' first
    | with_reducible rfl
    | (extract_lets +onlyGivenNames s1
       have hs : State.fixed s1 = State.fixed x1 := by
         first | (simp [s1, *]; done) | (unfold s1; (repeat' first | with_reducible rfl | intro _ | with_reducible refine State.each_fixed_trans ?_ ?_ | split | (simp [*]; done)); done)
       clear_value s1)
    | (extract_lets +onlyGivenNames s1; clear_value s1)
    | intro _ | with_reducible refine State.each_fixed_trans ?_ ?_ | split | (simp [*]; done) | refine (pair_fixed ‹_› rfl).trans ?_
    | refine (State.newEntry_fixed _ _ _ _ ‹_›).trans ?_)

@[simp] theorem State.deleteInstance_fixed (x0 : State) (x1 : ℕ) : State.fixed (@State.deleteInstance x0 x1) = State.fixed x0 := by
  unfold State.deleteInstance; (repeat' split) <;> simp

@[simp] theorem State.replaceInstance_fixed (x0 : State) (x1 : ℕ) (x2 : Instance) : State.fixed (@State.replaceInstance x0 x1 x2) = State.fixed x0 := by
  unfold State.replaceInstance
  (repeat' first | with_reducible rfl | intro _ | with_reducible refine State.each_fixed_trans ?_ ?_ | split | (simp; done))

@[simp] theorem State.addInstance_fixed (x0 : State) (x1 : Frame) (x2 : ℕ) (x3 : ℕ) (x4 : Instance) : State.fixed (@State.addInstance x0 x1 x2 x3 x4) = State.fixed x0 := by
  unfold State.addInstance
  repeat' first
    | with_reducible rfl
    | (extract_lets +onlyGivenNames s1
       have hs : State.fixed s1 = State.fixed x0 := by
         first
           | (simp [s1, *]; done)
           | (unfold s1; (repeat' first | with_reducible rfl | intro _ | with_reducible refine State.each_fixed_trans ?_ ?_ | split | (simp [*]; done)); done)
       clear_value s1)
    | (extract_lets +onlyGivenNames s1; clear_value s1)
    | intro _
    | with_reducible refine State.each_fixed_trans ?_ ?_
    | (split; skip)
    | (simp [*]; done)
    | assumption
    | refine (pair_fixed ‹_› rfl).trans ?_
    | refine (triple_fixed ‹_› rfl).trans ?_
    | refine (State.newEntry_fixed _ _ _ _ ‹_›).trans ?_
    | refine (State.beginRecord_fixed _ _ _ _ _ ‹_›).trans ?_
    | refine (State.finishEnded_fixed _ _ _ _ ‹_›).trans ?_
    | refine (State.takeRecordId_fixed _ _ _ ‹_›).trans ?_
    | refine (State.takePages_fixed _ _ _ _ _ _ ‹_›).trans ?_
    | refine (State.sizeRing_fixed _ _ _ _ _ _ ‹_›).trans ?_
    | refine (State.startWork_fixed _ _ _ _ _ _ ‹_›).trans ?_
    | refine (State.applySteward_fixed _ _ _ _ ‹_›).trans ?_
    | refine (State.applyStage_fixed _ _ _ _ ‹_›).trans ?_
    | (simp; skip)

@[simp] theorem State.initEngines_fixed (x0 : State) (x1 : ℕ) : State.fixed (@State.initEngines x0 x1) = State.fixed x0 := by
  unfold State.initEngines
  (repeat' first | with_reducible rfl | intro _ | with_reducible refine State.each_fixed_trans ?_ ?_ | split | (simp; done))

theorem measureConfigCmd_run_fixed (f : Frame) (s : State) : ∀ a u, measureConfigCmd.run f s = .ok (a, u) → u.fixed = s.fixed := by
  unfold measureConfigCmd; dsimp only; intro a u h; exact answer_fixed _ _ _ _ h

theorem measureConfigCmd_apply_fixed (f : Frame) (s : State) : ∀ u, measureConfigCmd.apply f s = .ok u → u.fixed = s.fixed := by
  unfold measureConfigCmd
  dsimp only
  intro u h
  split at h
  · injection h
  · split at h
    · injection h with h; subst h; simp
    · split at h
      · injection h
      · split at h
        · injection h
        · obtain ⟨⟨n, es⟩, h0, h1⟩ := Except.bind_ok h
          exact (congrArg State.fixed (Except.ok.inj h1)).symm.trans ((State.initEngines_fixed _ _).trans (State.addInstance_fixed _ _ _ _ _))

/-! ## EngineCmds -/

@[simp] theorem State.assignEngine_fixed (x0 : State) (x1 : ℕ) (x2 : ℕ) : State.fixed (@State.assignEngine x0 x1 x2) = State.fixed x0 := by
  unfold State.assignEngine; (repeat' split) <;> simp

theorem State.doneAtOnce_fixed (x0 : State) (x1 : Frame) (x2 : ℕ) (x3 : ℕ) : ∀ a u, @State.doneAtOnce x0 x1 x2 x3 = .ok (a, u) → State.fixed u = State.fixed x0 := by
  unfold State.doneAtOnce; intro a u h
  obtain ⟨⟨j, s1⟩, h0, h⟩ := Except.bind_ok h
  refine ok_pair h ?_
  simp [State.startWork_fixed _ _ _ _ _ _ h0]

theorem engineAssignCmd_run_fixed (f : Frame) (s : State) : ∀ a u, engineAssignCmd.run f s = .ok (a, u) → u.fixed = s.fixed := by
  unfold engineAssignCmd; dsimp only; intro a u h; exact answer_fixed _ _ _ _ h

theorem engineAssignCmd_apply_fixed (f : Frame) (s : State) : ∀ u, engineAssignCmd.apply f s = .ok u → u.fixed = s.fixed := by
  unfold engineAssignCmd
  dsimp only
  intro u h
  split at h
  · injection h
  · refine ok_state h ?_
    refine State.each_fixed_trans (fun s e => State.assignEngine_fixed _ _ _) ?_
    exact State.each_fixed_trans (fun s e => State.deleteInstance_fixed _ _) rfl

theorem imageLoadCmd_run_fixed (f : Frame) (s : State) : ∀ a u, imageLoadCmd.run f s = .ok (a, u) → u.fixed = s.fixed := by
  unfold imageLoadCmd; dsimp only; intro a u h
  obtain ⟨⟨j, s1⟩, h0, h⟩ := Except.bind_ok h
  refine ok_pair h ?_
  simp [State.doneAtOnce_fixed _ _ _ _ _ _ h0]

theorem imageVerifyCmd_run_fixed (f : Frame) (s : State) : ∀ a u, imageVerifyCmd.run f s = .ok (a, u) → u.fixed = s.fixed := by
  unfold imageVerifyCmd; dsimp only; intro a u h
  obtain ⟨⟨j, s1⟩, h0, h⟩ := Except.bind_ok h
  refine ok_pair h ?_
  simp [State.doneAtOnce_fixed _ _ _ _ _ _ h0]

theorem imageDeleteCmd_run_fixed (f : Frame) (s : State) : ∀ a u, imageDeleteCmd.run f s = .ok (a, u) → u.fixed = s.fixed := by
  unfold imageDeleteCmd; dsimp only; intro a u h
  obtain ⟨⟨j, s1⟩, h0, h⟩ := Except.bind_ok h
  refine ok_pair h ?_
  simp [State.doneAtOnce_fixed _ _ _ _ _ _ h0]

theorem engineKeyEnrollCmd_run_fixed (f : Frame) (s : State) : ∀ a u, engineKeyEnrollCmd.run f s = .ok (a, u) → u.fixed = s.fixed := by
  unfold engineKeyEnrollCmd
  dsimp only
  intros
  rename_i h
  try simp only [bind, pure, Except.pure, Option.map_eq_some_iff] at h
  repeat' first
    | exact answer_fixed _ _ _ _ h
    | (replace h := Except.bind_ok h; rcases h with ⟨_, h0, h⟩)
    | (rcases h with ⟨_, h0, h⟩)
    | (extract_lets +onlyGivenNames s1 at h
       have hs : State.fixed s1 = State.fixed s := by
         first
           | (simp [s1, *]; done)
           | (unfold s1; (repeat' first | with_reducible rfl | intro _ | with_reducible refine State.each_fixed_trans ?_ ?_ | split | (simp [*]; done)); done)
       clear_value s1)
    | (extract_lets +onlyGivenNames s1 at h; clear_value s1)
    | (split at h; skip)
    | (injection h; done)
    | (injection h with h h1; subst h1)
    | (injection h with h; subst h)
    | (injection h with h)
  all_goals repeat' first
    | with_reducible rfl
    | (simp [*]; done)
    | assumption
    | refine (pair_fixed ‹_› rfl).trans ?_
    | refine (triple_fixed ‹_› rfl).trans ?_
    | refine (State.newEntry_fixed _ _ _ _ ‹_›).trans ?_
    | refine (State.beginRecord_fixed _ _ _ _ _ ‹_›).trans ?_
    | refine (State.takeRecordId_fixed _ _ _ ‹_›).trans ?_
    | refine (State.takePages_fixed _ _ _ _ _ _ ‹_›).trans ?_
    | refine (State.sizeRing_fixed _ _ _ _ _ _ ‹_›).trans ?_
    | refine (State.startWork_fixed _ _ _ _ _ _ ‹_›).trans ?_
    | refine (State.doneAtOnce_fixed _ _ _ _ _ _ ‹_›).trans ?_
    | refine (State.newItem_fixed _ _ _ _ _ _ _ ‹_›).trans ?_
    | intro _
    | with_reducible refine State.each_fixed_trans ?_ ?_
    | (split; skip)
    | (simp; skip)

theorem imageListCmd_run_fixed (f : Frame) (s : State) : ∀ a u, imageListCmd.run f s = .ok (a, u) → u.fixed = s.fixed := by
  unfold imageListCmd; dsimp only; intro a u h; exact answer_fixed _ _ _ _ h

theorem reducerConfigCmd_run_fixed (f : Frame) (s : State) : ∀ a u, reducerConfigCmd.run f s = .ok (a, u) → u.fixed = s.fixed := by
  unfold reducerConfigCmd; dsimp only; intro a u h; exact answer_fixed _ _ _ _ h

theorem reducerConfigCmd_apply_fixed (f : Frame) (s : State) : ∀ u, reducerConfigCmd.apply f s = .ok u → u.fixed = s.fixed := by
  unfold reducerConfigCmd
  dsimp only
  intros
  rename_i h
  try simp only [bind, pure, Except.pure, Option.map_eq_some_iff] at h
  repeat' first
    | exact answer_fixed _ _ _ _ h
    | (replace h := Except.bind_ok h; rcases h with ⟨_, h0, h⟩)
    | (rcases h with ⟨_, h0, h⟩)
    | (extract_lets +onlyGivenNames s1 at h
       have hs : State.fixed s1 = State.fixed s := by
         first
           | (simp [s1, *]; done)
           | (unfold s1; (repeat' first | with_reducible rfl | intro _ | with_reducible refine State.each_fixed_trans ?_ ?_ | split | (simp [*]; done)); done)
       clear_value s1)
    | (extract_lets +onlyGivenNames s1 at h; clear_value s1)
    | (split at h; skip)
    | (injection h; done)
    | (injection h with h h1; subst h1)
    | (injection h with h; subst h)
    | (injection h with h)
  all_goals repeat' first
    | with_reducible rfl
    | (simp [*]; done)
    | assumption
    | refine (pair_fixed ‹_› rfl).trans ?_
    | refine (triple_fixed ‹_› rfl).trans ?_
    | refine (State.newEntry_fixed _ _ _ _ ‹_›).trans ?_
    | refine (State.beginRecord_fixed _ _ _ _ _ ‹_›).trans ?_
    | refine (State.takeRecordId_fixed _ _ _ ‹_›).trans ?_
    | refine (State.takePages_fixed _ _ _ _ _ _ ‹_›).trans ?_
    | refine (State.sizeRing_fixed _ _ _ _ _ _ ‹_›).trans ?_
    | refine (State.startWork_fixed _ _ _ _ _ _ ‹_›).trans ?_
    | refine (State.doneAtOnce_fixed _ _ _ _ _ _ ‹_›).trans ?_
    | refine (State.newItem_fixed _ _ _ _ _ _ _ ‹_›).trans ?_
    | intro _
    | with_reducible refine State.each_fixed_trans ?_ ?_
    | (split; skip)
    | (simp; skip)

theorem engineStatusGetCmd_run_fixed (f : Frame) (s : State) : ∀ a u, engineStatusGetCmd.run f s = .ok (a, u) → u.fixed = s.fixed := by
  unfold engineStatusGetCmd; dsimp only; intro a u h; exact ok_pair h rfl

theorem reducerStatusGetCmd_run_fixed (f : Frame) (s : State) : ∀ a u, reducerStatusGetCmd.run f s = .ok (a, u) → u.fixed = s.fixed := by
  unfold reducerStatusGetCmd; dsimp only; intro a u h; exact answer_fixed _ _ _ _ h

theorem engineRestoreCmd_run_fixed (f : Frame) (s : State) : ∀ a u, engineRestoreCmd.run f s = .ok (a, u) → u.fixed = s.fixed := by
  unfold engineRestoreCmd; dsimp only; intro a u h; exact answer_fixed _ _ _ _ h

theorem engineRestoreCmd_apply_fixed (f : Frame) (s : State) : ∀ u, engineRestoreCmd.apply f s = .ok u → u.fixed = s.fixed := by
  unfold engineRestoreCmd; dsimp only; intro u h
  (repeat' split at h) <;> first | (injection h; done) | (refine ok_state h ?_; simp; done)

/-! ## Winnow -/

@[simp] theorem State.pushBlock_fixed (x0 : State) (x1 : ℕ) (x2 : ℕ) (x3 : ℕ) (x4 : Bytes) : State.fixed (@State.pushBlock x0 x1 x2 x3 x4) = State.fixed x0 := by
  unfold State.pushBlock; (repeat' split) <;> simp

@[simp] theorem State.flushJob_fixed (x0 : State) (x1 : ℕ) : State.fixed (@State.flushJob x0 x1) = State.fixed x0 := by
  unfold State.flushJob; (repeat' split) <;> simp

@[simp] theorem State.fillBlock_fixed (x0 : State) (x1 : ℕ) (x2 : ℕ) (x3 : ℕ) (x4 : ℕ) (x5 : Bytes) : State.fixed (@State.fillBlock x0 x1 x2 x3 x4 x5) = State.fixed x0 := by
  unfold State.fillBlock
  repeat' first
    | with_reducible rfl
    | (extract_lets +onlyGivenNames s1
       have hs : State.fixed s1 = State.fixed x0 := by
         first
           | (simp [s1, *]; done)
           | (unfold s1; (repeat' first | with_reducible rfl | intro _ | with_reducible refine State.each_fixed_trans ?_ ?_ | split | (simp [*]; done)); done)
       clear_value s1)
    | (extract_lets +onlyGivenNames s1; clear_value s1)
    | intro _
    | with_reducible refine State.each_fixed_trans ?_ ?_
    | (split; skip)
    | (simp [*]; done)
    | assumption
    | refine (pair_fixed ‹_› rfl).trans ?_
    | refine (triple_fixed ‹_› rfl).trans ?_
    | refine (State.newEntry_fixed _ _ _ _ ‹_›).trans ?_
    | refine (State.beginRecord_fixed _ _ _ _ _ ‹_›).trans ?_
    | refine (State.finishEnded_fixed _ _ _ _ ‹_›).trans ?_
    | refine (State.takeRecordId_fixed _ _ _ ‹_›).trans ?_
    | refine (State.takePages_fixed _ _ _ _ _ _ ‹_›).trans ?_
    | refine (State.sizeRing_fixed _ _ _ _ _ _ ‹_›).trans ?_
    | refine (State.startWork_fixed _ _ _ _ _ _ ‹_›).trans ?_
    | refine (State.applySteward_fixed _ _ _ _ ‹_›).trans ?_
    | refine (State.applyStage_fixed _ _ _ _ ‹_›).trans ?_
    | (simp; skip)

@[simp] theorem State.takeRecord_fixed (x0 : State) (x1 : ℕ) (x2 : Item) (x3 : Record) : State.fixed (@State.takeRecord x0 x1 x2 x3) = State.fixed x0 := by
  unfold State.takeRecord
  (repeat' first
    | with_reducible rfl
    | (extract_lets +onlyGivenNames s1
       have hs : State.fixed s1 = State.fixed x0 := by
         first | (simp [s1, *]; done) | (unfold s1; (repeat' first | with_reducible rfl | intro _ | with_reducible refine State.each_fixed_trans ?_ ?_ | split | (simp [*]; done)); done)
       clear_value s1)
    | (extract_lets +onlyGivenNames s1; clear_value s1)
    | intro _ | with_reducible refine State.each_fixed_trans ?_ ?_ | split | (simp [*]; done) | refine (pair_fixed ‹_› rfl).trans ?_
    | refine (State.newEntry_fixed _ _ _ _ ‹_›).trans ?_)

@[simp] theorem State.beginSpan_fixed (x0 : State) (x1 : ℕ) (x2 : ℕ) : State.fixed (@State.beginSpan x0 x1 x2) = State.fixed x0 := by
  unfold State.beginSpan
  repeat' first
    | with_reducible rfl
    | (extract_lets +onlyGivenNames s1
       have hs : State.fixed s1 = State.fixed x0 := by
         first
           | (simp [s1, *]; done)
           | (unfold s1; (repeat' first | with_reducible rfl | intro _ | with_reducible refine State.each_fixed_trans ?_ ?_ | split | (simp [*]; done)); done)
       clear_value s1)
    | (extract_lets +onlyGivenNames s1; clear_value s1)
    | intro _
    | with_reducible refine State.each_fixed_trans ?_ ?_
    | (split; skip)
    | (simp [*]; done)
    | assumption
    | refine (pair_fixed ‹_› rfl).trans ?_
    | refine (triple_fixed ‹_› rfl).trans ?_
    | refine (State.newEntry_fixed _ _ _ _ ‹_›).trans ?_
    | refine (State.beginRecord_fixed _ _ _ _ _ ‹_›).trans ?_
    | refine (State.finishEnded_fixed _ _ _ _ ‹_›).trans ?_
    | refine (State.takeRecordId_fixed _ _ _ ‹_›).trans ?_
    | refine (State.takePages_fixed _ _ _ _ _ _ ‹_›).trans ?_
    | refine (State.sizeRing_fixed _ _ _ _ _ _ ‹_›).trans ?_
    | refine (State.startWork_fixed _ _ _ _ _ _ ‹_›).trans ?_
    | refine (State.applySteward_fixed _ _ _ _ ‹_›).trans ?_
    | refine (State.applyStage_fixed _ _ _ _ ‹_›).trans ?_
    | (simp; skip)

@[simp] theorem State.takeIntoSpan_fixed (x0 : State) (x1 : ℕ) (x2 : Item) : State.fixed (@State.takeIntoSpan x0 x1 x2) = State.fixed x0 := by
  simp [State.takeIntoSpan]

@[simp] theorem State.feedStep_fixed (x0 : State) (x1 : ℕ) : State.fixed (@State.feedStep x0 x1) = State.fixed x0 := by
  unfold State.feedStep
  (repeat' first
    | with_reducible rfl
    | (extract_lets +onlyGivenNames s1
       have hs : State.fixed s1 = State.fixed x0 := by
         first | (simp [s1, *]; done) | (unfold s1; (repeat' first | with_reducible rfl | intro _ | with_reducible refine State.each_fixed_trans ?_ ?_ | split | (simp [*]; done)); done)
       clear_value s1)
    | (extract_lets +onlyGivenNames s1; clear_value s1)
    | intro _ | with_reducible refine State.each_fixed_trans ?_ ?_ | split | (simp [*]; done) | refine (pair_fixed ‹_› rfl).trans ?_
    | refine (State.newEntry_fixed _ _ _ _ ‹_›).trans ?_)

@[simp] theorem State.feedJob_fixed (x0 : State) (x1 : ℕ) : State.fixed (@State.feedJob x0 x1) = State.fixed x0 := by
  unfold State.feedJob
  split
  · exact foldl_fixed _ (fun s _ => State.feedStep_fixed _ _) _ _
  · rfl

@[simp] theorem State.modWlane_fixed (x0 : State) (x1 : ℕ) (x2 : WinnowLane → WinnowLane) : State.fixed (@State.modWlane x0 x1 x2) = State.fixed x0 := by
  simp [State.modWlane]

@[simp] theorem State.dispatchOne_fixed (x0 : State) : State.fixed (@State.dispatchOne x0) = State.fixed x0 := by
  unfold State.dispatchOne; (repeat' split) <;> simp

@[simp] theorem State.dispatchBlocks_fixed (x0 : State) : State.fixed (@State.dispatchBlocks x0) = State.fixed x0 := by
  unfold State.dispatchBlocks
  exact foldl_fixed _ (fun s _ => State.dispatchOne_fixed _) _ _

@[simp] theorem State.serveJobs_fixed (x0 : State) : State.fixed (@State.serveJobs x0) = State.fixed x0 := by
  unfold State.serveJobs
  repeat' first
    | with_reducible rfl
    | (extract_lets +onlyGivenNames s1
       have hs : State.fixed s1 = State.fixed x0 := by
         first
           | (simp [s1, *]; done)
           | (unfold s1; (repeat' first | with_reducible rfl | intro _ | with_reducible refine State.each_fixed_trans ?_ ?_ | split | (simp [*]; done)); done)
       clear_value s1)
    | (extract_lets +onlyGivenNames s1; clear_value s1)
    | intro _
    | with_reducible refine State.each_fixed_trans ?_ ?_
    | (split; skip)
    | (simp [*]; done)
    | assumption
    | refine (pair_fixed ‹_› rfl).trans ?_
    | refine (triple_fixed ‹_› rfl).trans ?_
    | refine (State.newEntry_fixed _ _ _ _ ‹_›).trans ?_
    | refine (State.beginRecord_fixed _ _ _ _ _ ‹_›).trans ?_
    | refine (State.finishEnded_fixed _ _ _ _ ‹_›).trans ?_
    | refine (State.takeRecordId_fixed _ _ _ ‹_›).trans ?_
    | refine (State.takePages_fixed _ _ _ _ _ _ ‹_›).trans ?_
    | refine (State.sizeRing_fixed _ _ _ _ _ _ ‹_›).trans ?_
    | refine (State.startWork_fixed _ _ _ _ _ _ ‹_›).trans ?_
    | refine (State.applySteward_fixed _ _ _ _ ‹_›).trans ?_
    | refine (State.applyStage_fixed _ _ _ _ ‹_›).trans ?_
    | (simp; skip)

/-! ## Granary -/

@[simp] theorem State.modCatalogue_fixed (x0 : State) (x1 : List ArchRecord → List ArchRecord) : State.fixed (@State.modCatalogue x0 x1) = State.fixed x0 := by
  simp [State.modCatalogue]

@[simp] theorem State.modEntries_fixed (x0 : State) (x1 : CatEntry → Bool) (x2 : CatEntry → CatEntry) : State.fixed (@State.modEntries x0 x1 x2) = State.fixed x0 := by
  simp [State.modEntries]

@[simp] theorem State.checkpoint_fixed (x0 : State) (x1 : ℕ) : State.fixed (@State.checkpoint x0 x1) = State.fixed x0 := by
  simp [State.checkpoint]

@[simp] theorem State.catChange_fixed (x0 : State) (x1 : ℕ) : State.fixed (@State.catChange x0 x1) = State.fixed x0 := by
  unfold State.catChange; dsimp only; split <;> simp

@[simp] theorem State.deleteRecords_fixed (x0 : State) (x1 : CatEntry → Bool) : State.fixed (@State.deleteRecords x0 x1) = State.fixed x0 := by
  unfold State.deleteRecords
  (repeat' first | with_reducible rfl | intro _ | with_reducible refine State.each_fixed_trans ?_ ?_ | split | (simp; done))

@[simp] theorem State.addDamage_fixed (x0 : State) (x1 : U48) (x2 : List (ℕ × ℕ)) (x3 : ℕ) : State.fixed (@State.addDamage x0 x1 x2 x3) = State.fixed x0 := by
  unfold State.addDamage
  (repeat' first
    | with_reducible rfl
    | (extract_lets +onlyGivenNames s1; have hs : State.fixed s1 = State.fixed x0 := by (simp [s1, *]; done)
       clear_value s1)
    | (extract_lets +onlyGivenNames s1; clear_value s1)
    | intro _ | with_reducible refine State.each_fixed_trans ?_ ?_ | split | (simp [*]; done))

@[simp] theorem State.writeWords_fixed (x0 : State) (x1 : ℕ) (x2 : Bool) : State.fixed (@State.writeWords x0 x1 x2) = State.fixed x0 := by
  unfold State.writeWords; (repeat' split) <;> simp

@[simp] theorem State.newStripe_fixed (x0 : State) (x1 : ℕ) : State.fixed (@State.newStripe x0 x1) = State.fixed x0 := by
  simp [State.newStripe]

@[simp] theorem State.writeStripes_fixed (x0 : State) (x1 : ℕ) (x2 : ℕ) (x3 : ℕ) : State.fixed (@State.writeStripes x0 x1 x2 x3).2 = State.fixed x0 := by
  induction x2 generalizing x0 x3 with
  | zero => rfl
  | succ n ih =>
    unfold State.writeStripes
    split
    · rfl
    · rfl
    · rename_i h _
      injection h with h
      subst h
      extract_lets s1
      have h1 : s1.fixed = x0.fixed := by unfold s1; split <;> simp
      clear_value s1
      split
      · extract_lets k s2 r
        exact (ih _ _).trans ((State.modCassette_fixed _ _ _).trans h1)
      · exact h1

@[simp] theorem State.writeBytes_fixed (x0 : State) (x1 : ℕ) (x2 : ℕ) (x3 : Bool) : State.fixed (@State.writeBytes x0 x1 x2 x3).2 = State.fixed x0 := by
  simp [State.writeBytes]

@[simp] theorem State.moveParts_fixed (x0 : State) (x1 : ℕ) (x2 : ℕ) (x3 : List (ℕ × ℕ)) : State.fixed (@State.moveParts x0 x1 x2 x3).2 = State.fixed x0 := by
  unfold State.moveParts
  suffices h : ∀ (l : List (Nat × Nat)) (acc : List (Nat × Nat) × State), (l.foldl (fun acc e =>
      if e.1 = x2 then
        let r := acc.2.writeBytes x1 e.2 true
        (acc.1 ++ r.1, r.2)
      else (acc.1 ++ [e], acc.2)) acc).2.fixed = acc.2.fixed from h x3 ([], x0)
  intro l
  induction l with
  | nil => intro acc; rfl
  | cons e l ih =>
    intro acc
    refine (ih _).trans ?_
    dsimp only
    by_cases h : e.1 = x2
    · rw [if_pos h]; exact State.writeBytes_fixed _ _ _ _
    · rw [if_neg h]

@[simp] theorem State.moveStripe_fixed (x0 : State) (x1 : ℕ) (x2 : ℕ) : State.fixed (@State.moveStripe x0 x1 x2) = State.fixed x0 := by
  have pass : ∀ {α β : Type} (f : β × State → α → β × State), (∀ p a, (f p a).2.fixed = p.2.fixed) → ∀ (l : List α) (p : β × State),
      (l.foldl f p).2.fixed = p.2.fixed := by
    intro α β f hf l
    induction l with
    | nil => intro p; rfl
    | cons a l ih => intro p; exact (ih _).trans (hf _ _)
  unfold State.moveStripe
  split
  · rfl
  extract_lets s1 cat jobs
  have h1 : s1.fixed = x0.fixed := State.modCassette_fixed _ _ _
  have h2 : cat.2.fixed = x0.fixed := by
    refine (pass _ (fun p a => ?_) _ _).trans h1
    split
    · exact State.moveParts_fixed _ _ _ _
    · rfl
  have h3 : jobs.2.fixed = x0.fixed := by
    refine (pass _ (fun p a => ?_) _ _).trans h2
    split
    · exact State.moveParts_fixed _ _ _ _
    · rfl
  exact (State.modGranary_fixed _ _).trans h3

@[simp] theorem State.moveBlock_fixed (x0 : State) (x1 : ℕ) (x2 : ℕ) : State.fixed (@State.moveBlock x0 x1 x2) = State.fixed x0 := by
  unfold State.moveBlock; (repeat' split) <;> simp

@[simp] theorem State.eraseBlock_fixed (x0 : State) (x1 : ℕ) (x2 : ℕ) : State.fixed (@State.eraseBlock x0 x1 x2) = State.fixed x0 := by
  unfold State.eraseBlock
  (repeat' first
    | with_reducible rfl
    | (extract_lets +onlyGivenNames s1; have hs : State.fixed s1 = State.fixed x0 := by (simp [s1, *]; done)
       clear_value s1)
    | (extract_lets +onlyGivenNames s1; clear_value s1)
    | intro _ | with_reducible refine State.each_fixed_trans ?_ ?_ | split | (simp [*]; done))

@[simp] theorem State.gleanMoves_fixed (x0 : State) (x1 : ℕ) : State.fixed (@State.gleanMoves x0 x1) = State.fixed x0 := by
  unfold State.gleanMoves
  (repeat' first
    | with_reducible rfl
    | (extract_lets +onlyGivenNames s1
       have hs : State.fixed s1 = State.fixed x0 := by
         first | (simp [s1, *]; done) | (unfold s1; (repeat' first | with_reducible rfl | intro _ | with_reducible refine State.each_fixed_trans ?_ ?_ | split | (simp [*]; done)); done)
       clear_value s1)
    | (extract_lets +onlyGivenNames s1; clear_value s1)
    | intro _ | with_reducible refine State.each_fixed_trans ?_ ?_ | split | (simp [*]; done) | refine (pair_fixed ‹_› rfl).trans ?_
    | refine (State.newEntry_fixed _ _ _ _ ‹_›).trans ?_)

@[simp] theorem State.holdJob_fixed (x0 : State) (x1 : ℕ) : State.fixed (@State.holdJob x0 x1) = State.fixed x0 := by
  unfold State.holdJob; (repeat' split) <;> simp

@[simp] theorem State.reclaim_fixed (x0 : State) (x1 : Job) (x2 : ℕ) (x3 : ℕ) (x4 : ℕ) : State.fixed (@State.reclaim x0 x1 x2 x3 x4) = State.fixed x0 := by
  induction x4 generalizing x0 with
  | zero => rfl
  | succ n ih =>
    unfold State.reclaim
    split
    · rfl
    · split
      · rw [ih]; simp
      · rfl

@[simp] theorem State.placeBlock_fixed (x0 : State) (x1 : ℕ) : State.fixed (@State.placeBlock x0 x1).2 = State.fixed x0 := by
  unfold State.placeBlock
  repeat' first
    | with_reducible rfl
    | (extract_lets +onlyGivenNames s1
       have hs : State.fixed s1 = State.fixed x0 := by
         first
           | (simp [s1, *]; done)
           | (unfold s1; (repeat' first | with_reducible rfl | intro _ | with_reducible refine State.each_fixed_trans ?_ ?_ | split | (simp [*]; done)); done)
       clear_value s1)
    | (extract_lets +onlyGivenNames s1; clear_value s1)
    | intro _
    | with_reducible refine State.each_fixed_trans ?_ ?_
    | (split; skip)
    | (simp [*]; done)
    | assumption
    | refine (pair_fixed ‹_› rfl).trans ?_
    | refine (triple_fixed ‹_› rfl).trans ?_
    | refine (State.newEntry_fixed _ _ _ _ ‹_›).trans ?_
    | refine (State.beginRecord_fixed _ _ _ _ _ ‹_›).trans ?_
    | refine (State.finishEnded_fixed _ _ _ _ ‹_›).trans ?_
    | refine (State.takeRecordId_fixed _ _ _ ‹_›).trans ?_
    | refine (State.takePages_fixed _ _ _ _ _ _ ‹_›).trans ?_
    | refine (State.sizeRing_fixed _ _ _ _ _ _ ‹_›).trans ?_
    | refine (State.startWork_fixed _ _ _ _ _ _ ‹_›).trans ?_
    | refine (State.applySteward_fixed _ _ _ _ ‹_›).trans ?_
    | refine (State.applyStage_fixed _ _ _ _ ‹_›).trans ?_
    | (simp; skip)

@[simp] theorem State.placeBlocks_fixed (x0 : State) (x1 : ℕ) (x2 : ℕ) : State.fixed (@State.placeBlocks x0 x1 x2) = State.fixed x0 := by
  induction x2 generalizing x0 with
  | zero => rfl
  | succ n ih =>
    unfold State.placeBlocks
    split
    rename_i more s1 h
    have h1 : s1.fixed = x0.fixed := (pair_fixed h rfl).trans (State.placeBlock_fixed _ _)
    split
    · rw [ih, h1]
    · exact h1

@[simp] theorem State.serveArchive_fixed (x0 : State) : State.fixed (@State.serveArchive x0) = State.fixed x0 := by
  unfold State.serveArchive
  split
  · rfl
  extract_lets s1
  have h1 : s1.fixed = x0.fixed := State.serveJobs_fixed _
  clear_value s1
  refine State.each_fixed_trans (fun s k => ?_) h1
  split
  · extract_lets s2
    have h2 : s2.fixed = s.fixed := State.placeBlocks_fixed _ _ _
    clear_value s2
    split
    · exact (State.holdJob_fixed _ _).trans h2
    · exact h2
  · rfl

@[simp] theorem State.dropBlocks_fixed (x0 : State) (x1 : ℕ) : State.fixed (@State.dropBlocks x0 x1) = State.fixed x0 := by
  simp [State.dropBlocks]

@[simp] theorem State.restartRecord_fixed (x0 : State) (x1 : ℕ) : State.fixed (@State.restartRecord x0 x1) = State.fixed x0 := by
  simp [State.restartRecord]

@[simp] theorem State.restartJobsOn_fixed (x0 : State) (x1 : ℕ) : State.fixed (@State.restartJobsOn x0 x1) = State.fixed x0 :=
  State.each_fixed_trans (fun s k => State.restartRecord_fixed s k) rfl

@[simp] theorem State.endJob_fixed (x0 : State) (x1 : ℕ) (x2 : Bool) : State.fixed (@State.endJob x0 x1 x2) = State.fixed x0 := by
  unfold State.endJob; (repeat' split) <;> simp

@[simp] theorem State.endJobsOn_fixed (x0 : State) (x1 : RingId) : State.fixed (@State.endJobsOn x0 x1) = State.fixed x0 := by
  unfold State.endJobsOn
  (repeat' first | with_reducible rfl | intro _ | with_reducible refine State.each_fixed_trans ?_ ?_ | split | (simp; done))

@[simp] theorem State.releaseTaken_fixed (x0 : State) (x1 : ℕ) (x2 : Job) : State.fixed (@State.releaseTaken x0 x1 x2) = State.fixed x0 := by
  simp [State.releaseTaken]

@[simp] theorem State.sealJob_fixed (x0 : State) (x1 : ℕ) : State.fixed (@State.sealJob x0 x1) = State.fixed x0 := by
  unfold State.sealJob; (repeat' split) <;> simp

@[simp] theorem effectWinnowFlushTimer_fixed (x0 : Fin 1024) (x1 : State) : State.fixed (@effectWinnowFlushTimer x0 x1) = State.fixed x1 := by
  unfold effectWinnowFlushTimer
  (repeat' first
    | with_reducible rfl
    | (extract_lets +onlyGivenNames s1; have hs : State.fixed s1 = State.fixed x1 := by (simp [s1, *]; done)
       clear_value s1)
    | (extract_lets +onlyGivenNames s1; clear_value s1)
    | intro _ | with_reducible refine State.each_fixed_trans ?_ ?_ | split | (simp [*]; done))

@[simp] theorem State.laneMismatch_fixed (x0 : State) (x1 : ℕ) : State.fixed (@State.laneMismatch x0 x1) = State.fixed x0 := by
  unfold State.laneMismatch
  (repeat' first
    | with_reducible rfl
    | (extract_lets +onlyGivenNames s1; have hs : State.fixed s1 = State.fixed x0 := by (simp [s1, *]; done)
       clear_value s1)
    | (extract_lets +onlyGivenNames s1; clear_value s1)
    | intro _ | with_reducible refine State.each_fixed_trans ?_ ?_ | split | (simp [*]; done))

@[simp] theorem State.blockLeaves_fixed (x0 : State) (x1 : ℕ) (x2 : WinnowBlock) (x3 : ℕ) (x4 : Bytes) : State.fixed (@State.blockLeaves x0 x1 x2 x3 x4) = State.fixed x0 := by
  simp [State.blockLeaves]

@[simp] theorem State.blockAgain_fixed (x0 : State) (x1 : ℕ) (x2 : WinnowBlock) : State.fixed (@State.blockAgain x0 x1 x2) = State.fixed x0 := by
  simp [State.blockAgain]

@[simp] theorem State.blockFails_fixed (x0 : State) (x1 : ℕ) (x2 : WinnowBlock) : State.fixed (@State.blockFails x0 x1 x2) = State.fixed x0 := by
  simp [State.blockFails]

@[simp] theorem State.verifyBlock_fixed (x0 : State) (x1 : ℕ) (x2 : WinnowBlock) (x3 : ℕ) (x4 : Bytes) (x5 : BlockFaults) : State.fixed (@State.verifyBlock x0 x1 x2 x3 x4 x5) = State.fixed x0 := by
  unfold State.verifyBlock
  (repeat' first
    | with_reducible rfl
    | (extract_lets +onlyGivenNames s1; have hs : State.fixed s1 = State.fixed x0 := by (simp [s1, *]; done)
       clear_value s1)
    | (extract_lets +onlyGivenNames s1; clear_value s1)
    | intro _ | with_reducible refine State.each_fixed_trans ?_ ?_ | split | (simp [*]; done))

@[simp] theorem effectWinnowBlockDone_fixed (x0 : Fin 4) (x1 : BlockFaults) (x3 : State) : State.fixed (@effectWinnowBlockDone x0 x1 x3) = State.fixed x3 := by
  unfold effectWinnowBlockDone
  repeat' first
    | with_reducible rfl
    | (extract_lets +onlyGivenNames s1
       have hs : State.fixed s1 = State.fixed x3 := by
         first
           | (simp [s1, *]; done)
           | (unfold s1; (repeat' first | with_reducible rfl | intro _ | with_reducible refine State.each_fixed_trans ?_ ?_ | split | (simp [*]; done)); done)
       clear_value s1)
    | (extract_lets +onlyGivenNames s1; clear_value s1)
    | intro _
    | with_reducible refine State.each_fixed_trans ?_ ?_
    | (split; skip)
    | (simp [*]; done)
    | assumption
    | refine (pair_fixed ‹_› rfl).trans ?_
    | refine (triple_fixed ‹_› rfl).trans ?_
    | refine (State.newEntry_fixed _ _ _ _ ‹_›).trans ?_
    | refine (State.beginRecord_fixed _ _ _ _ _ ‹_›).trans ?_
    | refine (State.finishEnded_fixed _ _ _ _ ‹_›).trans ?_
    | refine (State.takeRecordId_fixed _ _ _ ‹_›).trans ?_
    | refine (State.takePages_fixed _ _ _ _ _ _ ‹_›).trans ?_
    | refine (State.sizeRing_fixed _ _ _ _ _ _ ‹_›).trans ?_
    | refine (State.startWork_fixed _ _ _ _ _ _ ‹_›).trans ?_
    | refine (State.applySteward_fixed _ _ _ _ ‹_›).trans ?_
    | refine (State.applyStage_fixed _ _ _ _ ‹_›).trans ?_
    | (simp; skip)

@[simp] theorem State.wearCheck_fixed (x0 : State) (x1 : ℕ) : State.fixed (@State.wearCheck x0 x1) = State.fixed x0 := by
  unfold State.wearCheck
  (repeat' first
    | with_reducible rfl
    | (extract_lets +onlyGivenNames s1
       have hs : State.fixed s1 = State.fixed x0 := by
         first | (simp [s1, *]; done) | (unfold s1; (repeat' first | with_reducible rfl | intro _ | with_reducible refine State.each_fixed_trans ?_ ?_ | split | (simp [*]; done)); done)
       clear_value s1)
    | (extract_lets +onlyGivenNames s1; clear_value s1)
    | intro _ | with_reducible refine State.each_fixed_trans ?_ ?_ | split | (simp [*]; done) | refine (pair_fixed ‹_› rfl).trans ?_
    | refine (State.newEntry_fixed _ _ _ _ ‹_›).trans ?_)

@[simp] theorem State.benchCheck_fixed (x0 : State) (x1 : ℕ) : State.fixed (@State.benchCheck x0 x1) = State.fixed x0 := by
  unfold State.benchCheck
  (repeat' first
    | with_reducible rfl
    | (extract_lets +onlyGivenNames s1; have hs : State.fixed s1 = State.fixed x0 := by (simp [s1, *]; done)
       clear_value s1)
    | (extract_lets +onlyGivenNames s1; clear_value s1)
    | intro _ | with_reducible refine State.each_fixed_trans ?_ ?_ | split | (simp [*]; done))

@[simp] theorem State.badBlock_fixed (x0 : State) (x1 : ℕ) (x2 : ℕ) : State.fixed (@State.badBlock x0 x1 x2) = State.fixed x0 := by
  unfold State.badBlock
  (repeat' first
    | with_reducible rfl
    | (extract_lets +onlyGivenNames s1; have hs : State.fixed s1 = State.fixed x0 := by (simp [s1, *]; done)
       clear_value s1)
    | (extract_lets +onlyGivenNames s1; clear_value s1)
    | intro _ | with_reducible refine State.each_fixed_trans ?_ ?_ | split | (simp [*]; done))

@[simp] theorem effectGranaryProgramDone_fixed (x0 : Fin 128) (x1 : Fin 2800) (x2 : Bool) (x3 : Bool) (x4 : ℕ) (x5 : State) : State.fixed (@effectGranaryProgramDone x0 x1 x2 x3 x4 x5) = State.fixed x5 := by
  unfold effectGranaryProgramDone; (repeat' split) <;> simp

@[simp] theorem State.countReads_fixed (x0 : State) (x1 : ℕ) (x2 : ℕ) (x3 : ℕ) : State.fixed (@State.countReads x0 x1 x2 x3) = State.fixed x0 := by
  simp [State.countReads]

@[simp] theorem effectGranaryRead_fixed (x0 : U48) (x1 : Fin 128) (x2 : Fin 2800) (x3 : CodewordOutcome) (x4 : State) : State.fixed (@effectGranaryRead x0 x1 x2 x3 x4) = State.fixed x4 := by
  unfold effectGranaryRead
  extract_lets d s1
  have h1 : s1.fixed = x4.fixed := by simp [s1]
  clear_value s1
  split
  · split
    · simp [h1]
    · extract_lets extent
      split
      · exact h1
      · simp [h1]
  · exact h1

@[simp] theorem effectGleanBlockScrub_fixed (x0 : Fin 128) (x1 : Fin 2800) (x2 : ℕ) (x3 : Bool) (x4 : State) : State.fixed (@effectGleanBlockScrub x0 x1 x2 x3 x4) = State.fixed x4 := by
  unfold effectGleanBlockScrub
  (repeat' first
    | with_reducible rfl
    | (extract_lets +onlyGivenNames s1
       have hs : State.fixed s1 = State.fixed x4 := by
         first | (simp [s1, *]; done) | (unfold s1; (repeat' first | with_reducible rfl | intro _ | with_reducible refine State.each_fixed_trans ?_ ?_ | split | (simp [*]; done)); done)
       clear_value s1)
    | (extract_lets +onlyGivenNames s1; clear_value s1)
    | intro _ | with_reducible refine State.each_fixed_trans ?_ ?_ | split | (simp [*]; done) | refine (pair_fixed ‹_› rfl).trans ?_
    | refine (State.newEntry_fixed _ _ _ _ ‹_›).trans ?_)

@[simp] theorem effectBenchTrial_fixed (x0 : Fin 128) (x1 : ℕ) (x2 : State) : State.fixed (@effectBenchTrial x0 x1 x2) = State.fixed x2 := by
  simp [effectBenchTrial]

@[simp] theorem effectArchiveStallTimeout_fixed (x0 : Fin 1024) (x1 : State) : State.fixed (@effectArchiveStallTimeout x0 x1) = State.fixed x1 := by
  unfold effectArchiveStallTimeout
  (repeat' first
    | with_reducible rfl
    | (extract_lets +onlyGivenNames s1; have hs : State.fixed s1 = State.fixed x1 := by (simp [s1, *]; done)
       clear_value s1)
    | (extract_lets +onlyGivenNames s1; clear_value s1)
    | intro _ | with_reducible refine State.each_fixed_trans ?_ ?_ | split | (simp [*]; done))

@[simp] theorem State.recordsOffline_fixed (x0 : State) (x1 : ℕ) : State.fixed (@State.recordsOffline x0 x1) = State.fixed x0 := by
  simp [State.recordsOffline]

@[simp] theorem effectCassetteInsert_fixed (x0 : Fin 2) (x1 : State) : State.fixed (@effectCassetteInsert x0 x1) = State.fixed x1 := by
  simp [effectCassetteInsert]

@[simp] theorem State.bringRecords_fixed (x0 : State) (x1 : Fin 2) (x2 : Bool) (x3 : List CatEntry) : State.fixed (@State.bringRecords x0 x1 x2 x3) = State.fixed x0 := by
  unfold State.bringRecords
  (repeat' first | with_reducible rfl | intro _ | with_reducible refine State.each_fixed_trans ?_ ?_ | split | (simp; done))

@[simp] theorem State.freshDies_fixed (x0 : State) (x1 : ℕ) : State.fixed (@State.freshDies x0 x1) = State.fixed x0 := by
  unfold State.freshDies
  (repeat' first | with_reducible rfl | intro _ | with_reducible refine State.each_fixed_trans ?_ ?_ | split | (simp; done))

@[simp] theorem effectCassettePowerOn_fixed (x0 : Fin 2) (x1 : CassetteIdentity) (x2 : State) : State.fixed (@effectCassettePowerOn x0 x1 x2) = State.fixed x2 := by
  unfold effectCassettePowerOn
  (repeat' first
    | with_reducible rfl
    | (extract_lets +onlyGivenNames s1
       have hs : State.fixed s1 = State.fixed x2 := by
         first | (simp [s1, *]; done) | (unfold s1; (repeat' first | with_reducible rfl | intro _ | with_reducible refine State.each_fixed_trans ?_ ?_ | split | (simp [*]; done)); done)
       clear_value s1)
    | (extract_lets +onlyGivenNames s1; clear_value s1)
    | intro _ | with_reducible refine State.each_fixed_trans ?_ ?_ | split | (simp [*]; done) | refine (pair_fixed ‹_› rfl).trans ?_
    | refine (State.newEntry_fixed _ _ _ _ ‹_›).trans ?_)

@[simp] theorem effectCassetteRemove_fixed (x0 : Fin 2) (x1 : State) : State.fixed (@effectCassetteRemove x0 x1) = State.fixed x1 := by
  unfold effectCassetteRemove
  extract_lets c x
  split
  · rfl
  · rename_i quiet s1 s2 s3 s4 s5 s6 _
    have h1 : s1.fixed = x1.fixed := State.recordsOffline_fixed _ _
    have h2 : s2.fixed = x1.fixed := (State.withEntry_fixed fun s j => State.partialEntry_fixed _ _ _).trans h1
    have h3 : s3.fixed = x1.fixed := (State.withEntry_fixed fun s j => State.partialEntry_fixed _ _ _).trans h2
    have h4 : s4.fixed = x1.fixed := (State.withEntry_fixed fun s j => State.partialEntry_fixed _ _ _).trans h3
    have h5 : s5.fixed = x1.fixed := (State.modCassette_fixed _ _ _).trans h4
    have h6 : s6.fixed = x1.fixed := by
      unfold s6
      split
      · exact h5
      · exact (State.raise_fixed _ _ _ _).trans h5
    exact (State.serveArchive_fixed _).trans (State.each_fixed_trans (fun s k => State.restartRecord_fixed _ _) h6)

@[simp] theorem effectCassetteScanDone_fixed (x0 : Fin 2) (x1 : List U48) (x2 : State) : State.fixed (@effectCassetteScanDone x0 x1 x2) = State.fixed x2 := by
  unfold effectCassetteScanDone
  extract_lets c
  split
  · rfl
  · rename_i s1 _
    have h1 : s1.fixed = x2.fixed := by
      refine State.each_fixed_trans (fun s e => ?_) rfl
      split
      rename_i a s2 h
      have h2 : s2.fixed = s.fixed := (pair_fixed h rfl).trans (State.free_fixed _)
      split
      rename_i b s3 h
      have h3 : s3.fixed = s.fixed := (pair_fixed h rfl).trans ((State.free_fixed _).trans h2)
      exact (State.addDamage_fixed _ _ _ _).trans h3
    exact (State.serveArchive_fixed _).trans ((State.modEntries_fixed _ _ _).trans ((State.modCassette_fixed _ _ _).trans h1))

@[simp] theorem effectCassetteFormatDone_fixed (x0 : Fin 2) (x1 : State) : State.fixed (@effectCassetteFormatDone x0 x1) = State.fixed x1 := by
  unfold effectCassetteFormatDone
  (repeat' first
    | with_reducible rfl
    | (extract_lets +onlyGivenNames s1
       have hs : State.fixed s1 = State.fixed x1 := by
         first | (simp [s1, *]; done) | (unfold s1; (repeat' first | with_reducible rfl | intro _ | with_reducible refine State.each_fixed_trans ?_ ?_ | split | (simp [*]; done)); done)
       clear_value s1)
    | (extract_lets +onlyGivenNames s1; clear_value s1)
    | intro _ | with_reducible refine State.each_fixed_trans ?_ ?_ | split | (simp [*]; done) | refine (pair_fixed ‹_› rfl).trans ?_
    | refine (State.newEntry_fixed _ _ _ _ ‹_›).trans ?_)

@[simp] theorem State.copyRecords_fixed (x0 : State) (x1 : ℕ) (x2 : List CatEntry) (x3 : ℕ) : State.fixed (@State.copyRecords x0 x1 x2 x3).2 = State.fixed x0 := by
  induction x2 generalizing x0 x3 with
  | nil => rfl
  | cons e l ih =>
    unfold State.copyRecords
    extract_lets o s1
    have h1 : s1.fixed = x0.fixed := by simp [s1]
    clear_value s1
    split
    · split
      rename_i parts s2 h2
      have hb : s2.fixed = x0.fixed := (pair_fixed h2 (State.writeBytes_fixed _ _ _ _)).trans h1
      extract_lets s3 s4
      have h3 : s3.fixed = x0.fixed := by simp [s3, hb]
      have h4 : s4.fixed = x0.fixed := by simp [s4, h3]
      clear_value s4
      rw [ih, h4]
    · rw [ih]

@[simp] theorem effectEvacuationDone_fixed (x0 : Fin 2) (x1 : State) : State.fixed (@effectEvacuationDone x0 x1) = State.fixed x1 := by
  unfold effectEvacuationDone
  repeat' first
    | with_reducible rfl
    | (extract_lets +onlyGivenNames s1
       have hs : State.fixed s1 = State.fixed x1 := by
         first
           | (simp [s1, *]; done)
           | (unfold s1; (repeat' first | with_reducible rfl | intro _ | with_reducible refine State.each_fixed_trans ?_ ?_ | split | (simp [*]; done)); done)
       clear_value s1)
    | (extract_lets +onlyGivenNames s1; clear_value s1)
    | intro _
    | with_reducible refine State.each_fixed_trans ?_ ?_
    | (split; skip)
    | (simp [*]; done)
    | assumption
    | refine (pair_fixed ‹_› rfl).trans ?_
    | refine (triple_fixed ‹_› rfl).trans ?_
    | refine (State.newEntry_fixed _ _ _ _ ‹_›).trans ?_
    | refine (State.beginRecord_fixed _ _ _ _ _ ‹_›).trans ?_
    | refine (State.finishEnded_fixed _ _ _ _ ‹_›).trans ?_
    | refine (State.takeRecordId_fixed _ _ _ ‹_›).trans ?_
    | refine (State.takePages_fixed _ _ _ _ _ _ ‹_›).trans ?_
    | refine (State.sizeRing_fixed _ _ _ _ _ _ ‹_›).trans ?_
    | refine (State.startWork_fixed _ _ _ _ _ _ ‹_›).trans ?_
    | refine (State.applySteward_fixed _ _ _ _ ‹_›).trans ?_
    | refine (State.applyStage_fixed _ _ _ _ ‹_›).trans ?_
    | (simp; skip)

@[simp] theorem effectCassetteRetireDone_fixed (x0 : Fin 2) (x1 : State) : State.fixed (@effectCassetteRetireDone x0 x1) = State.fixed x1 := by
  unfold effectCassetteRetireDone
  extract_lets c
  split
  · extract_lets s1 s2 s3
    have h1 : s1.fixed = x1.fixed := (State.completeAll_fixed _ _).trans (State.checkpoint_fixed _ _)
    have h2 : s2.fixed = x1.fixed := (State.modCassette_fixed _ _ _).trans h1
    have h3 : s3.fixed = x1.fixed := (State.recordsOffline_fixed _ _).trans h2
    exact (State.serveArchive_fixed _).trans (State.each_fixed_trans (fun s k => State.restartRecord_fixed _ _) h3)
  · rfl

@[simp] theorem State.runLanes_fixed (x0 : State) (x1 : ℕ) : State.fixed (@State.runLanes x0 x1) = State.fixed x0 := by
  induction x1 generalizing x0 with
  | zero => rfl
  | succ n ih =>
    unfold State.runLanes
    refine (ih _).trans ((State.dispatchBlocks_fixed _).trans (State.each_fixed_trans (fun s l => ?_) rfl))
    split
    · split
      rename_i v s2 h
      exact (State.blockLeaves_fixed _ _ _ _ _).trans ((pair_fixed h rfl).trans (State.free_fixed _))
    · rfl

@[simp] theorem State.archivePowerFail_fixed (x0 : State) : State.fixed (@State.archivePowerFail x0) = State.fixed x0 := by
  unfold State.archivePowerFail
  extract_lets ks s1 s2 s3
  have h1 : s1.fixed = x0.fixed := State.each_fixed_trans (fun s k => State.flushJob_fixed _ _) rfl
  have h2 : s2.fixed = x0.fixed := (State.runLanes_fixed _ _).trans h1
  have h3 : s3.fixed = x0.fixed := State.each_fixed_trans (fun s k => State.placeBlocks_fixed _ _ _) h2
  exact State.each_fixed_trans (fun s k => State.sealJob_fixed _ _) h3

/-! ## GranaryCmds -/

theorem State.createJob_fixed (x0 : State) (x1 : Frame) : ∀ u, @State.createJob x0 x1 = .ok u → State.fixed u = State.fixed x0 := by
  unfold State.createJob
  intros
  rename_i h
  try simp only [bind, pure, Except.pure, Option.map_eq_some_iff] at h
  repeat' first
    | exact answer_fixed _ _ _ _ h
    | (replace h := Except.bind_ok h; rcases h with ⟨_, h0, h⟩)
    | (rcases h with ⟨_, h0, h⟩)
    | (extract_lets +onlyGivenNames s1 at h
       have hs : State.fixed s1 = State.fixed x0 := by
         first
           | (simp [s1, *]; done)
           | (unfold s1; (repeat' first | with_reducible rfl | intro _ | with_reducible refine State.each_fixed_trans ?_ ?_ | split | (simp [*]; done)); done)
       clear_value s1)
    | (extract_lets +onlyGivenNames s1 at h; clear_value s1)
    | (split at h; skip)
    | (injection h; done)
    | (injection h with h h1; subst h1)
    | (injection h with h; subst h)
    | (injection h with h)
  all_goals repeat' first
    | with_reducible rfl
    | (simp [*]; done)
    | assumption
    | refine (pair_fixed ‹_› rfl).trans ?_
    | refine (triple_fixed ‹_› rfl).trans ?_
    | refine (State.newEntry_fixed _ _ _ _ ‹_›).trans ?_
    | refine (State.beginRecord_fixed _ _ _ _ _ ‹_›).trans ?_
    | refine (State.takeRecordId_fixed _ _ _ ‹_›).trans ?_
    | refine (State.takePages_fixed _ _ _ _ _ _ ‹_›).trans ?_
    | refine (State.sizeRing_fixed _ _ _ _ _ _ ‹_›).trans ?_
    | refine (State.startWork_fixed _ _ _ _ _ _ ‹_›).trans ?_
    | refine (State.doneAtOnce_fixed _ _ _ _ _ _ ‹_›).trans ?_
    | refine (State.newItem_fixed _ _ _ _ _ _ _ ‹_›).trans ?_
    | intro _
    | with_reducible refine State.each_fixed_trans ?_ ?_
    | (split; skip)
    | (simp; skip)

theorem winnowConfigCmd_run_fixed (f : Frame) (s : State) : ∀ a u, winnowConfigCmd.run f s = .ok (a, u) → u.fixed = s.fixed := by
  unfold winnowConfigCmd; dsimp only; intro a u h; exact answer_fixed _ _ _ _ h

theorem winnowConfigCmd_apply_fixed (f : Frame) (s : State) : ∀ u, winnowConfigCmd.apply f s = .ok u → u.fixed = s.fixed := by
  unfold winnowConfigCmd
  dsimp only
  intros
  rename_i h
  try simp only [bind, pure, Except.pure, Option.map_eq_some_iff] at h
  repeat' first
    | exact answer_fixed _ _ _ _ h
    | (replace h := Except.bind_ok h; rcases h with ⟨_, h0, h⟩)
    | (rcases h with ⟨_, h0, h⟩)
    | (extract_lets +onlyGivenNames s1 at h
       have hs : State.fixed s1 = State.fixed s := by
         first
           | (simp [s1, *]; done)
           | (unfold s1; (repeat' first | with_reducible rfl | intro _ | with_reducible refine State.each_fixed_trans ?_ ?_ | split | (simp [*]; done)); done)
       clear_value s1)
    | (extract_lets +onlyGivenNames s1 at h; clear_value s1)
    | (split at h; skip)
    | (injection h; done)
    | (injection h with h h1; subst h1)
    | (injection h with h; subst h)
    | (injection h with h)
  all_goals repeat' first
    | with_reducible rfl
    | (simp [*]; done)
    | assumption
    | refine (pair_fixed ‹_› rfl).trans ?_
    | refine (triple_fixed ‹_› rfl).trans ?_
    | refine (State.newEntry_fixed _ _ _ _ ‹_›).trans ?_
    | refine (State.beginRecord_fixed _ _ _ _ _ ‹_›).trans ?_
    | refine (State.takeRecordId_fixed _ _ _ ‹_›).trans ?_
    | refine (State.takePages_fixed _ _ _ _ _ _ ‹_›).trans ?_
    | refine (State.sizeRing_fixed _ _ _ _ _ _ ‹_›).trans ?_
    | refine (State.startWork_fixed _ _ _ _ _ _ ‹_›).trans ?_
    | refine (State.doneAtOnce_fixed _ _ _ _ _ _ ‹_›).trans ?_
    | refine (State.newItem_fixed _ _ _ _ _ _ _ ‹_›).trans ?_
    | intro _
    | with_reducible refine State.each_fixed_trans ?_ ?_
    | (split; skip)
    | (simp; skip)

theorem winnowFlushCmd_run_fixed (f : Frame) (s : State) : ∀ a u, winnowFlushCmd.run f s = .ok (a, u) → u.fixed = s.fixed := by
  unfold winnowFlushCmd
  dsimp only
  intro a u h
  refine ok_pair h ?_
  exact (State.serveArchive_fixed _).trans (State.each_fixed_trans (fun s k => State.flushJob_fixed _ _) (State.serveArchive_fixed _))

theorem winnowStatusGetCmd_run_fixed (f : Frame) (s : State) : ∀ a u, winnowStatusGetCmd.run f s = .ok (a, u) → u.fixed = s.fixed := by
  unfold winnowStatusGetCmd; dsimp only; intro a u h; exact answer_fixed _ _ _ _ h

theorem granaryStatusGetCmd_run_fixed (f : Frame) (s : State) : ∀ a u, granaryStatusGetCmd.run f s = .ok (a, u) → u.fixed = s.fixed := by
  unfold granaryStatusGetCmd; dsimp only; intro a u h; exact ok_pair h rfl

theorem archiveJobConfigCmd_run_fixed (f : Frame) (s : State) : ∀ a u, archiveJobConfigCmd.run f s = .ok (a, u) → u.fixed = s.fixed := by
  unfold archiveJobConfigCmd; dsimp only; intro a u h; exact answer_fixed _ _ _ _ h

theorem archiveJobConfigCmd_apply_fixed (f : Frame) (s : State) : ∀ u, archiveJobConfigCmd.apply f s = .ok u → u.fixed = s.fixed := by
  unfold archiveJobConfigCmd
  dsimp only
  intro u h
  split at h
  · split at h
    · injection h
    · split at h
      · exact (congrArg State.fixed (Except.ok.inj h)).symm.trans (State.endJob_fixed _ _ _)
      · exact (State.createJob_fixed _ _ _ h).trans (State.endJob_fixed _ _ _)
  · split at h
    · injection h with h; rw [h]
    · split at h
      · injection h
      · exact State.createJob_fixed _ _ _ h

theorem archiveReadCmd_run_fixed (f : Frame) (s : State) : ∀ a u, archiveReadCmd.run f s = .ok (a, u) → u.fixed = s.fixed := by
  unfold archiveReadCmd; dsimp only; intro a u h
  obtain ⟨⟨j, s1⟩, h0, h⟩ := Except.bind_ok h
  refine ok_pair h ?_
  simp [State.startWork_fixed _ _ _ _ _ _ h0]

theorem archiveListCmd_run_fixed (f : Frame) (s : State) : ∀ a u, archiveListCmd.run f s = .ok (a, u) → u.fixed = s.fixed := by
  unfold archiveListCmd; dsimp only; intro a u h; exact answer_fixed _ _ _ _ h

theorem archiveRetainCmd_run_fixed (f : Frame) (s : State) : ∀ a u, archiveRetainCmd.run f s = .ok (a, u) → u.fixed = s.fixed := by
  unfold archiveRetainCmd
  dsimp only
  intro a u h
  obtain ⟨⟨j, s1⟩, h0, h⟩ := Except.bind_ok h
  have h1 : s1.fixed = s.fixed := State.doneAtOnce_fixed _ _ _ _ _ _ h0
  refine ok_pair h ?_
  refine (State.serveArchive_fixed _).trans ?_
  split
  · exact (State.deleteRecords_fixed _ _).trans h1
  · exact State.each_fixed_trans (fun s k => State.catChange_fixed _ _) ((State.modEntries_fixed _ _ _).trans h1)

theorem damageListGetCmd_run_fixed (f : Frame) (s : State) : ∀ a u, damageListGetCmd.run f s = .ok (a, u) → u.fixed = s.fixed := by
  unfold damageListGetCmd; dsimp only; intro a u h; exact answer_fixed _ _ _ _ h

theorem gleanConfigCmd_run_fixed (f : Frame) (s : State) : ∀ a u, gleanConfigCmd.run f s = .ok (a, u) → u.fixed = s.fixed := by
  unfold gleanConfigCmd; dsimp only; intro a u h; exact answer_fixed _ _ _ _ h

theorem gleanConfigCmd_apply_fixed (f : Frame) (s : State) : ∀ u, gleanConfigCmd.apply f s = .ok u → u.fixed = s.fixed := by
  unfold gleanConfigCmd; dsimp only; intro u h; refine ok_state h ?_; simp

theorem cassetteFormatCmd_run_fixed (f : Frame) (s : State) : ∀ a u, cassetteFormatCmd.run f s = .ok (a, u) → u.fixed = s.fixed := by
  unfold cassetteFormatCmd
  dsimp only
  intro a u h
  obtain ⟨⟨j, s1⟩, h0, h⟩ := Except.bind_ok h
  have h1 : s1.fixed = s.fixed := State.startWork_fixed _ _ _ _ _ _ h0
  refine ok_pair h ?_
  exact (State.serveArchive_fixed _).trans (State.each_fixed_trans (fun s k => State.restartRecord_fixed _ _) ((State.modCassette_fixed _ _ _).trans h1))

theorem cassetteEvacuateCmd_run_fixed (f : Frame) (s : State) : ∀ a u, cassetteEvacuateCmd.run f s = .ok (a, u) → u.fixed = s.fixed := by
  unfold cassetteEvacuateCmd
  dsimp only
  intro a u h
  obtain ⟨⟨j, s1⟩, h0, h⟩ := Except.bind_ok h
  have h1 : s1.fixed = s.fixed := State.startWork_fixed _ _ _ _ _ _ h0
  refine ok_pair h ?_
  exact (State.serveArchive_fixed _).trans (State.each_fixed_trans (fun s k => State.restartRecord_fixed _ _) ((State.modCassette_fixed _ _ _).trans h1))

theorem cassetteRetireCmd_run_fixed (f : Frame) (s : State) : ∀ a u, cassetteRetireCmd.run f s = .ok (a, u) → u.fixed = s.fixed := by
  unfold cassetteRetireCmd
  dsimp only
  intro a u h
  split at h
  · obtain ⟨⟨j, s1⟩, h0, h⟩ := Except.bind_ok h
    refine ok_pair h ?_
    exact (State.modCassette_fixed _ _ _).trans (State.startWork_fixed _ _ _ _ _ _ h0)
  · obtain ⟨⟨j, s1⟩, h0, h⟩ := Except.bind_ok h
    refine ok_pair h ?_
    exact (State.serveArchive_fixed _).trans ((State.modEntries_fixed _ _ _).trans ((State.modCassette_fixed _ _ _).trans
      (State.doneAtOnce_fixed _ _ _ _ _ _ h0)))

/-! ## Schedule -/

@[simp] theorem State.dramTraffic_fixed (x0 : State) (x1 : ℕ) (x2 : DramTraffic) : State.fixed (@State.dramTraffic x0 x1 x2) = State.fixed x0 := by
  simp [State.dramTraffic]

/-! ## Dram -/

@[simp] theorem State.raiseStook_fixed (x0 : State) (x1 : ℕ) (x2 : ℕ) (x3 : Bytes) (x4 : optParam (List ℕ) []) : State.fixed (@State.raiseStook x0 x1 x2 x3 x4) = State.fixed x0 := by
  simp [State.raiseStook]

@[simp] theorem State.isolateChannel_fixed (x0 : State) (x1 : ℕ) : State.fixed (@State.isolateChannel x0 x1) = State.fixed x0 := by
  unfold State.isolateChannel
  (repeat' first
    | with_reducible rfl
    | (extract_lets +onlyGivenNames s1
       have hs : State.fixed s1 = State.fixed x0 := by
         first | (simp [s1, *]; done) | (unfold s1; (repeat' first | with_reducible rfl | intro _ | with_reducible refine State.each_fixed_trans ?_ ?_ | split | (simp [*]; done)); done)
       clear_value s1)
    | (extract_lets +onlyGivenNames s1; clear_value s1)
    | intro _ | with_reducible refine State.each_fixed_trans ?_ ?_ | split | (simp [*]; done) | refine (pair_fixed ‹_› rfl).trans ?_
    | refine (State.newEntry_fixed _ _ _ _ ‹_›).trans ?_)

@[simp] theorem State.dropStream_fixed (x0 : State) (x1 : ℕ) : State.fixed (@State.dropStream x0 x1) = State.fixed x0 := by
  simp [State.dropStream]

@[simp] theorem State.poisonReader_fixed (x0 : State) (x1 : ReadUser) : State.fixed (@State.poisonReader x0 x1) = State.fixed x0 := by
  unfold State.poisonReader
  split
  · split
    · split
      rename_i v s1 h
      exact (State.poisonUnit_fixed _ _ _ _).trans ((pair_fixed h rfl).trans (State.free_fixed _))
    · rfl
  · exact State.modStream_fixed _ _ _
  · rfl
  · exact State.modJob_fixed _ _ _
  · rfl

@[simp] theorem State.poisonOutstanding_fixed (x0 : State) (x1 : ℕ) : State.fixed (@State.poisonOutstanding x0 x1) = State.fixed x0 := by
  unfold State.poisonOutstanding
  (repeat' first | with_reducible rfl | intro _ | with_reducible refine State.each_fixed_trans ?_ ?_ | split | (simp; done))

@[simp] theorem State.isolateDram_fixed (x0 : State) (x1 : ℕ) (x2 : ℕ) (x3 : DramState) : State.fixed (@State.isolateDram x0 x1 x2 x3) = State.fixed x0 := by
  unfold State.isolateDram
  (repeat' first
    | with_reducible rfl
    | (extract_lets +onlyGivenNames s1
       have hs : State.fixed s1 = State.fixed x0 := by
         first | (simp [s1, *]; done) | (unfold s1; (repeat' first | with_reducible rfl | intro _ | with_reducible refine State.each_fixed_trans ?_ ?_ | split | (simp [*]; done)); done)
       clear_value s1)
    | (extract_lets +onlyGivenNames s1; clear_value s1)
    | intro _ | with_reducible refine State.each_fixed_trans ?_ ?_ | split | (simp [*]; done) | refine (pair_fixed ‹_› rfl).trans ?_
    | refine (State.newEntry_fixed _ _ _ _ ‹_›).trans ?_)

@[simp] theorem State.dramCorrected_fixed (x0 : State) (x1 : ℕ) (x2 : Fin 10) : State.fixed (@State.dramCorrected x0 x1 x2) = State.fixed x0 := by
  unfold State.dramCorrected
  (repeat' first
    | with_reducible rfl
    | (extract_lets +onlyGivenNames s1; have hs : State.fixed s1 = State.fixed x0 := by (simp [s1, *]; done)
       clear_value s1)
    | (extract_lets +onlyGivenNames s1; clear_value s1)
    | intro _ | with_reducible refine State.each_fixed_trans ?_ ?_ | split | (simp [*]; done))

@[simp] theorem State.markPage_fixed (x0 : State) (x1 : ℕ) : State.fixed (@State.markPage x0 x1) = State.fixed x0 := by
  unfold State.markPage; (repeat' split) <;> simp

@[simp] theorem State.dramUncorrectable_fixed (x0 : State) (x1 : ℕ) (x2 : ℕ) (x3 : BitVec 34) (x4 : ReadUser) : State.fixed (@State.dramUncorrectable x0 x1 x2 x3 x4) = State.fixed x0 := by
  unfold State.dramUncorrectable
  (repeat' first
    | with_reducible rfl
    | (extract_lets +onlyGivenNames s1; have hs : State.fixed s1 = State.fixed x0 := by (simp [s1, *]; done)
       clear_value s1)
    | (extract_lets +onlyGivenNames s1; clear_value s1)
    | intro _ | with_reducible refine State.each_fixed_trans ?_ ?_ | split | (simp [*]; done))

@[simp] theorem effectDramReadReturn_fixed (x0 : Fin 8) (x1 : List DramRequest) (x2 : List Nat) (x3 : List (BitVec 32)) (x4 : List BeatDecode) (x5 : State) : State.fixed (@effectDramReadReturn x0 x1 x2 x3 x4 x5) = State.fixed x5 := by
  unfold effectDramReadReturn
  (repeat' first
    | with_reducible rfl
    | (extract_lets +onlyGivenNames s1; have hs : State.fixed s1 = State.fixed x5 := by (simp [s1, *]; done)
       clear_value s1)
    | (extract_lets +onlyGivenNames s1; clear_value s1)
    | intro _ | with_reducible refine State.each_fixed_trans ?_ ?_ | split | (simp [*]; done))

@[simp] theorem effectPatrolScrubRead_fixed (x0 : Fin 8) (x1 : List BeatDecode) (x2 : State) : State.fixed (@effectPatrolScrubRead x0 x1 x2) = State.fixed x2 := by
  unfold effectPatrolScrubRead
  (repeat' first
    | with_reducible rfl
    | (extract_lets +onlyGivenNames s1; have hs : State.fixed s1 = State.fixed x2 := by (simp [s1, *]; done)
       clear_value s1)
    | (extract_lets +onlyGivenNames s1; clear_value s1)
    | intro _ | with_reducible refine State.each_fixed_trans ?_ ?_ | split | (simp [*]; done))

@[simp] theorem effectDramTempRead_fixed (x0 : Fin 8) (x1 : ℤ) (x2 : State) : State.fixed (@effectDramTempRead x0 x1 x2) = State.fixed x2 := by
  unfold effectDramTempRead
  (repeat' first
    | with_reducible rfl
    | (extract_lets +onlyGivenNames s1; have hs : State.fixed s1 = State.fixed x2 := by (simp [s1, *]; done)
       clear_value s1)
    | (extract_lets +onlyGivenNames s1; clear_value s1)
    | intro _ | with_reducible refine State.each_fixed_trans ?_ ?_ | split | (simp [*]; done))

@[simp] theorem effectDramDriftTrack_fixed (x0 : Fin 8) (x1 : Fin 10) (x2 : Bool) (x3 : State) : State.fixed (@effectDramDriftTrack x0 x1 x2 x3) = State.fixed x3 := by
  unfold effectDramDriftTrack
  (repeat' first
    | with_reducible rfl
    | (extract_lets +onlyGivenNames s1; have hs : State.fixed s1 = State.fixed x3 := by (simp [s1, *]; done)
       clear_value s1)
    | (extract_lets +onlyGivenNames s1; clear_value s1)
    | intro _ | with_reducible refine State.each_fixed_trans ?_ ?_ | split | (simp [*]; done))

@[simp] theorem effectDramTrainingDone_fixed (x0 : Fin 8) (x1 : List LaneTraining) (x2 : State) : State.fixed (@effectDramTrainingDone x0 x1 x2) = State.fixed x2 := by
  unfold effectDramTrainingDone
  extract_lets x
  split
  · rfl
  · split
    rename_i noise s1 h
    have h1 : s1.fixed = x2.fixed := pair_fixed h (State.free_fixed _)
    extract_lets s2 marks s3 s4
    have h2 : s2.fixed = x2.fixed := (State.modDram_fixed _ _ _).trans h1
    have h3 : s3.fixed = x2.fixed := (State.modDram_fixed _ _ _).trans h2
    have h4 : s4.fixed = x2.fixed := by simp [s4, h2]
    clear_value s3 s4 s2 x
    split
    · split
      · simp [h3]
      · exact h3
    · split
      · exact h2
      · split <;> simp [h4]

@[simp] theorem State.poolPage_fixed (x0 : State) (x1 : ℕ) : State.fixed (@State.poolPage x0 x1) = State.fixed x0 := by
  unfold State.poolPage
  (repeat' first
    | with_reducible rfl
    | (extract_lets +onlyGivenNames s1; have hs : State.fixed s1 = State.fixed x0 := by (simp [s1, *]; done)
       clear_value s1)
    | (extract_lets +onlyGivenNames s1; clear_value s1)
    | intro _ | with_reducible refine State.each_fixed_trans ?_ ?_ | split | (simp [*]; done))

@[simp] theorem effectControllerSweepDone_fixed (x0 : Fin 8) (x1 : State) : State.fixed (@effectControllerSweepDone x0 x1) = State.fixed x1 := by
  unfold effectControllerSweepDone
  (repeat' first
    | with_reducible rfl
    | (extract_lets +onlyGivenNames s1
       have hs : State.fixed s1 = State.fixed x1 := by
         first | (simp [s1, *]; done) | (unfold s1; (repeat' first | with_reducible rfl | intro _ | with_reducible refine State.each_fixed_trans ?_ ?_ | split | (simp [*]; done)); done)
       clear_value s1)
    | (extract_lets +onlyGivenNames s1; clear_value s1)
    | intro _ | with_reducible refine State.each_fixed_trans ?_ ?_ | split | (simp [*]; done) | refine (pair_fixed ‹_› rfl).trans ?_
    | refine (State.newEntry_fixed _ _ _ _ ‹_›).trans ?_)

@[simp] theorem State.resumeDrains_fixed (x0 : State) : State.fixed (@State.resumeDrains x0) = State.fixed x0 := by
  unfold State.resumeDrains
  (repeat' first | with_reducible rfl | intro _ | with_reducible refine State.each_fixed_trans ?_ ?_ | split | (simp; done))

@[simp] theorem State.channelSwept_fixed (x0 : State) (x1 : ℕ) : State.fixed (@State.channelSwept x0 x1) = State.fixed x0 := by
  unfold State.channelSwept
  (repeat' first
    | with_reducible rfl
    | (extract_lets +onlyGivenNames s1
       have hs : State.fixed s1 = State.fixed x0 := by
         first | (simp [s1, *]; done) | (unfold s1; (repeat' first | with_reducible rfl | intro _ | with_reducible refine State.each_fixed_trans ?_ ?_ | split | (simp [*]; done)); done)
       clear_value s1)
    | (extract_lets +onlyGivenNames s1; clear_value s1)
    | intro _ | with_reducible refine State.each_fixed_trans ?_ ?_ | split | (simp [*]; done) | refine (pair_fixed ‹_› rfl).trans ?_
    | refine (State.newEntry_fixed _ _ _ _ ‹_›).trans ?_)

@[simp] theorem effectChaffSweepDone_fixed (x0 : SweepId) (x1 : Bool) (x2 : State) : State.fixed (@effectChaffSweepDone x0 x1 x2) = State.fixed x2 := by
  unfold effectChaffSweepDone; (repeat' split) <;> simp

@[simp] theorem State.sweepController_fixed (x0 : State) (x1 : ℕ) : State.fixed (@State.sweepController x0 x1) = State.fixed x0 := by
  unfold State.sweepController
  (repeat' first
    | with_reducible rfl
    | (extract_lets +onlyGivenNames s1
       have hs : State.fixed s1 = State.fixed x0 := by
         first | (simp [s1, *]; done) | (unfold s1; (repeat' first | with_reducible rfl | intro _ | with_reducible refine State.each_fixed_trans ?_ ?_ | split | (simp [*]; done)); done)
       clear_value s1)
    | (extract_lets +onlyGivenNames s1; clear_value s1)
    | intro _ | with_reducible refine State.each_fixed_trans ?_ ?_ | split | (simp [*]; done) | refine (pair_fixed ‹_› rfl).trans ?_
    | refine (State.newEntry_fixed _ _ _ _ ‹_›).trans ?_)

@[simp] theorem State.restoreDram_fixed (x0 : State) (x1 : ℕ) (x2 : ℕ) : State.fixed (@State.restoreDram x0 x1 x2) = State.fixed x0 := by
  unfold State.restoreDram
  (repeat' first
    | with_reducible rfl
    | (extract_lets +onlyGivenNames s1
       have hs : State.fixed s1 = State.fixed x0 := by
         first | (simp [s1, *]; done) | (unfold s1; (repeat' first | with_reducible rfl | intro _ | with_reducible refine State.each_fixed_trans ?_ ?_ | split | (simp [*]; done)); done)
       clear_value s1)
    | (extract_lets +onlyGivenNames s1; clear_value s1)
    | intro _ | with_reducible refine State.each_fixed_trans ?_ ?_ | split | (simp [*]; done) | refine (pair_fixed ‹_› rfl).trans ?_
    | refine (State.newEntry_fixed _ _ _ _ ‹_›).trans ?_)

theorem dramStatusGetCmd_run_fixed (f : Frame) (s : State) : ∀ a u, dramStatusGetCmd.run f s = .ok (a, u) → u.fixed = s.fixed := by
  unfold dramStatusGetCmd; dsimp only; intro a u h; exact answer_fixed _ _ _ _ h

theorem dramPortStatsGetCmd_run_fixed (f : Frame) (s : State) : ∀ a u, dramPortStatsGetCmd.run f s = .ok (a, u) → u.fixed = s.fixed := by
  unfold dramPortStatsGetCmd; dsimp only; intro a u h; exact answer_fixed _ _ _ _ h

theorem dramQosConfigCmd_run_fixed (f : Frame) (s : State) : ∀ a u, dramQosConfigCmd.run f s = .ok (a, u) → u.fixed = s.fixed := by
  unfold dramQosConfigCmd; dsimp only; intro a u h; exact answer_fixed _ _ _ _ h

theorem dramQosConfigCmd_apply_fixed (f : Frame) (s : State) : ∀ u, dramQosConfigCmd.apply f s = .ok u → u.fixed = s.fixed := by
  unfold dramQosConfigCmd; dsimp only; intro u h; refine ok_state h ?_; simp

theorem dramConfigCmd_run_fixed (f : Frame) (s : State) : ∀ a u, dramConfigCmd.run f s = .ok (a, u) → u.fixed = s.fixed := by
  unfold dramConfigCmd; dsimp only; intro a u h; exact answer_fixed _ _ _ _ h

theorem dramConfigCmd_apply_fixed (f : Frame) (s : State) : ∀ u, dramConfigCmd.apply f s = .ok u → u.fixed = s.fixed := by
  unfold dramConfigCmd; dsimp only; intro u h; refine ok_state h ?_; simp

theorem dramMapConfigCmd_run_fixed (f : Frame) (s : State) : ∀ a u, dramMapConfigCmd.run f s = .ok (a, u) → u.fixed = s.fixed := by
  unfold dramMapConfigCmd; dsimp only; intro a u h; exact answer_fixed _ _ _ _ h

theorem dramMapConfigCmd_apply_fixed (f : Frame) (s : State) : ∀ u, dramMapConfigCmd.apply f s = .ok u → u.fixed = s.fixed := by
  unfold dramMapConfigCmd
  dsimp only
  intros
  rename_i h
  try simp only [bind, pure, Except.pure, Option.map_eq_some_iff] at h
  repeat' first
    | exact answer_fixed _ _ _ _ h
    | (replace h := Except.bind_ok h; rcases h with ⟨_, h0, h⟩)
    | (rcases h with ⟨_, h0, h⟩)
    | (extract_lets +onlyGivenNames s1 at h
       have hs : State.fixed s1 = State.fixed s := by
         first
           | (simp [s1, *]; done)
           | (unfold s1; (repeat' first | with_reducible rfl | intro _ | with_reducible refine State.each_fixed_trans ?_ ?_ | split | (simp [*]; done)); done)
       clear_value s1)
    | (extract_lets +onlyGivenNames s1 at h; clear_value s1)
    | (split at h; skip)
    | (injection h; done)
    | (injection h with h h1; subst h1)
    | (injection h with h; subst h)
    | (injection h with h)
  all_goals repeat' first
    | with_reducible rfl
    | (simp [*]; done)
    | assumption
    | refine (pair_fixed ‹_› rfl).trans ?_
    | refine (triple_fixed ‹_› rfl).trans ?_
    | refine (State.newEntry_fixed _ _ _ _ ‹_›).trans ?_
    | refine (State.beginRecord_fixed _ _ _ _ _ ‹_›).trans ?_
    | refine (State.takeRecordId_fixed _ _ _ ‹_›).trans ?_
    | refine (State.takePages_fixed _ _ _ _ _ _ ‹_›).trans ?_
    | refine (State.sizeRing_fixed _ _ _ _ _ _ ‹_›).trans ?_
    | refine (State.startWork_fixed _ _ _ _ _ _ ‹_›).trans ?_
    | refine (State.doneAtOnce_fixed _ _ _ _ _ _ ‹_›).trans ?_
    | refine (State.newItem_fixed _ _ _ _ _ _ _ ‹_›).trans ?_
    | intro _
    | with_reducible refine State.each_fixed_trans ?_ ?_
    | (split; skip)
    | (simp; skip)

theorem dramIsolateCmd_run_fixed (f : Frame) (s : State) : ∀ a u, dramIsolateCmd.run f s = .ok (a, u) → u.fixed = s.fixed := by
  unfold dramIsolateCmd; dsimp only; intro a u h; exact answer_fixed _ _ _ _ h

theorem dramIsolateCmd_apply_fixed (f : Frame) (s : State) : ∀ u, dramIsolateCmd.apply f s = .ok u → u.fixed = s.fixed := by
  unfold dramIsolateCmd
  dsimp only
  intros
  rename_i h
  try simp only [bind, pure, Except.pure, Option.map_eq_some_iff] at h
  repeat' first
    | exact answer_fixed _ _ _ _ h
    | (replace h := Except.bind_ok h; rcases h with ⟨_, h0, h⟩)
    | (rcases h with ⟨_, h0, h⟩)
    | (extract_lets +onlyGivenNames s1 at h
       have hs : State.fixed s1 = State.fixed s := by
         first
           | (simp [s1, *]; done)
           | (unfold s1; (repeat' first | with_reducible rfl | intro _ | with_reducible refine State.each_fixed_trans ?_ ?_ | split | (simp [*]; done)); done)
       clear_value s1)
    | (extract_lets +onlyGivenNames s1 at h; clear_value s1)
    | (split at h; skip)
    | (injection h; done)
    | (injection h with h h1; subst h1)
    | (injection h with h; subst h)
    | (injection h with h)
  all_goals repeat' first
    | with_reducible rfl
    | (simp [*]; done)
    | assumption
    | refine (pair_fixed ‹_› rfl).trans ?_
    | refine (triple_fixed ‹_› rfl).trans ?_
    | refine (State.newEntry_fixed _ _ _ _ ‹_›).trans ?_
    | refine (State.beginRecord_fixed _ _ _ _ _ ‹_›).trans ?_
    | refine (State.takeRecordId_fixed _ _ _ ‹_›).trans ?_
    | refine (State.takePages_fixed _ _ _ _ _ _ ‹_›).trans ?_
    | refine (State.sizeRing_fixed _ _ _ _ _ _ ‹_›).trans ?_
    | refine (State.startWork_fixed _ _ _ _ _ _ ‹_›).trans ?_
    | refine (State.doneAtOnce_fixed _ _ _ _ _ _ ‹_›).trans ?_
    | refine (State.newItem_fixed _ _ _ _ _ _ _ ‹_›).trans ?_
    | intro _
    | with_reducible refine State.each_fixed_trans ?_ ?_
    | (split; skip)
    | (simp; skip)

theorem dramErrorLogGetCmd_run_fixed (f : Frame) (s : State) : ∀ a u, dramErrorLogGetCmd.run f s = .ok (a, u) → u.fixed = s.fixed := by
  unfold dramErrorLogGetCmd; dsimp only; intro a u h; exact answer_fixed _ _ _ _ h

end Sys2Proof.Machine
end

