-- ==== Sys2Proof/Laws/FixedD.lean ====
section
/-! SUPPORT. The queue, the clock and the rings under the operations of ports, tenants, tests, power and restarts. -/

set_option linter.all false

namespace Sys2Proof.Machine

/-! ## Ports -/

@[simp] theorem State.rxFrame_fixed (x0 : State) (x1 : ℕ) : State.fixed (@State.rxFrame x0 x1) = State.fixed x0 := by
  simp [State.rxFrame]

@[simp] theorem effectEthernetFrameDiscard_fixed (x0 : Fin 3) (x1 : DiscardCause) (x2 : State) : State.fixed (@effectEthernetFrameDiscard x0 x1 x2) = State.fixed x2 := by
  simp [effectEthernetFrameDiscard]

@[simp] theorem State.learned_fixed (x0 : State) (x1 : ℕ) : State.fixed (@State.learned x0 x1) = State.fixed x0 := by
  simp [State.learned]

@[simp] theorem effectArpReceive_fixed (x0 : Fin 3) (x1 : Bool) (x2 : U32) (x3 : U48) (x4 : U32) (x5 : State) : State.fixed (@effectArpReceive x0 x1 x2 x3 x4 x5) = State.fixed x5 := by
  unfold effectArpReceive
  (repeat' first
    | with_reducible rfl
    | (extract_lets +onlyGivenNames s1; have hs : State.fixed s1 = State.fixed x5 := by (simp [s1, *]; done)
       clear_value s1)
    | (extract_lets +onlyGivenNames s1; clear_value s1)
    | intro _ | with_reducible refine State.each_fixed_trans ?_ ?_ | split | (simp [*]; done))

@[simp] theorem effectNdpReceive_fixed (x0 : Fin 3) (x1 : Bool) (x2 : BitVec 128) (x3 : U48) (x4 : BitVec 128) (x5 : State) : State.fixed (@effectNdpReceive x0 x1 x2 x3 x4 x5) = State.fixed x5 := by
  unfold effectNdpReceive
  (repeat' first
    | with_reducible rfl
    | (extract_lets +onlyGivenNames s1; have hs : State.fixed s1 = State.fixed x5 := by (simp [s1, *]; done)
       clear_value s1)
    | (extract_lets +onlyGivenNames s1; clear_value s1)
    | intro _ | with_reducible refine State.each_fixed_trans ?_ ?_ | split | (simp [*]; done))

@[simp] theorem effectIcmpEcho_fixed (x0 : Fin 3) (x1 : Bool) (x2 : BitVec 128) (x3 : Bytes) (x4 : State) : State.fixed (@effectIcmpEcho x0 x1 x2 x3 x4) = State.fixed x4 := by
  unfold effectIcmpEcho
  (repeat' first
    | with_reducible rfl
    | (extract_lets +onlyGivenNames s1; have hs : State.fixed s1 = State.fixed x4 := by (simp [s1, *]; done)
       clear_value s1)
    | (extract_lets +onlyGivenNames s1; clear_value s1)
    | intro _ | with_reducible refine State.each_fixed_trans ?_ ?_ | split | (simp [*]; done))

@[simp] theorem effectArpCacheRefresh_fixed (x0 : Fin 3) (x1 : U32) (x2 : State) : State.fixed (@effectArpCacheRefresh x0 x1 x2) = State.fixed x2 := by
  unfold effectArpCacheRefresh; (repeat' split) <;> simp

@[simp] theorem State.setLink_fixed (x0 : State) (x1 : ℕ) (x2 : Bool) : State.fixed (@State.setLink x0 x1 x2) = State.fixed x0 := by
  unfold State.setLink; (repeat' split) <;> simp

@[simp] theorem State.stopPortStreams_fixed (x0 : State) (x1 : ℕ) (x2 : ℕ) : State.fixed (@State.stopPortStreams x0 x1 x2) = State.fixed x0 := by
  unfold State.stopPortStreams
  (repeat' first | with_reducible rfl | intro _ | with_reducible refine State.each_fixed_trans ?_ ?_ | split | (simp; done))

@[simp] theorem effectHostLinkUp_fixed (x0 : Fin 2) (x1 : State) : State.fixed (@effectHostLinkUp x0 x1) = State.fixed x1 := by
  unfold effectHostLinkUp; (repeat' split) <;> simp

@[simp] theorem effectHostLinkDown_fixed (x0 : Fin 2) (x1 : State) : State.fixed (@effectHostLinkDown x0 x1) = State.fixed x1 := by
  simp [effectHostLinkDown]

@[simp] theorem effectMgmtLinkChange_fixed (x0 : Bool) (x1 : State) : State.fixed (@effectMgmtLinkChange x0 x1) = State.fixed x1 := by
  simp [effectMgmtLinkChange]

@[simp] theorem State.modTransfer_fixed (x0 : State) (x1 : ℕ) (x2 : Transfer → Transfer) : State.fixed (@State.modTransfer x0 x1 x2) = State.fixed x0 := by
  simp [State.modTransfer]

@[simp] theorem State.endTransfer_fixed (x0 : State) (x1 : ℕ) (x2 : ℕ) : State.fixed (@State.endTransfer x0 x1 x2) = State.fixed x0 := by
  simp [State.endTransfer]

@[simp] theorem effectAddressResolveRetry_fixed (x0 : Sender) (x1 : State) : State.fixed (@effectAddressResolveRetry x0 x1) = State.fixed x1 := by
  unfold effectAddressResolveRetry
  (repeat' first
    | with_reducible rfl
    | (extract_lets +onlyGivenNames s1; have hs : State.fixed s1 = State.fixed x1 := by (simp [s1, *]; done)
       clear_value s1)
    | (extract_lets +onlyGivenNames s1; clear_value s1)
    | intro _ | with_reducible refine State.each_fixed_trans ?_ ?_ | split | (simp [*]; done))

@[simp] theorem effectTransferResolveTimeout_fixed (x0 : Fin 4096) (x1 : State) : State.fixed (@effectTransferResolveTimeout x0 x1) = State.fixed x1 := by
  unfold effectTransferResolveTimeout; (repeat' split) <;> simp

@[simp] theorem State.freeEarRecord_fixed (x0 : State) (x1 : ℕ) (x2 : ℕ) : State.fixed (@State.freeEarRecord x0 x1 x2) = State.fixed x0 := by
  unfold State.freeEarRecord; (repeat' split) <;> simp

@[simp] theorem State.sendTransfer_fixed (x0 : State) (x1 : Transfer) (x2 : ℕ) (x3 : List Bytes) : State.fixed (@State.sendTransfer x0 x1 x2 x3) = State.fixed x0 := by
  unfold State.sendTransfer
  (repeat' first | with_reducible rfl | intro _ | with_reducible refine State.each_fixed_trans ?_ ?_ | split | (simp; done))

@[simp] theorem State.finishTransfer_fixed (x0 : State) (x1 : ℕ) : State.fixed (@State.finishTransfer x0 x1) = State.fixed x0 := by
  unfold State.finishTransfer
  (repeat' first
    | with_reducible rfl
    | (extract_lets +onlyGivenNames s1; have hs : State.fixed s1 = State.fixed x0 := by (simp [s1, *]; done)
       clear_value s1)
    | (extract_lets +onlyGivenNames s1; clear_value s1)
    | intro _ | with_reducible refine State.each_fixed_trans ?_ ?_ | split | (simp [*]; done))

@[simp] theorem effectTransferFrameSend_fixed (x0 : Fin 4096) (x1 : State) : State.fixed (@effectTransferFrameSend x0 x1) = State.fixed x1 := by
  unfold effectTransferFrameSend
  (repeat' first
    | with_reducible rfl
    | (extract_lets +onlyGivenNames s1
       have hs : State.fixed s1 = State.fixed x1 := by
         first | (simp [s1, *]; done) | (unfold s1; (repeat' first | with_reducible rfl | intro _ | with_reducible refine State.each_fixed_trans ?_ ?_ | split | (simp [*]; done)); done)
       clear_value s1)
    | (extract_lets +onlyGivenNames s1; clear_value s1)
    | intro _ | with_reducible refine State.each_fixed_trans ?_ ?_ | split | (simp [*]; done) | refine (pair_fixed ‹_› rfl).trans ?_
    | refine (State.newEntry_fixed _ _ _ _ ‹_›).trans ?_)

@[simp] theorem effectStreamFrameSend_fixed (x0 : Fin 128) (x1 : State) : State.fixed (@effectStreamFrameSend x0 x1) = State.fixed x1 := by
  unfold effectStreamFrameSend
  (repeat' first
    | with_reducible rfl
    | (extract_lets +onlyGivenNames s1; have hs : State.fixed s1 = State.fixed x1 := by (simp [s1, *]; done)
       clear_value s1)
    | (extract_lets +onlyGivenNames s1; clear_value s1)
    | intro _ | with_reducible refine State.each_fixed_trans ?_ ?_ | split | (simp [*]; done))

@[simp] theorem effectStreamLag_fixed (x0 : Fin 128) (x1 : State) : State.fixed (@effectStreamLag x0 x1) = State.fixed x1 := by
  unfold effectStreamLag
  (repeat' first
    | with_reducible rfl
    | (extract_lets +onlyGivenNames s1; have hs : State.fixed s1 = State.fixed x1 := by (simp [s1, *]; done)
       clear_value s1)
    | (extract_lets +onlyGivenNames s1; clear_value s1)
    | intro _ | with_reducible refine State.each_fixed_trans ?_ ?_ | split | (simp [*]; done))

@[simp] theorem effectStreamLeaseExpire_fixed (x0 : Fin 128) (x1 : State) : State.fixed (@effectStreamLeaseExpire x0 x1) = State.fixed x1 := by
  unfold effectStreamLeaseExpire
  (repeat' first
    | with_reducible rfl
    | (extract_lets +onlyGivenNames s1; have hs : State.fixed s1 = State.fixed x1 := by (simp [s1, *]; done)
       clear_value s1)
    | (extract_lets +onlyGivenNames s1; clear_value s1)
    | intro _ | with_reducible refine State.each_fixed_trans ?_ ?_ | split | (simp [*]; done))

@[simp] theorem effectQuenchNAssert_fixed (x0 : State) : State.fixed (@effectQuenchNAssert x0) = State.fixed x0 := by
  unfold effectQuenchNAssert; (repeat' split) <;> simp

@[simp] theorem State.streamSecond_fixed (x0 : State) (x1 : U48) (x2 : ℕ) (x3 : ℕ) : State.fixed (@State.streamSecond x0 x1 x2 x3) = State.fixed x0 := by
  unfold State.streamSecond
  (repeat' first
    | with_reducible rfl
    | (extract_lets +onlyGivenNames s1
       have hs : State.fixed s1 = State.fixed x0 := by
         first | (simp [s1, *]; done) | (unfold s1; (repeat' first | with_reducible rfl | intro _ | with_reducible refine State.each_fixed_trans ?_ ?_ | split | (simp [*]; done)); done)
       clear_value s1)
    | (extract_lets +onlyGivenNames s1; clear_value s1)
    | intro _ | with_reducible refine State.each_fixed_trans ?_ ?_ | split | (simp [*]; done) | refine (pair_fixed ‹_› rfl).trans ?_
    | refine (State.newEntry_fixed _ _ _ _ ‹_›).trans ?_)

@[simp] theorem State.resolveAnew_fixed (x0 : State) (x1 : ℕ) : State.fixed (@State.resolveAnew x0 x1) = State.fixed x0 := by
  unfold State.resolveAnew
  extract_lets s1
  have h1 : s1.fixed = x0.fixed := State.each_fixed_trans (fun s i => by
    split
    · split
      · exact State.modStream_fixed _ _ _
      · rfl
    · rfl) rfl
  clear_value s1
  exact h1

@[simp] theorem State.setPort_fixed (x0 : State) (x1 : ℕ) (x2 : PortCfg) : State.fixed (@State.setPort x0 x1 x2) = State.fixed x0 := by
  unfold State.setPort
  (repeat' first
    | with_reducible rfl
    | (extract_lets +onlyGivenNames s1; have hs : State.fixed s1 = State.fixed x0 := by (simp [s1, *]; done)
       clear_value s1)
    | (extract_lets +onlyGivenNames s1; clear_value s1)
    | intro _ | with_reducible refine State.each_fixed_trans ?_ ?_ | split | (simp [*]; done))

@[simp] theorem State.clearStream_fixed (x0 : State) (x1 : ℕ) : State.fixed (@State.clearStream x0 x1) = State.fixed x0 := by
  unfold State.clearStream
  (repeat' first
    | with_reducible rfl
    | (extract_lets +onlyGivenNames s1; have hs : State.fixed s1 = State.fixed x0 := by (simp [s1, *]; done)
       clear_value s1)
    | (extract_lets +onlyGivenNames s1; clear_value s1)
    | intro _ | with_reducible refine State.each_fixed_trans ?_ ?_ | split | (simp [*]; done))

theorem State.startStream_fixed (x0 : State) (x1 : Frame) (x2 : ℕ) : ∀ u, @State.startStream x0 x1 x2 = .ok u → State.fixed u = State.fixed x0 := by
  unfold State.startStream
  intros
  rename_i h
  try simp only [bind, pure, Except.pure, Option.map_eq_some_iff] at h
  repeat' first
    | exact answer_fixed _ _ _ _ h
    | (replace h := Except.bind_ok h; rcases h with ⟨_, h0, h⟩)
    | (rcases h with ⟨_, h0, h⟩)
    | (extract_lets +onlyGivenNames s1 at h
       have hs : State.fixed s1 = State.fixed x0 := by
         first
           | (simp [s1, *]; done)
           | (unfold s1; (repeat' first | with_reducible rfl | intro _ | with_reducible refine State.each_fixed_trans ?_ ?_ | split | (simp [*]; done)); done)
       clear_value s1)
    | (extract_lets +onlyGivenNames s1 at h; clear_value s1)
    | (split at h; skip)
    | (injection h; done)
    | (injection h with h h1; subst h1)
    | (injection h with h; subst h)
    | (injection h with h)
  all_goals repeat' first
    | with_reducible rfl
    | (simp [*]; done)
    | assumption
    | refine (pair_fixed ‹_› rfl).trans ?_
    | refine (triple_fixed ‹_› rfl).trans ?_
    | refine (State.newEntry_fixed _ _ _ _ ‹_›).trans ?_
    | refine (State.beginRecord_fixed _ _ _ _ _ ‹_›).trans ?_
    | refine (State.takeRecordId_fixed _ _ _ ‹_›).trans ?_
    | refine (State.takePages_fixed _ _ _ _ _ _ ‹_›).trans ?_
    | refine (State.sizeRing_fixed _ _ _ _ _ _ ‹_›).trans ?_
    | refine (State.startWork_fixed _ _ _ _ _ _ ‹_›).trans ?_
    | refine (State.doneAtOnce_fixed _ _ _ _ _ _ ‹_›).trans ?_
    | refine (State.newItem_fixed _ _ _ _ _ _ _ ‹_›).trans ?_
    | intro _
    | with_reducible refine State.each_fixed_trans ?_ ?_
    | (split; skip)
    | (simp; skip)

@[simp] theorem State.quenchCommand_fixed (x0 : State) (x1 : Bool) : State.fixed (@State.quenchCommand x0 x1) = State.fixed x0 := by
  unfold State.quenchCommand; (repeat' split) <;> simp

theorem portConfigCmd_run_fixed (f : Frame) (s : State) : ∀ a u, portConfigCmd.run f s = .ok (a, u) → u.fixed = s.fixed := by
  unfold portConfigCmd; dsimp only; intro a u h; exact answer_fixed _ _ _ _ h

theorem portConfigCmd_apply_fixed (f : Frame) (s : State) : ∀ u, portConfigCmd.apply f s = .ok u → u.fixed = s.fixed := by
  unfold portConfigCmd; dsimp only; intro u h; refine ok_state h ?_; simp

theorem portStatusGetCmd_run_fixed (f : Frame) (s : State) : ∀ a u, portStatusGetCmd.run f s = .ok (a, u) → u.fixed = s.fixed := by
  unfold portStatusGetCmd; dsimp only; intro a u h; exact ok_pair h rfl

theorem streamConfigCmd_run_fixed (f : Frame) (s : State) : ∀ a u, streamConfigCmd.run f s = .ok (a, u) → u.fixed = s.fixed := by
  unfold streamConfigCmd; dsimp only; intro a u h; exact answer_fixed _ _ _ _ h

theorem streamConfigCmd_apply_fixed (f : Frame) (s : State) : ∀ u, streamConfigCmd.apply f s = .ok u → u.fixed = s.fixed := by
  unfold streamConfigCmd; dsimp only; intro u h
  (repeat' split at h) <;> first | (injection h; done) | (refine ok_state h ?_; simp; done)

theorem streamStartCmd_run_fixed (f : Frame) (s : State) : ∀ a u, streamStartCmd.run f s = .ok (a, u) → u.fixed = s.fixed := by
  unfold streamStartCmd; dsimp only; intro a u h; exact answer_fixed _ _ _ _ h

theorem streamStartCmd_apply_fixed (f : Frame) (s : State) : ∀ u, streamStartCmd.apply f s = .ok u → u.fixed = s.fixed := by
  unfold streamStartCmd
  dsimp only
  intro u h
  split at h
  · injection h
  · split at h
    · injection h
    · refine foldl_acc_fixed (f := fun s i => s.startStream f i) (fun s i t ht => State.startStream_fixed _ _ _ _ ht) (streamMask f.payload) (.ok s) s.fixed (fun t ht => congrArg State.fixed (Except.ok.inj ht).symm) _ (Eq.trans ?_ h)
      congr 1
      funext acc i
      cases acc <;> rfl

theorem streamStopCmd_run_fixed (f : Frame) (s : State) : ∀ a u, streamStopCmd.run f s = .ok (a, u) → u.fixed = s.fixed := by
  unfold streamStopCmd
  dsimp only
  intros
  rename_i h
  try simp only [bind, pure, Except.pure, Option.map_eq_some_iff] at h
  repeat' first
    | exact answer_fixed _ _ _ _ h
    | (replace h := Except.bind_ok h; rcases h with ⟨_, h0, h⟩)
    | (rcases h with ⟨_, h0, h⟩)
    | (extract_lets +onlyGivenNames s1 at h
       have hs : State.fixed s1 = State.fixed s := by
         first
           | (simp [s1, *]; done)
           | (unfold s1; (repeat' first | with_reducible rfl | intro _ | with_reducible refine State.each_fixed_trans ?_ ?_ | split | (simp [*]; done)); done)
       clear_value s1)
    | (extract_lets +onlyGivenNames s1 at h; clear_value s1)
    | (split at h; skip)
    | (injection h; done)
    | (injection h with h h1; subst h1)
    | (injection h with h; subst h)
    | (injection h with h)
  all_goals repeat' first
    | with_reducible rfl
    | (simp [*]; done)
    | assumption
    | refine (pair_fixed ‹_› rfl).trans ?_
    | refine (triple_fixed ‹_› rfl).trans ?_
    | refine (State.newEntry_fixed _ _ _ _ ‹_›).trans ?_
    | refine (State.beginRecord_fixed _ _ _ _ _ ‹_›).trans ?_
    | refine (State.takeRecordId_fixed _ _ _ ‹_›).trans ?_
    | refine (State.takePages_fixed _ _ _ _ _ _ ‹_›).trans ?_
    | refine (State.sizeRing_fixed _ _ _ _ _ _ ‹_›).trans ?_
    | refine (State.startWork_fixed _ _ _ _ _ _ ‹_›).trans ?_
    | refine (State.doneAtOnce_fixed _ _ _ _ _ _ ‹_›).trans ?_
    | refine (State.newItem_fixed _ _ _ _ _ _ _ ‹_›).trans ?_
    | intro _
    | with_reducible refine State.each_fixed_trans ?_ ?_
    | (split; skip)
    | (simp; skip)

theorem streamLeaseRenewCmd_run_fixed (f : Frame) (s : State) : ∀ a u, streamLeaseRenewCmd.run f s = .ok (a, u) → u.fixed = s.fixed := by
  unfold streamLeaseRenewCmd
  dsimp only
  intros
  rename_i h
  try simp only [bind, pure, Except.pure, Option.map_eq_some_iff] at h
  repeat' first
    | exact answer_fixed _ _ _ _ h
    | (replace h := Except.bind_ok h; rcases h with ⟨_, h0, h⟩)
    | (rcases h with ⟨_, h0, h⟩)
    | (extract_lets +onlyGivenNames s1 at h
       have hs : State.fixed s1 = State.fixed s := by
         first
           | (simp [s1, *]; done)
           | (unfold s1; (repeat' first | with_reducible rfl | intro _ | with_reducible refine State.each_fixed_trans ?_ ?_ | split | (simp [*]; done)); done)
       clear_value s1)
    | (extract_lets +onlyGivenNames s1 at h; clear_value s1)
    | (split at h; skip)
    | (injection h; done)
    | (injection h with h h1; subst h1)
    | (injection h with h; subst h)
    | (injection h with h)
  all_goals repeat' first
    | with_reducible rfl
    | (simp [*]; done)
    | assumption
    | refine (pair_fixed ‹_› rfl).trans ?_
    | refine (triple_fixed ‹_› rfl).trans ?_
    | refine (State.newEntry_fixed _ _ _ _ ‹_›).trans ?_
    | refine (State.beginRecord_fixed _ _ _ _ _ ‹_›).trans ?_
    | refine (State.takeRecordId_fixed _ _ _ ‹_›).trans ?_
    | refine (State.takePages_fixed _ _ _ _ _ _ ‹_›).trans ?_
    | refine (State.sizeRing_fixed _ _ _ _ _ _ ‹_›).trans ?_
    | refine (State.startWork_fixed _ _ _ _ _ _ ‹_›).trans ?_
    | refine (State.doneAtOnce_fixed _ _ _ _ _ _ ‹_›).trans ?_
    | refine (State.newItem_fixed _ _ _ _ _ _ _ ‹_›).trans ?_
    | intro _
    | with_reducible refine State.each_fixed_trans ?_ ?_
    | (split; skip)
    | (simp; skip)

theorem streamStatusGetCmd_run_fixed (f : Frame) (s : State) : ∀ a u, streamStatusGetCmd.run f s = .ok (a, u) → u.fixed = s.fixed := by
  unfold streamStatusGetCmd; dsimp only; intro a u h; exact answer_fixed _ _ _ _ h

theorem quenchCmd_run_fixed (f : Frame) (s : State) : ∀ a u, quenchCmd.run f s = .ok (a, u) → u.fixed = s.fixed := by
  unfold quenchCmd; dsimp only; intro a u h; refine ok_pair h ?_; simp

/-! ## Wire -/

@[simp] theorem State.transmitPort_fixed (x0 : State) (x1 : ℕ) : State.fixed (@State.transmitPort x0 x1) = State.fixed x0 := by
  unfold State.transmitPort
  (repeat' first
    | with_reducible rfl
    | (extract_lets +onlyGivenNames s1; have hs : State.fixed s1 = State.fixed x0 := by (simp [s1, *]; done)
       clear_value s1)
    | (extract_lets +onlyGivenNames s1; clear_value s1)
    | intro _ | with_reducible refine State.each_fixed_trans ?_ ?_ | split | (simp [*]; done))

@[simp] theorem State.transmit_fixed (x0 : State) : State.fixed (@State.transmit x0) = State.fixed x0 := by
  unfold State.transmit
  (repeat' first | with_reducible rfl | intro _ | with_reducible refine State.each_fixed_trans ?_ ?_ | split | (simp; done))

/-! ## Tenants -/

@[simp] theorem effectEventSummaryClear_fixed (x0 : Fin 48) (x1 : U32) (x2 : U32) (x3 : State) : State.fixed (@effectEventSummaryClear x0 x1 x2 x3) = State.fixed x3 := by
  unfold effectEventSummaryClear; (repeat' split) <;> simp

@[simp] theorem State.endRuns_fixed (x0 : State) (x1 : ℕ) (x2 : List Instr) (x3 : Status) (x4 : ℕ) : State.fixed (@State.endRuns x0 x1 x2 x3 x4) = State.fixed x0 := by
  unfold State.endRuns
  (repeat' first | with_reducible rfl | intro _ | with_reducible refine State.each_fixed_trans ?_ ?_ | split | (simp; done))

@[simp] theorem State.endItem_fixed (x0 : State) (x1 : ℕ) (x2 : Status) (x3 : ℕ) (x4 : Pending) : State.fixed (@State.endItem x0 x1 x2 x3 x4) = State.fixed x0 := by
  simp [State.endItem]

@[simp] theorem State.deleteTenant_fixed (x0 : State) (x1 : ℕ) : State.fixed (@State.deleteTenant x0 x1) = State.fixed x0 := by
  unfold State.deleteTenant
  split
  · rfl
  · exact (State.modGranary_fixed _ _).trans ((State.modRachis_fixed _ _).trans ((State.modTenant_fixed _ _ _).trans ((State.endRuns_fixed _ _ _ _ _).trans
      (State.each_fixed_trans (fun s i => State.endItem_fixed _ _ _ _ _) rfl))))

@[simp] theorem State.setTenant_fixed (x0 : State) (x1 : Bytes) : State.fixed (@State.setTenant x0 x1) = State.fixed x0 := by
  simp [State.setTenant]

@[simp] theorem State.stopUsers_fixed (x0 : State) (x1 : RingId) : State.fixed (@State.stopUsers x0 x1) = State.fixed x0 := by
  unfold State.stopUsers
  (repeat' first
    | with_reducible rfl
    | (extract_lets +onlyGivenNames s1
       have hs : State.fixed s1 = State.fixed x0 := by
         first | (simp [s1, *]; done) | (unfold s1; (repeat' first | with_reducible rfl | intro _ | with_reducible refine State.each_fixed_trans ?_ ?_ | split | (simp [*]; done)); done)
       clear_value s1)
    | (extract_lets +onlyGivenNames s1; clear_value s1)
    | intro _ | with_reducible refine State.each_fixed_trans ?_ ?_ | split | (simp [*]; done) | refine (pair_fixed ‹_› rfl).trans ?_
    | refine (State.newEntry_fixed _ _ _ _ ‹_›).trans ?_)

@[simp] theorem State.passChannel_fixed (x0 : State) (x1 : ℕ) (x2 : ℕ) : State.fixed (@State.passChannel x0 x1 x2) = State.fixed x0 := by
  unfold State.passChannel
  (repeat' first
    | with_reducible rfl
    | (extract_lets +onlyGivenNames s1
       have hs : State.fixed s1 = State.fixed x0 := by
         first | (simp [s1, *]; done) | (unfold s1; (repeat' first | with_reducible rfl | intro _ | with_reducible refine State.each_fixed_trans ?_ ?_ | split | (simp [*]; done)); done)
       clear_value s1)
    | (extract_lets +onlyGivenNames s1; clear_value s1)
    | intro _ | with_reducible refine State.each_fixed_trans ?_ ?_ | split | (simp [*]; done) | refine (pair_fixed ‹_› rfl).trans ?_
    | refine (State.newEntry_fixed _ _ _ _ ‹_›).trans ?_)

theorem State.takeBack_fixed (x0 : State) (x1 : ℕ) (x2 : ℕ) (x3 : ℕ) : ∀ u, @State.takeBack x0 x1 x2 x3 = .ok u → State.fixed u = State.fixed x0 := by
  unfold State.takeBack
  intros
  rename_i h
  try simp only [bind, pure, Except.pure, Option.map_eq_some_iff] at h
  repeat' first
    | exact answer_fixed _ _ _ _ h
    | (replace h := Except.bind_ok h; rcases h with ⟨_, h0, h⟩)
    | (rcases h with ⟨_, h0, h⟩)
    | (extract_lets +onlyGivenNames s1 at h
       have hs : State.fixed s1 = State.fixed x0 := by
         first
           | (simp [s1, *]; done)
           | (unfold s1; (repeat' first | with_reducible rfl | intro _ | with_reducible refine State.each_fixed_trans ?_ ?_ | split | (simp [*]; done)); done)
       clear_value s1)
    | (extract_lets +onlyGivenNames s1 at h; clear_value s1)
    | (split at h; skip)
    | (injection h; done)
    | (injection h with h h1; subst h1)
    | (injection h with h; subst h)
    | (injection h with h)
  all_goals repeat' first
    | with_reducible rfl
    | (simp [*]; done)
    | assumption
    | refine (pair_fixed ‹_› rfl).trans ?_
    | refine (triple_fixed ‹_› rfl).trans ?_
    | refine (State.newEntry_fixed _ _ _ _ ‹_›).trans ?_
    | refine (State.beginRecord_fixed _ _ _ _ _ ‹_›).trans ?_
    | refine (State.takeRecordId_fixed _ _ _ ‹_›).trans ?_
    | refine (State.takePages_fixed _ _ _ _ _ _ ‹_›).trans ?_
    | refine (State.sizeRing_fixed _ _ _ _ _ _ ‹_›).trans ?_
    | refine (State.startWork_fixed _ _ _ _ _ _ ‹_›).trans ?_
    | refine (State.doneAtOnce_fixed _ _ _ _ _ _ ‹_›).trans ?_
    | refine (State.newItem_fixed _ _ _ _ _ _ _ ‹_›).trans ?_
    | intro _
    | with_reducible refine State.each_fixed_trans ?_ ?_
    | (split; skip)
    | (simp; skip)

theorem State.givePages_fixed (x0 : State) (x1 : ℕ) (x2 : ℕ) (x3 : ℕ) : ∀ u, @State.givePages x0 x1 x2 x3 = .ok u → State.fixed u = State.fixed x0 := by
  unfold State.givePages
  intros
  rename_i h
  try simp only [bind, pure, Except.pure, Option.map_eq_some_iff] at h
  repeat' first
    | exact answer_fixed _ _ _ _ h
    | (replace h := Except.bind_ok h; rcases h with ⟨_, h0, h⟩)
    | (rcases h with ⟨_, h0, h⟩)
    | (extract_lets +onlyGivenNames s1 at h
       have hs : State.fixed s1 = State.fixed x0 := by
         first
           | (simp [s1, *]; done)
           | (unfold s1; (repeat' first | with_reducible rfl | intro _ | with_reducible refine State.each_fixed_trans ?_ ?_ | split | (simp [*]; done)); done)
       clear_value s1)
    | (extract_lets +onlyGivenNames s1 at h; clear_value s1)
    | (split at h; skip)
    | (injection h; done)
    | (injection h with h h1; subst h1)
    | (injection h with h; subst h)
    | (injection h with h)
  all_goals repeat' first
    | with_reducible rfl
    | (simp [*]; done)
    | assumption
    | refine (pair_fixed ‹_› rfl).trans ?_
    | refine (triple_fixed ‹_› rfl).trans ?_
    | refine (State.newEntry_fixed _ _ _ _ ‹_›).trans ?_
    | refine (State.beginRecord_fixed _ _ _ _ _ ‹_›).trans ?_
    | refine (State.takeRecordId_fixed _ _ _ ‹_›).trans ?_
    | refine (State.takePages_fixed _ _ _ _ _ _ ‹_›).trans ?_
    | refine (State.sizeRing_fixed _ _ _ _ _ _ ‹_›).trans ?_
    | refine (State.startWork_fixed _ _ _ _ _ _ ‹_›).trans ?_
    | refine (State.doneAtOnce_fixed _ _ _ _ _ _ ‹_›).trans ?_
    | refine (State.newItem_fixed _ _ _ _ _ _ _ ‹_›).trans ?_
    | intro _
    | with_reducible refine State.each_fixed_trans ?_ ?_
    | (split; skip)
    | (simp; skip)

theorem State.grantPages_fixed (x0 : State) (x1 : List (ℕ × ℕ × ℕ)) : ∀ u, @State.grantPages x0 x1 = .ok u → State.fixed u = State.fixed x0 := by
  unfold State.grantPages
  intro u h
  obtain ⟨s1, h1, h2⟩ := Except.bind_ok h
  obtain ⟨s2, e2, h2⟩ := foldl_ok_fixed (f := fun s (g : Nat × Nat × Nat) => if s.pagesHeld g.1 g.2.1 < g.2.2 then s.givePages g.1 g.2.1 (g.2.2 - s.pagesHeld g.1 g.2.1) else .ok s)
    (fun s g t ht => by
      split at ht
      · exact State.givePages_fixed _ _ _ _ _ ht
      · injection ht with ht; rw [ht]) _ _ _ h2
  obtain ⟨s3, e3, h3⟩ := foldl_ok_fixed (f := fun s (g : Nat × Nat × Nat) => if g.2.2 < s.pagesHeld g.1 g.2.1 then s.takeBack g.1 g.2.1 (s.pagesHeld g.1 g.2.1 - g.2.2) else .ok s)
    (fun s g t ht => by
      split at ht
      · exact State.takeBack_fixed _ _ _ _ _ ht
      · injection ht with ht; rw [ht]) _ _ _ h1
  injection e2 with e2
  injection e3 with e3
  rw [h2, ← e2, h3, ← e3]

theorem tenantConfigCmd_run_fixed (f : Frame) (s : State) : ∀ a u, tenantConfigCmd.run f s = .ok (a, u) → u.fixed = s.fixed := by
  unfold tenantConfigCmd; dsimp only; intro a u h; exact answer_fixed _ _ _ _ h

theorem tenantConfigCmd_apply_fixed (f : Frame) (s : State) : ∀ u, tenantConfigCmd.apply f s = .ok u → u.fixed = s.fixed := by
  unfold tenantConfigCmd; dsimp only; intro u h
  (repeat' split at h) <;> first | (injection h; done) | (refine ok_state h ?_; simp; done)

theorem tenantStatusGetCmd_run_fixed (f : Frame) (s : State) : ∀ a u, tenantStatusGetCmd.run f s = .ok (a, u) → u.fixed = s.fixed := by
  unfold tenantStatusGetCmd; dsimp only; intro a u h; exact answer_fixed _ _ _ _ h

theorem channelAssignCmd_run_fixed (f : Frame) (s : State) : ∀ a u, channelAssignCmd.run f s = .ok (a, u) → u.fixed = s.fixed := by
  unfold channelAssignCmd; dsimp only; intro a u h; exact answer_fixed _ _ _ _ h

theorem channelAssignCmd_apply_fixed (f : Frame) (s : State) : ∀ u, channelAssignCmd.apply f s = .ok u → u.fixed = s.fixed := by
  unfold channelAssignCmd
  dsimp only
  intros
  rename_i h
  try simp only [bind, pure, Except.pure, Option.map_eq_some_iff] at h
  repeat' first
    | exact answer_fixed _ _ _ _ h
    | (replace h := Except.bind_ok h; rcases h with ⟨_, h0, h⟩)
    | (rcases h with ⟨_, h0, h⟩)
    | (extract_lets +onlyGivenNames s1 at h
       have hs : State.fixed s1 = State.fixed s := by
         first
           | (simp [s1, *]; done)
           | (unfold s1; (repeat' first | with_reducible rfl | intro _ | with_reducible refine State.each_fixed_trans ?_ ?_ | split | (simp [*]; done)); done)
       clear_value s1)
    | (extract_lets +onlyGivenNames s1 at h; clear_value s1)
    | (split at h; skip)
    | (injection h; done)
    | (injection h with h h1; subst h1)
    | (injection h with h; subst h)
    | (injection h with h)
  all_goals repeat' first
    | with_reducible rfl
    | (simp [*]; done)
    | assumption
    | refine (pair_fixed ‹_› rfl).trans ?_
    | refine (triple_fixed ‹_› rfl).trans ?_
    | refine (State.newEntry_fixed _ _ _ _ ‹_›).trans ?_
    | refine (State.beginRecord_fixed _ _ _ _ _ ‹_›).trans ?_
    | refine (State.takeRecordId_fixed _ _ _ ‹_›).trans ?_
    | refine (State.takePages_fixed _ _ _ _ _ _ ‹_›).trans ?_
    | refine (State.sizeRing_fixed _ _ _ _ _ _ ‹_›).trans ?_
    | refine (State.startWork_fixed _ _ _ _ _ _ ‹_›).trans ?_
    | refine (State.doneAtOnce_fixed _ _ _ _ _ _ ‹_›).trans ?_
    | refine (State.newItem_fixed _ _ _ _ _ _ _ ‹_›).trans ?_
    | intro _
    | with_reducible refine State.each_fixed_trans ?_ ?_
    | (split; skip)
    | (simp; skip)

theorem pageGrantCmd_run_fixed (f : Frame) (s : State) : ∀ a u, pageGrantCmd.run f s = .ok (a, u) → u.fixed = s.fixed := by
  unfold pageGrantCmd; dsimp only; intro a u h; exact answer_fixed _ _ _ _ h

theorem pageGrantCmd_apply_fixed (f : Frame) (s : State) : ∀ u, pageGrantCmd.apply f s = .ok u → u.fixed = s.fixed := by
  unfold pageGrantCmd; dsimp only; intro u h
  (repeat' split at h) <;> first | (injection h; done) | (refine ok_state h ?_; simp; done)

theorem eventSubscribeCmd_run_fixed (f : Frame) (s : State) : ∀ a u, eventSubscribeCmd.run f s = .ok (a, u) → u.fixed = s.fixed := by
  unfold eventSubscribeCmd; dsimp only; intro a u h; exact ok_pair h rfl

theorem eventAckCmd_run_fixed (f : Frame) (s : State) : ∀ a u, eventAckCmd.run f s = .ok (a, u) → u.fixed = s.fixed := by
  unfold eventAckCmd; dsimp only; intro a u h; exact ok_pair h rfl

theorem eventQueryCmd_run_fixed (f : Frame) (s : State) : ∀ a u, eventQueryCmd.run f s = .ok (a, u) → u.fixed = s.fixed := by
  unfold eventQueryCmd; dsimp only; intro a u h; exact answer_fixed _ _ _ _ h

theorem sweepStatusGetCmd_run_fixed (f : Frame) (s : State) : ∀ a u, sweepStatusGetCmd.run f s = .ok (a, u) → u.fixed = s.fixed := by
  unfold sweepStatusGetCmd; dsimp only; intro a u h; exact answer_fixed _ _ _ _ h

/-! ## Test -/

@[simp] theorem State.stopChannel_fixed (x0 : State) (x1 : ℕ) : State.fixed (@State.stopChannel x0 x1) = State.fixed x0 := by
  simp [State.stopChannel]

@[simp] theorem State.stopSheaf_fixed (x0 : State) (x1 : ℕ) : State.fixed (@State.stopSheaf x0 x1) = State.fixed x0 := by
  unfold State.stopSheaf
  (repeat' first
    | with_reducible rfl
    | (extract_lets +onlyGivenNames s1
       have hs : State.fixed s1 = State.fixed x0 := by
         first | (simp [s1, *]; done) | (unfold s1; (repeat' first | with_reducible rfl | intro _ | with_reducible refine State.each_fixed_trans ?_ ?_ | split | (simp [*]; done)); done)
       clear_value s1)
    | (extract_lets +onlyGivenNames s1; clear_value s1)
    | intro _ | with_reducible refine State.each_fixed_trans ?_ ?_ | split | (simp [*]; done) | refine (pair_fixed ‹_› rfl).trans ?_
    | refine (State.newEntry_fixed _ _ _ _ ‹_›).trans ?_)

@[simp] theorem State.stopHostPort_fixed (x0 : State) (x1 : ℕ) : State.fixed (@State.stopHostPort x0 x1) = State.fixed x0 := by
  unfold State.stopHostPort
  (repeat' first | with_reducible rfl | intro _ | with_reducible refine State.each_fixed_trans ?_ ?_ | split | (simp; done))

@[simp] theorem State.isolateUnit_fixed (x0 : State) (x1 : ℕ) (x2 : ℕ) (x3 : ℕ) : State.fixed (@State.isolateUnit x0 x1 x2 x3) = State.fixed x0 := by
  unfold State.isolateUnit; (repeat' split) <;> simp

@[simp] theorem State.clearLoops_fixed (x0 : State) (x1 : ℕ) (x2 : ℕ) : State.fixed (@State.clearLoops x0 x1 x2) = State.fixed x0 := by
  simp [State.clearLoops]

@[simp] theorem State.restoreUnit_fixed (x0 : State) (x1 : ℕ) (x2 : ℕ) : State.fixed (@State.restoreUnit x0 x1 x2) = State.fixed x0 := by
  unfold State.restoreUnit; (repeat' split) <;> simp

@[simp] theorem State.sheafFault_fixed (x0 : State) (x1 : ℕ) (x2 : ℕ) : State.fixed (@State.sheafFault x0 x1 x2) = State.fixed x0 := by
  simp [State.sheafFault]

@[simp] theorem State.modRun_fixed (x0 : State) (x1 : TestRun → TestRun) : State.fixed (@State.modRun x0 x1) = State.fixed x0 := by
  simp [State.modRun]

@[simp] theorem State.stepEffect_fixed (x0 : State) (x1 : TestRun) (x2 : TestStep) (x3 : Bool) : State.fixed (@State.stepEffect x0 x1 x2 x3) = State.fixed x0 := by
  unfold State.stepEffect
  (repeat' first
    | with_reducible rfl
    | (extract_lets +onlyGivenNames s1; have hs : State.fixed s1 = State.fixed x0 := by (simp [s1, *]; done)
       clear_value s1)
    | (extract_lets +onlyGivenNames s1; clear_value s1)
    | intro _ | with_reducible refine State.each_fixed_trans ?_ ?_ | split | (simp [*]; done))

@[simp] theorem State.endRun_fixed (x0 : State) (x1 : TestRun) : State.fixed (@State.endRun x0 x1) = State.fixed x0 := by
  unfold State.endRun; (repeat' split) <;> simp

@[simp] theorem effectSelfTestStepDone_fixed (x0 : TestStep) (x1 : State) : State.fixed (@effectSelfTestStepDone x0 x1) = State.fixed x1 := by
  unfold effectSelfTestStepDone
  (repeat' first
    | with_reducible rfl
    | (extract_lets +onlyGivenNames s1
       have hs : State.fixed s1 = State.fixed x1 := by
         first | (simp [s1, *]; done) | (unfold s1; (repeat' first | with_reducible rfl | intro _ | with_reducible refine State.each_fixed_trans ?_ ?_ | split | (simp [*]; done)); done)
       clear_value s1)
    | (extract_lets +onlyGivenNames s1; clear_value s1)
    | intro _ | with_reducible refine State.each_fixed_trans ?_ ?_ | split | (simp [*]; done) | refine (pair_fixed ‹_› rfl).trans ?_
    | refine (State.newEntry_fixed _ _ _ _ ‹_›).trans ?_)

@[simp] theorem State.testCheck_fixed (x0 : State) : State.fixed (@State.testCheck x0) = State.fixed x0 := by
  unfold State.testCheck; (repeat' split) <;> simp

theorem unitIsolateCmd_run_fixed (f : Frame) (s : State) : ∀ a u, unitIsolateCmd.run f s = .ok (a, u) → u.fixed = s.fixed := by
  unfold unitIsolateCmd; dsimp only; intro a u h; exact answer_fixed _ _ _ _ h

theorem unitIsolateCmd_apply_fixed (f : Frame) (s : State) : ∀ u, unitIsolateCmd.apply f s = .ok u → u.fixed = s.fixed := by
  unfold unitIsolateCmd; dsimp only; intro u h
  (repeat' split at h) <;> first | (injection h; done) | (refine ok_state h ?_; simp; done)

theorem loopbackSetCmd_run_fixed (f : Frame) (s : State) : ∀ a u, loopbackSetCmd.run f s = .ok (a, u) → u.fixed = s.fixed := by
  unfold loopbackSetCmd; dsimp only; intro a u h; exact answer_fixed _ _ _ _ h

theorem loopbackSetCmd_apply_fixed (f : Frame) (s : State) : ∀ u, loopbackSetCmd.apply f s = .ok u → u.fixed = s.fixed := by
  unfold loopbackSetCmd; dsimp only; intro u h
  (repeat' split at h) <;> first | (injection h; done) | (refine ok_state h ?_; simp; done)

theorem testSourceConfigCmd_run_fixed (f : Frame) (s : State) : ∀ a u, testSourceConfigCmd.run f s = .ok (a, u) → u.fixed = s.fixed := by
  unfold testSourceConfigCmd; dsimp only; intro a u h; exact answer_fixed _ _ _ _ h

theorem testSourceConfigCmd_apply_fixed (f : Frame) (s : State) : ∀ u, testSourceConfigCmd.apply f s = .ok u → u.fixed = s.fixed := by
  unfold testSourceConfigCmd; dsimp only; intro u h
  (repeat' split at h) <;> first | (injection h; done) | (refine ok_state h ?_; simp; done)

theorem selfTestRunCmd_run_fixed (f : Frame) (s : State) : ∀ a u, selfTestRunCmd.run f s = .ok (a, u) → u.fixed = s.fixed := by
  unfold selfTestRunCmd
  dsimp only
  intros
  rename_i h
  try simp only [bind, pure, Except.pure, Option.map_eq_some_iff] at h
  repeat' first
    | exact answer_fixed _ _ _ _ h
    | (replace h := Except.bind_ok h; rcases h with ⟨_, h0, h⟩)
    | (rcases h with ⟨_, h0, h⟩)
    | (extract_lets +onlyGivenNames s1 at h
       have hs : State.fixed s1 = State.fixed s := by
         first
           | (simp [s1, *]; done)
           | (unfold s1; (repeat' first | with_reducible rfl | intro _ | with_reducible refine State.each_fixed_trans ?_ ?_ | split | (simp [*]; done)); done)
       clear_value s1)
    | (extract_lets +onlyGivenNames s1 at h; clear_value s1)
    | (split at h; skip)
    | (injection h; done)
    | (injection h with h h1; subst h1)
    | (injection h with h; subst h)
    | (injection h with h)
  all_goals repeat' first
    | with_reducible rfl
    | (simp [*]; done)
    | assumption
    | refine (pair_fixed ‹_› rfl).trans ?_
    | refine (triple_fixed ‹_› rfl).trans ?_
    | refine (State.newEntry_fixed _ _ _ _ ‹_›).trans ?_
    | refine (State.beginRecord_fixed _ _ _ _ _ ‹_›).trans ?_
    | refine (State.takeRecordId_fixed _ _ _ ‹_›).trans ?_
    | refine (State.takePages_fixed _ _ _ _ _ _ ‹_›).trans ?_
    | refine (State.sizeRing_fixed _ _ _ _ _ _ ‹_›).trans ?_
    | refine (State.startWork_fixed _ _ _ _ _ _ ‹_›).trans ?_
    | refine (State.doneAtOnce_fixed _ _ _ _ _ _ ‹_›).trans ?_
    | refine (State.newItem_fixed _ _ _ _ _ _ _ ‹_›).trans ?_
    | intro _
    | with_reducible refine State.each_fixed_trans ?_ ?_
    | (split; skip)
    | (simp; skip)

theorem testResultGetCmd_run_fixed (f : Frame) (s : State) : ∀ a u, testResultGetCmd.run f s = .ok (a, u) → u.fixed = s.fixed := by
  unfold testResultGetCmd; dsimp only; intro a u h; exact answer_fixed _ _ _ _ h

/-! ## Power -/

@[simp] theorem State.modFw_fixed (x0 : State) (x1 : Firmware → Firmware) : State.fixed (@State.modFw x0 x1) = State.fixed x0 := by
  simp [State.modFw]

@[simp] theorem State.enterState_fixed (x0 : State) (x1 : OpState) : State.fixed (@State.enterState x0 x1) = State.fixed x0 := by
  unfold State.enterState
  (repeat' first | with_reducible rfl | intro _ | with_reducible refine State.each_fixed_trans ?_ ?_ | split | (simp; done))

@[simp] theorem State.resumeInstances_fixed (x0 : State) (x1 : Bool) : State.fixed (@State.resumeInstances x0 x1) = State.fixed x0 := by
  unfold State.resumeInstances
  (repeat' first
    | with_reducible rfl
    | (extract_lets +onlyGivenNames s1
       have hs : State.fixed s1 = State.fixed x0 := by
         first | (simp [s1, *]; done) | (unfold s1; (repeat' first | with_reducible rfl | intro _ | with_reducible refine State.each_fixed_trans ?_ ?_ | split | (simp [*]; done)); done)
       clear_value s1)
    | (extract_lets +onlyGivenNames s1; clear_value s1)
    | intro _ | with_reducible refine State.each_fixed_trans ?_ ?_ | split | (simp [*]; done) | refine (pair_fixed ‹_› rfl).trans ?_
    | refine (State.newEntry_fixed _ _ _ _ ‹_›).trans ?_)

@[simp] theorem State.rearmMap_fixed (x0 : State) : State.fixed (@State.rearmMap x0) = State.fixed x0 := by
  unfold State.rearmMap
  (repeat' first | with_reducible rfl | intro _ | with_reducible refine State.each_fixed_trans ?_ ?_ | split | (simp; done))

@[simp] theorem State.enterService_fixed (x0 : State) (x1 : Bool) : State.fixed (@State.enterService x0 x1) = State.fixed x0 := by
  unfold State.enterService
  (repeat' first
    | with_reducible rfl
    | (extract_lets +onlyGivenNames s1
       have hs : State.fixed s1 = State.fixed x0 := by
         first | (simp [s1, *]; done) | (unfold s1; (repeat' first | with_reducible rfl | intro _ | with_reducible refine State.each_fixed_trans ?_ ?_ | split | (simp [*]; done)); done)
       clear_value s1)
    | (extract_lets +onlyGivenNames s1; clear_value s1)
    | intro _ | with_reducible refine State.each_fixed_trans ?_ ?_ | split | (simp [*]; done) | refine (pair_fixed ‹_› rfl).trans ?_
    | refine (State.newEntry_fixed _ _ _ _ ‹_›).trans ?_)

@[simp] theorem State.leaveService_fixed (x0 : State) (x1 : OpState) : State.fixed (@State.leaveService x0 x1) = State.fixed x0 := by
  unfold State.leaveService
  extract_lets s1 s2 s3 at_ cut s4
  refine (State.enterState_fixed _ _).trans ((fixed_insts _ _).trans ?_)
  refine (State.each_fixed _ (fun s i => State.disarmSource_fixed _ _) _ _).trans ?_
  refine (State.each_fixed _ (fun s i => State.disarmCapture_fixed _ _) _ _).trans ?_
  exact State.each_fixed _ (fun s i => by split <;> simp) _ _

@[simp] theorem State.setOpState_fixed (x0 : State) (x1 : OpState) : State.fixed (@State.setOpState x0 x1) = State.fixed x0 := by
  unfold State.setOpState; (repeat' split) <;> simp

@[simp] theorem State.failItems_fixed (x0 : State) (x1 : Status) (x2 : ℕ → Pending → Bool) : State.fixed (@State.failItems x0 x1 x2) = State.fixed x0 := by
  unfold State.failItems
  refine State.each_fixed_trans (fun s t => ?_) rfl
  exact (State.modTenant_fixed _ _ _).trans (State.each_fixed_trans (fun s i => State.endItem_fixed _ _ _ _ _) rfl)

@[simp] theorem State.startCulmRestart_fixed (x0 : State) (x1 : ℕ) : State.fixed (@State.startCulmRestart x0 x1) = State.fixed x0 := by
  unfold State.startCulmRestart; (repeat' split) <;> simp

@[simp] theorem State.watchdog_fixed (x0 : State) (x1 : ℕ) : State.fixed (@State.watchdog x0 x1) = State.fixed x0 := by
  unfold State.watchdog; (repeat' split) <;> simp

@[simp] theorem State.firmwareUp_fixed (x0 : State) : State.fixed (@State.firmwareUp x0) = State.fixed x0 := by
  unfold State.firmwareUp; (repeat' split) <;> simp

@[simp] theorem effectCulmRestartComplete_fixed (x0 : State) : State.fixed (@effectCulmRestartComplete x0) = State.fixed x0 := by
  unfold effectCulmRestartComplete; (repeat' split) <;> simp

@[simp] theorem State.modReport_fixed (x0 : State) (x1 : PfReport → PfReport) : State.fixed (@State.modReport x0 x1) = State.fixed x0 := by
  simp [State.modReport]

@[simp] theorem State.startPowerFail_fixed (x0 : State) (x1 : ℕ) : State.fixed (@State.startPowerFail x0 x1) = State.fixed x0 := by
  unfold State.startPowerFail
  split
  · rfl
  · extract_lets lost report s1 s2 s3 s4 s5
    have h1 : s1.fixed = x0.fixed := State.modPower_fixed _ _
    have h2 : s2.fixed = x0.fixed := (State.haltTiller_fixed _).trans ((State.abortTest_fixed _).trans ((State.abortDrill_fixed _ _).trans h1))
    have h3 : s3.fixed = x0.fixed := State.each_fixed_trans (fun s k => State.modProbe_fixed _ _ _) ((State.gateAll_fixed _ _).trans h2)
    have h4 : s4.fixed = x0.fixed :=
      (State.fixed_mk _ _ _ _ _ _ _ _ _ _ _ _ _ _ _ _ _ _ _ _ _ _ _ _ _ _ _ _ _ _ _ _ _ _).trans h3
    have h5 : s5.fixed = x0.fixed := (State.archivePowerFail_fixed _).trans ((State.modJr_fixed _ _).trans h4)
    split
    rename_i v s6 h
    have h6 : s6.fixed = x0.fixed := (pair_fixed h rfl).trans ((State.free_fixed _).trans h5)
    exact (effectVtSecondSave_fixed _).trans ((State.failItems_fixed _ _ _).trans ((State.modReport_fixed _ _).trans h6))

@[simp] theorem State.stopMain_fixed (x0 : State) : State.fixed (@State.stopMain x0) = State.fixed x0 := by
  simp [State.stopMain]

@[simp] theorem State.countNotStarted_fixed (x0 : State) (x1 : ℕ) : State.fixed (@State.countNotStarted x0 x1) = State.fixed x0 := by
  simp [State.countNotStarted]

@[simp] theorem effectMainDomainDown_fixed (x0 : State) : State.fixed (@effectMainDomainDown x0) = State.fixed x0 := by
  unfold effectMainDomainDown
  (repeat' first
    | with_reducible rfl
    | (extract_lets +onlyGivenNames s1; have hs : State.fixed s1 = State.fixed x0 := by (simp [s1, *]; done)
       clear_value s1)
    | (extract_lets +onlyGivenNames s1; clear_value s1)
    | intro _ | with_reducible refine State.each_fixed_trans ?_ ?_ | split | (simp [*]; done))

@[simp] theorem effectProtectionScan_fixed (x0 : List ℤ) (x1 : State) : State.fixed (@effectProtectionScan x0 x1) = State.fixed x1 := by
  unfold effectProtectionScan
  extract_lets at_ a b la lb limit near diff iin p plate high alarm s1
  have ha : ∀ s i c, (alarm s i c).fixed = s.fixed := by
    intro s i c
    unfold alarm
    split
    · exact State.raise_fixed _ _ _ _
    · rfl
  have h1 : s1.fixed = x1.fixed := (ha _ _ _).trans (ha _ _ _)
  exact (State.modPower_fixed _ _).trans h1

@[simp] theorem effectPlateSensorFault_fixed (x0 : State) : State.fixed (@effectPlateSensorFault x0) = State.fixed x0 := by
  unfold effectPlateSensorFault
  (repeat' first
    | with_reducible rfl
    | (extract_lets +onlyGivenNames s1; have hs : State.fixed s1 = State.fixed x0 := by (simp [s1, *]; done)
       clear_value s1)
    | (extract_lets +onlyGivenNames s1; clear_value s1)
    | intro _ | with_reducible refine State.each_fixed_trans ?_ ?_ | split | (simp [*]; done))

@[simp] theorem effectThermalWarn_fixed (x0 : State) : State.fixed (@effectThermalWarn x0) = State.fixed x0 := by
  unfold effectThermalWarn; (repeat' split) <;> simp

@[simp] theorem effectBladeImbalance_fixed (x0 : ℤ) (x1 : State) : State.fixed (@effectBladeImbalance x0 x1) = State.fixed x1 := by
  unfold effectBladeImbalance; (repeat' split) <;> simp

@[simp] theorem effectHoldupMeasure_fixed (x0 : U16) (x1 : State) : State.fixed (@effectHoldupMeasure x0 x1) = State.fixed x1 := by
  unfold effectHoldupMeasure; (repeat' split) <;> simp

@[simp] theorem State.hkEntry_fixed (x0 : State) (x1 : List (List ℤ)) (x2 : ℕ) : State.fixed (@State.hkEntry x0 x1 x2) = State.fixed x0 := by
  unfold State.hkEntry; (repeat' split) <;> simp

@[simp] theorem effectHkReportingPass_fixed (x0 : List (List ℤ)) (x1 : State) : State.fixed (@effectHkReportingPass x0 x1) = State.fixed x1 := by
  unfold effectHkReportingPass
  repeat' first
    | with_reducible rfl
    | (extract_lets +onlyGivenNames s1
       have hs : State.fixed s1 = State.fixed x1 := by
         first
           | (simp [s1, *]; done)
           | (unfold s1; (repeat' first | with_reducible rfl | intro _ | with_reducible refine State.each_fixed_trans ?_ ?_ | split | (simp [*]; done)); done)
       clear_value s1)
    | (extract_lets +onlyGivenNames s1; clear_value s1)
    | intro _
    | with_reducible refine State.each_fixed_trans ?_ ?_
    | (split; skip)
    | (simp [*]; done)
    | assumption
    | refine (pair_fixed ‹_› rfl).trans ?_
    | refine (triple_fixed ‹_› rfl).trans ?_
    | refine (State.newEntry_fixed _ _ _ _ ‹_›).trans ?_
    | refine (State.beginRecord_fixed _ _ _ _ _ ‹_›).trans ?_
    | refine (State.finishEnded_fixed _ _ _ _ ‹_›).trans ?_
    | refine (State.takeRecordId_fixed _ _ _ ‹_›).trans ?_
    | refine (State.takePages_fixed _ _ _ _ _ _ ‹_›).trans ?_
    | refine (State.sizeRing_fixed _ _ _ _ _ _ ‹_›).trans ?_
    | refine (State.startWork_fixed _ _ _ _ _ _ ‹_›).trans ?_
    | refine (State.applySteward_fixed _ _ _ _ ‹_›).trans ?_
    | refine (State.applyStage_fixed _ _ _ _ ‹_›).trans ?_
    | (simp; skip)

@[simp] theorem State.restartAt_fixed (x0 : State) (x1 : ℕ) (x2 : ℕ) : State.fixed (@State.restartAt x0 x1 x2) = State.fixed x0 := by
  unfold State.restartAt; (repeat' split) <;> simp

@[simp] theorem effectFirmwareRevert_fixed (x0 : State) : State.fixed (@effectFirmwareRevert x0) = State.fixed x0 := by
  unfold effectFirmwareRevert
  (repeat' first
    | with_reducible rfl
    | (extract_lets +onlyGivenNames s1; have hs : State.fixed s1 = State.fixed x0 := by (simp [s1, *]; done)
       clear_value s1)
    | (extract_lets +onlyGivenNames s1; clear_value s1)
    | intro _ | with_reducible refine State.each_fixed_trans ?_ ?_ | split | (simp [*]; done))

@[simp] theorem State.pendingRestart_fixed (x0 : State) : State.fixed (@State.pendingRestart x0) = State.fixed x0 := by
  unfold State.pendingRestart; (repeat' split) <;> simp

theorem powerStatusGetCmd_run_fixed (f : Frame) (s : State) : ∀ a u, powerStatusGetCmd.run f s = .ok (a, u) → u.fixed = s.fixed := by
  unfold powerStatusGetCmd; dsimp only; intro a u h; exact answer_fixed _ _ _ _ h

theorem housekeepingConfigCmd_run_fixed (f : Frame) (s : State) : ∀ a u, housekeepingConfigCmd.run f s = .ok (a, u) → u.fixed = s.fixed := by
  unfold housekeepingConfigCmd; dsimp only; intro a u h; exact ok_pair h rfl

theorem housekeepingGetCmd_run_fixed (f : Frame) (s : State) : ∀ a u, housekeepingGetCmd.run f s = .ok (a, u) → u.fixed = s.fixed := by
  unfold housekeepingGetCmd; dsimp only; intro a u h; exact answer_fixed _ _ _ _ h

theorem operatingStateSetCmd_run_fixed (f : Frame) (s : State) : ∀ a u, operatingStateSetCmd.run f s = .ok (a, u) → u.fixed = s.fixed := by
  unfold operatingStateSetCmd; dsimp only; intro a u h; exact answer_fixed _ _ _ _ h

theorem operatingStateSetCmd_apply_fixed (f : Frame) (s : State) : ∀ u, operatingStateSetCmd.apply f s = .ok u → u.fixed = s.fixed := by
  unfold operatingStateSetCmd; dsimp only; intro u h
  (repeat' split at h) <;> first | (injection h; done) | (refine ok_state h ?_; simp; done)

theorem powerFailReportGetCmd_run_fixed (f : Frame) (s : State) : ∀ a u, powerFailReportGetCmd.run f s = .ok (a, u) → u.fixed = s.fixed := by
  unfold powerFailReportGetCmd; dsimp only; intro a u h; exact answer_fixed _ _ _ _ h

theorem firmwareLoadCmd_run_fixed (f : Frame) (s : State) : ∀ a u, firmwareLoadCmd.run f s = .ok (a, u) → u.fixed = s.fixed := by
  unfold firmwareLoadCmd
  dsimp only
  intro a u h
  obtain ⟨_, _, h⟩ := Except.bind_ok h
  generalize hs : (if (s.power.fw.otherState != 1) = true then State.modFw s _ else s) = s1 at h
  have h1 : s1.fixed = s.fixed := by
    rw [← hs]
    split
    · exact State.modFw_fixed _ _
    · rfl
  clear hs
  split at h
  · obtain ⟨⟨j, s2⟩, h0, h⟩ := Except.bind_ok h
    obtain ⟨⟨j', s3⟩, h3, h⟩ := Except.bind_ok h
    have e2 := (State.startWork_fixed _ _ _ _ _ _ h0).trans h1
    have e3 : s3.fixed = s2.fixed := ok_pair h3 rfl
    refine ok_pair h ?_
    exact (State.withEntry_fixed fun s i => State.modEntry_fixed _ _ _).trans ((State.modFw_fixed _ _).trans (e3.trans e2))
  · obtain ⟨⟨j, s2⟩, h0, h⟩ := Except.bind_ok h
    have e2 : s2.fixed = s1.fixed := ok_pair h0 rfl
    refine ok_pair h ?_
    exact (State.withEntry_fixed fun s i => State.modEntry_fixed _ _ _).trans ((State.modFw_fixed _ _).trans (e2.trans h1))

theorem firmwareActivateCmd_run_fixed (f : Frame) (s : State) : ∀ a u, firmwareActivateCmd.run f s = .ok (a, u) → u.fixed = s.fixed := by
  unfold firmwareActivateCmd; dsimp only; intro a u h; exact ok_pair h rfl

theorem moduleResetCmd_run_fixed (f : Frame) (s : State) : ∀ a u, moduleResetCmd.run f s = .ok (a, u) → u.fixed = s.fixed := by
  unfold moduleResetCmd; dsimp only; intro a u h; exact ok_pair h rfl

/-! ## Restart -/

@[simp] theorem State.revert_fixed (x0 : State) (x1 : Prior) : State.fixed (@State.revert x0 x1) = State.fixed x0 := by
  simp [State.revert]

@[simp] theorem State.endWork_fixed (x0 : State) : State.fixed (@State.endWork x0) = State.fixed x0 := by
  unfold State.endWork
  (repeat' first | with_reducible rfl | intro _ | with_reducible refine State.each_fixed_trans ?_ ?_ | split | (simp; done))

@[simp] theorem State.undoSwitch_fixed (x0 : State) : State.fixed (@State.undoSwitch x0) = State.fixed x0 := by
  unfold State.undoSwitch
  (repeat' first
    | with_reducible rfl
    | (extract_lets +onlyGivenNames s1; have hs : State.fixed s1 = State.fixed x0 := by (simp [s1, *]; done)
       clear_value s1)
    | (extract_lets +onlyGivenNames s1; clear_value s1)
    | intro _ | with_reducible refine State.each_fixed_trans ?_ ?_ | split | (simp [*]; done))

@[simp] theorem effectStartupRelease_fixed (x0 : BitVec 5) (x1 : State) : State.fixed (@effectStartupRelease x0 x1) = State.fixed x1 := by
  unfold effectStartupRelease
  (repeat' first
    | with_reducible rfl
    | (extract_lets +onlyGivenNames s1
       have hs : State.fixed s1 = State.fixed x1 := by
         first | (simp [s1, *]; done) | (unfold s1; (repeat' first | with_reducible rfl | intro _ | with_reducible refine State.each_fixed_trans ?_ ?_ | split | (simp [*]; done)); done)
       clear_value s1)
    | (extract_lets +onlyGivenNames s1; clear_value s1)
    | intro _ | with_reducible refine State.each_fixed_trans ?_ ?_ | split | (simp [*]; done) | refine (pair_fixed ‹_› rfl).trans ?_
    | refine (State.newEntry_fixed _ _ _ _ ‹_›).trans ?_)

@[simp] theorem effectStartupEnd_fixed (x0 : State) : State.fixed (@effectStartupEnd x0) = State.fixed x0 := by
  unfold effectStartupEnd
  (repeat' first
    | with_reducible rfl
    | (extract_lets +onlyGivenNames s1
       have hs : State.fixed s1 = State.fixed x0 := by
         first | (simp [s1, *]; done) | (unfold s1; (repeat' first | with_reducible rfl | intro _ | with_reducible refine State.each_fixed_trans ?_ ?_ | split | (simp [*]; done)); done)
       clear_value s1)
    | (extract_lets +onlyGivenNames s1; clear_value s1)
    | intro _ | with_reducible refine State.each_fixed_trans ?_ ?_ | split | (simp [*]; done) | refine (pair_fixed ‹_› rfl).trans ?_
    | refine (State.newEntry_fixed _ _ _ _ ‹_›).trans ?_)

end Sys2Proof.Machine
end

