-- ==== Sys2Proof/Laws/FixedE.lean ====
section
/-! SUPPORT. The queue, the clock and the rings under the operations of the command table, commits, acceptance, the window and the boundary. -/

set_option linter.all false

namespace Sys2Proof.Machine

/-! ## Commands -/

theorem chapterCmd_run_fixed {i : Instr} {k : Cmd} (h : chapterCmd i = some k) (f : Frame) (s : State) (a : Reply) (u : State)
    (hr : k.run f s = .ok (a, u)) : u.fixed = s.fixed := by
  cases i with
  | timeGet _ => injection h with h; subst h; exact timeGetCmd_run_fixed _ _ _ _ hr
  | timebaseConfig _ => injection h with h; subst h; exact timebaseConfigCmd_run_fixed _ _ _ _ hr
  | timeSet _ => injection h with h; subst h; exact timeSetCmd_run_fixed _ _ _ _ hr
  | leapSchedule _ => injection h with h; subst h; exact leapScheduleCmd_run_fixed _ _ _ _ hr
  | timeAlign _ => injection h with h; subst h; exact timeAlignCmd_run_fixed _ _ _ _ hr
  | timeConvert _ => injection h with h; subst h; exact timeConvertCmd_run_fixed _ _ _ _ hr
  | holdoverForce _ => injection h with h; subst h; exact holdoverForceCmd_run_fixed _ _ _ _ hr
  | leapTableGet _ => injection h with h; subst h; exact leapTableGetCmd_run_fixed _ _ _ _ hr
  | channelConfig _ => injection h with h; subst h; exact channelConfigCmd_run_fixed _ _ _ _ hr
  | comparatorConfig _ => injection h with h; subst h; exact comparatorConfigCmd_run_fixed _ _ _ _ hr
  | channelStatusGet _ => injection h with h; subst h; exact channelStatusGetCmd_run_fixed _ _ _ _ hr
  | delayTableGet _ => injection h with h; subst h; exact delayTableGetCmd_run_fixed _ _ _ _ hr
  | rotationConfig _ => injection h with h; subst h; exact rotationConfigCmd_run_fixed _ _ _ _ hr
  | sliceSubstitute _ => injection h with h; subst h; exact sliceSubstituteCmd_run_fixed _ _ _ _ hr
  | calConfig _ => injection h with h; subst h; exact calConfigCmd_run_fixed _ _ _ _ hr
  | calChannelConfig _ => injection h with h; subst h; exact calChannelConfigCmd_run_fixed _ _ _ _ hr
  | calRun _ => injection h with h; subst h; exact calRunCmd_run_fixed _ _ _ _ hr
  | calStatusGet _ => injection h with h; subst h; exact calStatusGetCmd_run_fixed _ _ _ _ hr
  | calSetGet _ => injection h with h; subst h; exact calSetGetCmd_run_fixed _ _ _ _ hr
  | calLogGet _ => injection h with h; subst h; exact calLogGetCmd_run_fixed _ _ _ _ hr
  | triggerRouteConfig _ => injection h with h; subst h; exact triggerRouteConfigCmd_run_fixed _ _ _ _ hr
  | armTrigger _ => injection h with h; subst h; exact armTriggerCmd_run_fixed _ _ _ _ hr
  | softTrigger _ => injection h with h; subst h; exact softTriggerCmd_run_fixed _ _ _ _ hr
  | triggerStatusGet _ => injection h with h; subst h; exact triggerStatusGetCmd_run_fixed _ _ _ _ hr
  | trigOutConfig _ => injection h with h; subst h; exact trigOutConfigCmd_run_fixed _ _ _ _ hr
  | routeAssign _ => injection h with h; subst h; exact routeAssignCmd_run_fixed _ _ _ _ hr
  | tillerLoad _ => injection h with h; subst h; exact tillerLoadCmd_run_fixed _ _ _ _ hr
  | tillerControl _ => injection h with h; subst h; exact tillerControlCmd_run_fixed _ _ _ _ hr
  | rachisConfig _ => injection h with h; subst h; exact rachisConfigCmd_run_fixed _ _ _ _ hr
  | rachisStatusGet _ => injection h with h; subst h; exact rachisStatusGetCmd_run_fixed _ _ _ _ hr
  | rachisSend _ => injection h with h; subst h; exact rachisSendCmd_run_fixed _ _ _ _ hr
  | rachisQuench _ => injection h with h; subst h; exact rachisQuenchCmd_run_fixed _ _ _ _ hr
  | captureConfig _ => injection h with h; subst h; exact captureConfigCmd_run_fixed _ _ _ _ hr
  | reductionConfig _ => injection h with h; subst h; exact reductionConfigCmd_run_fixed _ _ _ _ hr
  | accumConfig _ => injection h with h; subst h; exact accumConfigCmd_run_fixed _ _ _ _ hr
  | armCapture _ => injection h with h; subst h; exact armCaptureCmd_run_fixed _ _ _ _ hr
  | captureStatusGet _ => injection h with h; subst h; exact captureStatusGetCmd_run_fixed _ _ _ _ hr
  | recordFetch _ => injection h with h; subst h; exact recordFetchCmd_run_fixed _ _ _ _ hr
  | stampConfig _ => injection h with h; subst h; exact stampConfigCmd_run_fixed _ _ _ _ hr
  | tiConfig _ => injection h with h; subst h; exact tiConfigCmd_run_fixed _ _ _ _ hr
  | armStamps _ => injection h with h; subst h; exact armStampsCmd_run_fixed _ _ _ _ hr
  | awnStatusGet _ => injection h with h; subst h; exact awnStatusGetCmd_run_fixed _ _ _ _ hr
  | measureConfig _ => injection h with h; subst h; exact measureConfigCmd_run_fixed _ _ _ _ hr
  | engineAssign _ => injection h with h; subst h; exact engineAssignCmd_run_fixed _ _ _ _ hr
  | imageLoad _ => injection h with h; subst h; exact imageLoadCmd_run_fixed _ _ _ _ hr
  | imageVerify _ => injection h with h; subst h; exact imageVerifyCmd_run_fixed _ _ _ _ hr
  | imageDelete _ => injection h with h; subst h; exact imageDeleteCmd_run_fixed _ _ _ _ hr
  | reducerConfig _ => injection h with h; subst h; exact reducerConfigCmd_run_fixed _ _ _ _ hr
  | engineStatusGet _ => injection h with h; subst h; exact engineStatusGetCmd_run_fixed _ _ _ _ hr
  | reducerStatusGet _ => injection h with h; subst h; exact reducerStatusGetCmd_run_fixed _ _ _ _ hr
  | engineKeyEnroll _ => injection h with h; subst h; exact engineKeyEnrollCmd_run_fixed _ _ _ _ hr
  | engineRestore _ => injection h with h; subst h; exact engineRestoreCmd_run_fixed _ _ _ _ hr
  | imageList _ => injection h with h; subst h; exact imageListCmd_run_fixed _ _ _ _ hr
  | dramStatusGet _ => injection h with h; subst h; exact dramStatusGetCmd_run_fixed _ _ _ _ hr
  | dramPortStatsGet _ => injection h with h; subst h; exact dramPortStatsGetCmd_run_fixed _ _ _ _ hr
  | dramQosConfig _ => injection h with h; subst h; exact dramQosConfigCmd_run_fixed _ _ _ _ hr
  | dramConfig _ => injection h with h; subst h; exact dramConfigCmd_run_fixed _ _ _ _ hr
  | dramMapConfig _ => injection h with h; subst h; exact dramMapConfigCmd_run_fixed _ _ _ _ hr
  | dramIsolate _ => injection h with h; subst h; exact dramIsolateCmd_run_fixed _ _ _ _ hr
  | dramErrorLogGet _ => injection h with h; subst h; exact dramErrorLogGetCmd_run_fixed _ _ _ _ hr
  | winnowConfig _ => injection h with h; subst h; exact winnowConfigCmd_run_fixed _ _ _ _ hr
  | winnowFlush _ => injection h with h; subst h; exact winnowFlushCmd_run_fixed _ _ _ _ hr
  | winnowStatusGet _ => injection h with h; subst h; exact winnowStatusGetCmd_run_fixed _ _ _ _ hr
  | granaryStatusGet _ => injection h with h; subst h; exact granaryStatusGetCmd_run_fixed _ _ _ _ hr
  | archiveJobConfig _ => injection h with h; subst h; exact archiveJobConfigCmd_run_fixed _ _ _ _ hr
  | archiveRead _ => injection h with h; subst h; exact archiveReadCmd_run_fixed _ _ _ _ hr
  | archiveList _ => injection h with h; subst h; exact archiveListCmd_run_fixed _ _ _ _ hr
  | archiveRetain _ => injection h with h; subst h; exact archiveRetainCmd_run_fixed _ _ _ _ hr
  | damageListGet _ => injection h with h; subst h; exact damageListGetCmd_run_fixed _ _ _ _ hr
  | gleanConfig _ => injection h with h; subst h; exact gleanConfigCmd_run_fixed _ _ _ _ hr
  | cassetteFormat _ => injection h with h; subst h; exact cassetteFormatCmd_run_fixed _ _ _ _ hr
  | cassetteEvacuate _ => injection h with h; subst h; exact cassetteEvacuateCmd_run_fixed _ _ _ _ hr
  | cassetteRetire _ => injection h with h; subst h; exact cassetteRetireCmd_run_fixed _ _ _ _ hr
  | portConfig _ => injection h with h; subst h; exact portConfigCmd_run_fixed _ _ _ _ hr
  | portStatusGet _ => injection h with h; subst h; exact portStatusGetCmd_run_fixed _ _ _ _ hr
  | streamConfig _ => injection h with h; subst h; exact streamConfigCmd_run_fixed _ _ _ _ hr
  | streamStart _ => injection h with h; subst h; exact streamStartCmd_run_fixed _ _ _ _ hr
  | streamStop _ => injection h with h; subst h; exact streamStopCmd_run_fixed _ _ _ _ hr
  | streamLeaseRenew _ => injection h with h; subst h; exact streamLeaseRenewCmd_run_fixed _ _ _ _ hr
  | streamStatusGet _ => injection h with h; subst h; exact streamStatusGetCmd_run_fixed _ _ _ _ hr
  | quench _ => injection h with h; subst h; exact quenchCmd_run_fixed _ _ _ _ hr
  | tenantConfig _ => injection h with h; subst h; exact tenantConfigCmd_run_fixed _ _ _ _ hr
  | tenantStatusGet _ => injection h with h; subst h; exact tenantStatusGetCmd_run_fixed _ _ _ _ hr
  | channelAssign _ => injection h with h; subst h; exact channelAssignCmd_run_fixed _ _ _ _ hr
  | pageGrant _ => injection h with h; subst h; exact pageGrantCmd_run_fixed _ _ _ _ hr
  | eventSubscribe _ => injection h with h; subst h; exact eventSubscribeCmd_run_fixed _ _ _ _ hr
  | eventAck _ => injection h with h; subst h; exact eventAckCmd_run_fixed _ _ _ _ hr
  | eventQuery _ => injection h with h; subst h; exact eventQueryCmd_run_fixed _ _ _ _ hr
  | sweepStatusGet _ => injection h with h; subst h; exact sweepStatusGetCmd_run_fixed _ _ _ _ hr
  | drillSegmentLoad _ => injection h with h; subst h; exact drillSegmentLoadCmd_run_fixed _ _ _ _ hr
  | drillConfig _ => injection h with h; subst h; exact drillConfigCmd_run_fixed _ _ _ _ hr
  | drillControl _ => injection h with h; subst h; exact drillControlCmd_run_fixed _ _ _ _ hr
  | drillStatusGet _ => injection h with h; subst h; exact drillStatusGetCmd_run_fixed _ _ _ _ hr
  | probeConfig _ => injection h with h; subst h; exact probeConfigCmd_run_fixed _ _ _ _ hr
  | probeProfileLoad _ => injection h with h; subst h; exact probeProfileLoadCmd_run_fixed _ _ _ _ hr
  | probeStatusGet _ => injection h with h; subst h; exact probeStatusGetCmd_run_fixed _ _ _ _ hr
  | loopbackSet _ => injection h with h; subst h; exact loopbackSetCmd_run_fixed _ _ _ _ hr
  | selfTestRun _ => injection h with h; subst h; exact selfTestRunCmd_run_fixed _ _ _ _ hr
  | testResultGet _ => injection h with h; subst h; exact testResultGetCmd_run_fixed _ _ _ _ hr
  | unitIsolate _ => injection h with h; subst h; exact unitIsolateCmd_run_fixed _ _ _ _ hr
  | testSourceConfig _ => injection h with h; subst h; exact testSourceConfigCmd_run_fixed _ _ _ _ hr
  | powerStatusGet _ => injection h with h; subst h; exact powerStatusGetCmd_run_fixed _ _ _ _ hr
  | housekeepingConfig _ => injection h with h; subst h; exact housekeepingConfigCmd_run_fixed _ _ _ _ hr
  | housekeepingGet _ => injection h with h; subst h; exact housekeepingGetCmd_run_fixed _ _ _ _ hr
  | operatingStateSet _ => injection h with h; subst h; exact operatingStateSetCmd_run_fixed _ _ _ _ hr
  | powerFailReportGet _ => injection h with h; subst h; exact powerFailReportGetCmd_run_fixed _ _ _ _ hr
  | firmwareLoad _ => injection h with h; subst h; exact firmwareLoadCmd_run_fixed _ _ _ _ hr
  | firmwareActivate _ => injection h with h; subst h; exact firmwareActivateCmd_run_fixed _ _ _ _ hr
  | moduleReset _ => injection h with h; subst h; exact moduleResetCmd_run_fixed _ _ _ _ hr
  | _ => cases h

theorem chapterCmd_apply_fixed {i : Instr} {k : Cmd} (h : chapterCmd i = some k) (f : Frame) (s : State) (u : State)
    (hr : k.apply f s = .ok u) : u.fixed = s.fixed := by
  cases i with
  | timeGet _ => injection h with h; subst h; exact ok_state hr rfl
  | timebaseConfig _ => injection h with h; subst h; exact timebaseConfigCmd_apply_fixed _ _ _ hr
  | timeSet _ => injection h with h; subst h; exact timeSetCmd_apply_fixed _ _ _ hr
  | leapSchedule _ => injection h with h; subst h; exact leapScheduleCmd_apply_fixed _ _ _ hr
  | timeAlign _ => injection h with h; subst h; exact timeAlignCmd_apply_fixed _ _ _ hr
  | timeConvert _ => injection h with h; subst h; exact ok_state hr rfl
  | holdoverForce _ => injection h with h; subst h; exact holdoverForceCmd_apply_fixed _ _ _ hr
  | leapTableGet _ => injection h with h; subst h; exact ok_state hr rfl
  | channelConfig _ => injection h with h; subst h; exact channelConfigCmd_apply_fixed _ _ _ hr
  | comparatorConfig _ => injection h with h; subst h; exact comparatorConfigCmd_apply_fixed _ _ _ hr
  | channelStatusGet _ => injection h with h; subst h; exact ok_state hr rfl
  | delayTableGet _ => injection h with h; subst h; exact ok_state hr rfl
  | rotationConfig _ => injection h with h; subst h; exact rotationConfigCmd_apply_fixed _ _ _ hr
  | sliceSubstitute _ => injection h with h; subst h; exact sliceSubstituteCmd_apply_fixed _ _ _ hr
  | calConfig _ => injection h with h; subst h; exact calConfigCmd_apply_fixed _ _ _ hr
  | calChannelConfig _ => injection h with h; subst h; exact calChannelConfigCmd_apply_fixed _ _ _ hr
  | calRun _ => injection h with h; subst h; exact calRunCmd_apply_fixed _ _ _ hr
  | calStatusGet _ => injection h with h; subst h; exact ok_state hr rfl
  | calSetGet _ => injection h with h; subst h; exact ok_state hr rfl
  | calLogGet _ => injection h with h; subst h; exact ok_state hr rfl
  | triggerRouteConfig _ => injection h with h; subst h; exact triggerRouteConfigCmd_apply_fixed _ _ _ hr
  | armTrigger _ => injection h with h; subst h; exact ok_state hr rfl
  | softTrigger _ => injection h with h; subst h; exact ok_state hr rfl
  | triggerStatusGet _ => injection h with h; subst h; exact ok_state hr rfl
  | trigOutConfig _ => injection h with h; subst h; exact trigOutConfigCmd_apply_fixed _ _ _ hr
  | routeAssign _ => injection h with h; subst h; exact routeAssignCmd_apply_fixed _ _ _ hr
  | tillerLoad _ => injection h with h; subst h; exact tillerLoadCmd_apply_fixed _ _ _ hr
  | tillerControl _ => injection h with h; subst h; exact ok_state hr rfl
  | rachisConfig _ => injection h with h; subst h; exact rachisConfigCmd_apply_fixed _ _ _ hr
  | rachisStatusGet _ => injection h with h; subst h; exact ok_state hr rfl
  | rachisSend _ => injection h with h; subst h; exact ok_state hr rfl
  | rachisQuench _ => injection h with h; subst h; exact ok_state hr rfl
  | captureConfig _ => injection h with h; subst h; exact captureConfigCmd_apply_fixed _ _ _ hr
  | reductionConfig _ => injection h with h; subst h; exact reductionConfigCmd_apply_fixed _ _ _ hr
  | accumConfig _ => injection h with h; subst h; exact accumConfigCmd_apply_fixed _ _ _ hr
  | armCapture _ => injection h with h; subst h; exact ok_state hr rfl
  | captureStatusGet _ => injection h with h; subst h; exact ok_state hr rfl
  | recordFetch _ => injection h with h; subst h; exact ok_state hr rfl
  | stampConfig _ => injection h with h; subst h; exact stampConfigCmd_apply_fixed _ _ _ hr
  | tiConfig _ => injection h with h; subst h; exact tiConfigCmd_apply_fixed _ _ _ hr
  | armStamps _ => injection h with h; subst h; exact ok_state hr rfl
  | awnStatusGet _ => injection h with h; subst h; exact ok_state hr rfl
  | measureConfig _ => injection h with h; subst h; exact measureConfigCmd_apply_fixed _ _ _ hr
  | engineAssign _ => injection h with h; subst h; exact engineAssignCmd_apply_fixed _ _ _ hr
  | imageLoad _ => injection h with h; subst h; exact ok_state hr rfl
  | imageVerify _ => injection h with h; subst h; exact ok_state hr rfl
  | imageDelete _ => injection h with h; subst h; exact ok_state hr rfl
  | reducerConfig _ => injection h with h; subst h; exact reducerConfigCmd_apply_fixed _ _ _ hr
  | engineStatusGet _ => injection h with h; subst h; exact ok_state hr rfl
  | reducerStatusGet _ => injection h with h; subst h; exact ok_state hr rfl
  | engineKeyEnroll _ => injection h with h; subst h; exact ok_state hr rfl
  | engineRestore _ => injection h with h; subst h; exact engineRestoreCmd_apply_fixed _ _ _ hr
  | imageList _ => injection h with h; subst h; exact ok_state hr rfl
  | dramStatusGet _ => injection h with h; subst h; exact ok_state hr rfl
  | dramPortStatsGet _ => injection h with h; subst h; exact ok_state hr rfl
  | dramQosConfig _ => injection h with h; subst h; exact dramQosConfigCmd_apply_fixed _ _ _ hr
  | dramConfig _ => injection h with h; subst h; exact dramConfigCmd_apply_fixed _ _ _ hr
  | dramMapConfig _ => injection h with h; subst h; exact dramMapConfigCmd_apply_fixed _ _ _ hr
  | dramIsolate _ => injection h with h; subst h; exact dramIsolateCmd_apply_fixed _ _ _ hr
  | dramErrorLogGet _ => injection h with h; subst h; exact ok_state hr rfl
  | winnowConfig _ => injection h with h; subst h; exact winnowConfigCmd_apply_fixed _ _ _ hr
  | winnowFlush _ => injection h with h; subst h; exact ok_state hr rfl
  | winnowStatusGet _ => injection h with h; subst h; exact ok_state hr rfl
  | granaryStatusGet _ => injection h with h; subst h; exact ok_state hr rfl
  | archiveJobConfig _ => injection h with h; subst h; exact archiveJobConfigCmd_apply_fixed _ _ _ hr
  | archiveRead _ => injection h with h; subst h; exact ok_state hr rfl
  | archiveList _ => injection h with h; subst h; exact ok_state hr rfl
  | archiveRetain _ => injection h with h; subst h; exact ok_state hr rfl
  | damageListGet _ => injection h with h; subst h; exact ok_state hr rfl
  | gleanConfig _ => injection h with h; subst h; exact gleanConfigCmd_apply_fixed _ _ _ hr
  | cassetteFormat _ => injection h with h; subst h; exact ok_state hr rfl
  | cassetteEvacuate _ => injection h with h; subst h; exact ok_state hr rfl
  | cassetteRetire _ => injection h with h; subst h; exact ok_state hr rfl
  | portConfig _ => injection h with h; subst h; exact portConfigCmd_apply_fixed _ _ _ hr
  | portStatusGet _ => injection h with h; subst h; exact ok_state hr rfl
  | streamConfig _ => injection h with h; subst h; exact streamConfigCmd_apply_fixed _ _ _ hr
  | streamStart _ => injection h with h; subst h; exact streamStartCmd_apply_fixed _ _ _ hr
  | streamStop _ => injection h with h; subst h; exact ok_state hr rfl
  | streamLeaseRenew _ => injection h with h; subst h; exact ok_state hr rfl
  | streamStatusGet _ => injection h with h; subst h; exact ok_state hr rfl
  | quench _ => injection h with h; subst h; exact ok_state hr rfl
  | tenantConfig _ => injection h with h; subst h; exact tenantConfigCmd_apply_fixed _ _ _ hr
  | tenantStatusGet _ => injection h with h; subst h; exact ok_state hr rfl
  | channelAssign _ => injection h with h; subst h; exact channelAssignCmd_apply_fixed _ _ _ hr
  | pageGrant _ => injection h with h; subst h; exact pageGrantCmd_apply_fixed _ _ _ hr
  | eventSubscribe _ => injection h with h; subst h; exact ok_state hr rfl
  | eventAck _ => injection h with h; subst h; exact ok_state hr rfl
  | eventQuery _ => injection h with h; subst h; exact ok_state hr rfl
  | sweepStatusGet _ => injection h with h; subst h; exact ok_state hr rfl
  | drillSegmentLoad _ => injection h with h; subst h; exact ok_state hr rfl
  | drillConfig _ => injection h with h; subst h; exact drillConfigCmd_apply_fixed _ _ _ hr
  | drillControl _ => injection h with h; subst h; exact ok_state hr rfl
  | drillStatusGet _ => injection h with h; subst h; exact ok_state hr rfl
  | probeConfig _ => injection h with h; subst h; exact probeConfigCmd_apply_fixed _ _ _ hr
  | probeProfileLoad _ => injection h with h; subst h; exact ok_state hr rfl
  | probeStatusGet _ => injection h with h; subst h; exact ok_state hr rfl
  | loopbackSet _ => injection h with h; subst h; exact loopbackSetCmd_apply_fixed _ _ _ hr
  | selfTestRun _ => injection h with h; subst h; exact ok_state hr rfl
  | testResultGet _ => injection h with h; subst h; exact ok_state hr rfl
  | unitIsolate _ => injection h with h; subst h; exact unitIsolateCmd_apply_fixed _ _ _ hr
  | testSourceConfig _ => injection h with h; subst h; exact testSourceConfigCmd_apply_fixed _ _ _ hr
  | powerStatusGet _ => injection h with h; subst h; exact ok_state hr rfl
  | housekeepingConfig _ => injection h with h; subst h; exact ok_state hr rfl
  | housekeepingGet _ => injection h with h; subst h; exact ok_state hr rfl
  | operatingStateSet _ => injection h with h; subst h; exact operatingStateSetCmd_apply_fixed _ _ _ hr
  | powerFailReportGet _ => injection h with h; subst h; exact ok_state hr rfl
  | firmwareLoad _ => injection h with h; subst h; exact ok_state hr rfl
  | firmwareActivate _ => injection h with h; subst h; exact ok_state hr rfl
  | moduleReset _ => injection h with h; subst h; exact ok_state hr rfl
  | _ => cases h

/-! ## Commit -/

theorem State.applyOne_fixed (x0 : State) (x1 : Instr) (x2 : List Instr) : ∀ u, @State.applyOne x0 x1 x2 = .ok u → State.fixed u = State.fixed x0 := by
  unfold State.applyOne
  intro u h
  split at h
  · exact chapterCmd_apply_fixed ‹_› _ _ _ h
  · exact ok_state h rfl

theorem State.applyAll_fixed (x0 : State) (x1 : List Instr) : ∀ u, @State.applyAll x0 x1 = .ok u → State.fixed u = State.fixed x0 := by
  induction x1 generalizing x0 with
  | nil => intro u h; injection h with h; rw [← h]
  | cons i l ih =>
    intro u h
    unfold State.applyAll at h
    obtain ⟨s, h1, h2⟩ := Except.bind_ok h
    exact (ih _ _ h2).trans (State.applyOne_fixed _ _ _ _ h1)

theorem State.closeStage_fixed (x0 : State) (x1 : State) (x2 : ℕ) (x3 : List Instr) : ∀ u, @State.closeStage x0 x1 x2 x3 = .ok u → State.fixed u = State.fixed x1 := by
  intro u h
  have H : ∀ t, (x2 :: (receiversOf x3).filter (· != x2)).foldl (fun acc t => Except.bind acc fun x => x0.fitRings x t) (.ok x1) = .ok t →
      t.fixed = x1.fixed := by
    intro t ht
    obtain ⟨s, e, hu⟩ := foldl_ok_fixed (f := fun s t => State.fitRings x0 s t) (fun s i t ht => State.fitRings_fixed _ _ _ _ ht) _ _ _ ht
    exact hu.trans (ok_state e rfl)
  unfold State.closeStage at h
  dsimp only at h
  have h := ite_bind h
  have h := Except.bind_unit_ok h
  have h := ite_bind h
  obtain ⟨t, h0, h⟩ := Except.bind_ok h
  have ht := H t h0
  have h := ite_bind h
  have h := Except.bind_unit_ok h
  split at h
  · have h := Except.bind_unit_ok h
    have h := ite_bind h
    exact ok_state h ht
  · have h := Except.bind_unit_ok h
    exact ok_state h ht

theorem State.applyStage_fixed (x0 : State) (x1 : ℕ) (x2 : List Instr) : ∀ u, @State.applyStage x0 x1 x2 = .ok u → State.fixed u = State.fixed x0 := by
  unfold State.applyStage
  intro u h
  obtain ⟨a, h1, h⟩ := Except.bind_ok h
  obtain ⟨b, h2, h⟩ := Except.bind_ok h
  exact (State.closeStage_fixed _ _ _ _ _ h).trans ((State.applyAll_fixed _ _ _ h2).trans (State.applyAll_fixed _ _ _ h1))

@[simp] theorem State.applyMgmts_fixed (x0 : State) (x1 : List MgmtChange) : State.fixed (@State.applyMgmts x0 x1) = State.fixed x0 := by
  unfold State.applyMgmts
  (repeat' first | with_reducible rfl | intro _ | with_reducible refine State.each_fixed_trans ?_ ?_ | split | (simp; done))

theorem State.applySteward_fixed (x0 : State) (x1 : List MgmtChange) (x2 : List Instr) : ∀ u, @State.applySteward x0 x1 x2 = .ok u → State.fixed u = State.fixed x0 := by
  unfold State.applySteward
  intro u h
  obtain ⟨a, h1, h⟩ := Except.bind_ok h
  obtain ⟨b, h2, h⟩ := Except.bind_ok h
  obtain ⟨c, h3, h⟩ := Except.bind_ok h
  obtain ⟨d, h4, h⟩ := Except.bind_ok h
  obtain ⟨e, h5, h⟩ := Except.bind_ok h
  exact (State.closeStage_fixed _ _ _ _ _ h).trans ((State.applyAll_fixed _ _ _ h5).trans ((State.applyAll_fixed _ _ _ h4).trans
    ((State.applyAll_fixed _ _ _ h3).trans
    ((State.applyMgmts_fixed _ _).trans ((State.grantPages_fixed _ _ _ h2).trans (State.applyAll_fixed _ _ _ h1))))))

@[simp] theorem State.evalStep_fixed (x0 : State) (x1 : CommitStep) : State.fixed (@State.evalStep x0 x1).1 = State.fixed x0 := by
  unfold State.evalStep
  extract_lets s0 mine first named first2
  clear_value named
  have h0 : s0.fixed = x0.fixed := State.modTime_fixed _ _
  clear_value s0
  have h1 : first.1.fixed = x0.fixed := by
    unfold first
    clear_value mine
    split
    · split
      · exact (State.applySteward_fixed _ _ _ _ ‹_›).trans h0
      · exact (State.applyMgmts_fixed _ _).trans h0
    · exact (State.applyMgmts_fixed _ _).trans h0
  have h2 : first2.1.fixed = x0.fixed := by
    unfold first2
    split
    · exact (State.enterService_fixed _ _).trans h1
    · exact h1
  clear_value first2
  refine (foldl_pair_fixed _ (fun p g => ?_) _ _).trans h2
  split
  · rfl
  · split
    · exact State.applyStage_fixed _ _ _ _ ‹_›
    · rfl

@[simp] theorem State.refuseStage_fixed (x0 : State) (x1 : Stage) (x2 : Status) : State.fixed (@State.refuseStage x0 x1 x2) = State.fixed x0 := by
  simp [State.refuseStage]

@[simp] theorem State.refuseDomain_fixed (x0 : State) (x1 : Stage) (x2 : U48) : State.fixed (@State.refuseDomain x0 x1 x2) = State.fixed x0 := by
  unfold State.refuseDomain
  (repeat' first
    | with_reducible rfl
    | (extract_lets +onlyGivenNames s1; have hs : State.fixed s1 = State.fixed x0 := by (simp [s1, *]; done)
       clear_value s1)
    | (extract_lets +onlyGivenNames s1; clear_value s1)
    | intro _ | with_reducible refine State.each_fixed_trans ?_ ?_ | split | (simp [*]; done))

@[simp] theorem effectPreparationWindowClose_fixed (x0 : State) : State.fixed (@effectPreparationWindowClose x0) = State.fixed x0 := by
  unfold effectPreparationWindowClose
  split
  · rfl
  · extract_lets second domain stages s1
    have h1 : s1.fixed = x0.fixed := State.each_fixed_trans (fun s g => State.refuseDomain_fixed _ _ _) rfl
    clear_value s1
    split
    rename_i due s2 h
    have h2 : s2.fixed = x0.fixed := (pair_fixed h rfl).trans ((State.dueHandovers_fixed _ _).trans h1)
    extract_lets mgmt s3 x refused s4 left
    have h3 : s3.fixed = x0.fixed := (State.modCal_fixed _ _).trans h2
    clear_value s3
    have h4 : s4.fixed = x0.fixed :=
      (State.modPower_fixed _ _).trans (State.each_fixed_trans (fun s g => State.refuseStage_fixed _ _ _) h3)
    clear_value s4
    split
    · exact h4
    · exact (State.modJr_fixed _ _).trans h4

@[simp] theorem effectSwitchArm_fixed (x0 : Byte) (x1 : U16) (x2 : State) : State.fixed (@effectSwitchArm x0 x1 x2) = State.fixed x2 := by
  unfold effectSwitchArm
  (repeat' first
    | with_reducible rfl
    | (extract_lets +onlyGivenNames s1
       have hs : State.fixed s1 = State.fixed x2 := by
         first | (simp [s1, *]; done) | (unfold s1; (repeat' first | with_reducible rfl | intro _ | with_reducible refine State.each_fixed_trans ?_ ?_ | split | (simp [*]; done)); done)
       clear_value s1)
    | (extract_lets +onlyGivenNames s1; clear_value s1)
    | intro _ | with_reducible refine State.each_fixed_trans ?_ ?_ | split | (simp [*]; done) | refine (pair_fixed ‹_› rfl).trans ?_
    | refine (State.newEntry_fixed _ _ _ _ ‹_›).trans ?_)

@[simp] theorem State.newGeneration_fixed (x0 : State) : State.fixed (@State.newGeneration x0) = State.fixed x0 := by
  simp [State.newGeneration]

@[simp] theorem State.labelEnds_fixed (x0 : State) : State.fixed (@State.labelEnds x0) = State.fixed x0 := by
  unfold State.labelEnds
  (repeat' first | with_reducible rfl | intro _ | with_reducible refine State.each_fixed_trans ?_ ?_ | split | (simp; done))

@[simp] theorem State.commitSwitch_fixed (x0 : State) (x1 : CommitStep) : State.fixed (@State.commitSwitch x0 x1) = State.fixed x0 := by
  unfold State.commitSwitch
  extract_lets prior out before
  have h1 : before.fixed = x0.fixed := (State.modTime_fixed _ _).trans (State.modJr_fixed _ _)
  clear_value before
  have he := State.evalStep_fixed before x1
  generalize before.evalStep x1 = e at he
  obtain ⟨after, refused⟩ := e
  have h2 : after.fixed = x0.fixed := he.trans h1
  clear he
  dsimp only
  generalize ha : State.modTime after _ = a
  have h3 : a.fixed = x0.fixed := ha ▸ (State.modTime_fixed _ _).trans h2
  clear ha h2 h1
  have h4 := (State.each_fixed (fun s r => s.refuseStage r.1 r.2) (fun s g => State.refuseStage_fixed _ _ _) refused a).trans h3
  generalize State.each a refused _ = b at h4
  split
  · exact (State.modJr_fixed _ _).trans (State.each_fixed _ (fun s g => State.refuseStage_fixed _ _ _) _ _)
  · have h5 : b.labelEnds.newGeneration.resumeDrains.fixed = x0.fixed :=
      (State.resumeDrains_fixed _).trans ((State.newGeneration_fixed _).trans ((State.labelEnds_fixed _).trans h4))
    generalize b.labelEnds.newGeneration.resumeDrains = c at h5
    refine (State.modJr_fixed _ _).trans ((State.each_fixed _ (fun s g => State.raise_fixed _ _ _ _) _ _).trans
      ((State.each_fixed _ (fun s g => State.raise_fixed _ _ _ _) _ _).trans ((State.testCheck_fixed _).trans ((State.dropFastPaths_fixed _).trans ?_))))
    split
    · exact h5
    · exact (State.each_fixed _ (fun s g => State.beginRecords_fixed _ _ _) _ _).trans h5

@[simp] theorem State.failLeft_fixed (x0 : State) (x1 : U48) : State.fixed (@State.failLeft x0 x1) = State.fixed x0 := by
  simp [State.failLeft]

@[simp] theorem State.recordWritten_fixed (x0 : State) (x1 : CommitStep) : State.fixed (@State.recordWritten x0 x1) = State.fixed x0 := by
  unfold State.recordWritten
  (repeat' first
    | with_reducible rfl
    | (extract_lets +onlyGivenNames s1
       have hs : State.fixed s1 = State.fixed x0 := by
         first | (simp [s1, *]; done) | (unfold s1; (repeat' first | with_reducible rfl | intro _ | with_reducible refine State.each_fixed_trans ?_ ?_ | split | (simp [*]; done)); done)
       clear_value s1)
    | (extract_lets +onlyGivenNames s1; clear_value s1)
    | intro _ | with_reducible refine State.each_fixed_trans ?_ ?_ | split | (simp [*]; done) | refine (pair_fixed ‹_› rfl).trans ?_
    | refine (State.newEntry_fixed _ _ _ _ ‹_›).trans ?_)

@[simp] theorem State.voteDomain_fixed (x0 : State) (x1 : U48) (x2 : DomainCommit) : State.fixed (@State.voteDomain x0 x1 x2) = State.fixed x0 := by
  unfold State.voteDomain
  split
  · rfl
  · extract_lets steward trial mark
    split
    extract_lets ok vote s1
    have h1 : s1.fixed = x0.fixed := State.modRachis_fixed _ _
    clear_value s1
    split
    · exact h1
    · exact (State.sendUpstream_fixed _ _).trans h1

@[simp] theorem effectDomainWindowClose_fixed (x0 : State) : State.fixed (@effectDomainWindowClose x0) = State.fixed x0 := by
  unfold effectDomainWindowClose
  (repeat' first | with_reducible rfl | intro _ | with_reducible refine State.each_fixed_trans ?_ ?_ | split | (simp; done))

@[simp] theorem effectDomainGoDecision_fixed (x0 : State) : State.fixed (@effectDomainGoDecision x0) = State.fixed x0 := by
  unfold effectDomainGoDecision
  split
  · rfl
  · refine State.each_fixed_trans (fun s d => ?_) rfl
    exact (State.sendAll_fixed _ _ _).trans (State.modRachis_fixed _ _)

/-! ## System -/

theorem State.newItem_fixed (x0 : State) (x1 : Frame) (x2 : ℕ) (x3 : ℕ) (x4 : ℕ → Pending) : ∀ a u, @State.newItem x0 x1 x2 x3 x4 = .ok (a, u) → State.fixed u = State.fixed x0 := by
  unfold State.newItem
  intros
  rename_i h
  try simp only [bind, pure, Except.pure, Option.map_eq_some_iff] at h
  repeat' first
    | exact answer_fixed _ _ _ _ h
    | (replace h := Except.bind_ok h; rcases h with ⟨_, h0, h⟩)
    | (rcases h with ⟨_, h0, h⟩)
    | (extract_lets +onlyGivenNames s1 at h
       have hs : State.fixed s1 = State.fixed x0 := by
         first
           | (simp [s1, *]; done)
           | (unfold s1; (repeat' first | with_reducible rfl | intro _ | with_reducible refine State.each_fixed_trans ?_ ?_ | split | (simp [*]; done)); done)
       clear_value s1)
    | (extract_lets +onlyGivenNames s1 at h; clear_value s1)
    | (split at h; skip)
    | (injection h; done)
    | (injection h with h h1; subst h1)
    | (injection h with h; subst h)
    | (injection h with h)
  all_goals repeat' first
    | with_reducible rfl
    | (simp [*]; done)
    | assumption
    | refine (pair_fixed ‹_› rfl).trans ?_
    | refine (triple_fixed ‹_› rfl).trans ?_
    | refine (State.newEntry_fixed _ _ _ _ ‹_›).trans ?_
    | refine (State.beginRecord_fixed _ _ _ _ _ ‹_›).trans ?_
    | refine (State.takeRecordId_fixed _ _ _ ‹_›).trans ?_
    | refine (State.takePages_fixed _ _ _ _ _ _ ‹_›).trans ?_
    | refine (State.sizeRing_fixed _ _ _ _ _ _ ‹_›).trans ?_
    | refine (State.startWork_fixed _ _ _ _ _ _ ‹_›).trans ?_
    | refine (State.doneAtOnce_fixed _ _ _ _ _ _ ‹_›).trans ?_
    | refine (State.newItem_fixed _ _ _ _ _ _ _ ‹_›).trans ?_
    | intro _
    | with_reducible refine State.each_fixed_trans ?_ ?_
    | (split; skip)
    | (simp; skip)

theorem runCommitAt_fixed (x0 : Frame) (x1 : State) : ∀ a u, @runCommitAt x0 x1 = .ok (a, u) → State.fixed u = State.fixed x1 := by
  unfold runCommitAt
  intros
  rename_i h
  try simp only [bind, pure, Except.pure, Option.map_eq_some_iff] at h
  repeat' first
    | exact answer_fixed _ _ _ _ h
    | (replace h := Except.bind_ok h; rcases h with ⟨_, h0, h⟩)
    | (rcases h with ⟨_, h0, h⟩)
    | (extract_lets +onlyGivenNames s1 at h
       have hs : State.fixed s1 = State.fixed x1 := by
         first
           | (simp [s1, *]; done)
           | (unfold s1; (repeat' first | with_reducible rfl | intro _ | with_reducible refine State.each_fixed_trans ?_ ?_ | split | (simp [*]; done)); done)
       clear_value s1)
    | (extract_lets +onlyGivenNames s1 at h; clear_value s1)
    | (split at h; skip)
    | (injection h; done)
    | (injection h with h h1; subst h1)
    | (injection h with h; subst h)
    | (injection h with h)
  all_goals repeat' first
    | with_reducible rfl
    | (simp [*]; done)
    | assumption
    | refine (pair_fixed ‹_› rfl).trans ?_
    | refine (triple_fixed ‹_› rfl).trans ?_
    | refine (State.newEntry_fixed _ _ _ _ ‹_›).trans ?_
    | refine (State.beginRecord_fixed _ _ _ _ _ ‹_›).trans ?_
    | refine (State.takeRecordId_fixed _ _ _ ‹_›).trans ?_
    | refine (State.takePages_fixed _ _ _ _ _ _ ‹_›).trans ?_
    | refine (State.sizeRing_fixed _ _ _ _ _ _ ‹_›).trans ?_
    | refine (State.startWork_fixed _ _ _ _ _ _ ‹_›).trans ?_
    | refine (State.doneAtOnce_fixed _ _ _ _ _ _ ‹_›).trans ?_
    | refine (State.newItem_fixed _ _ _ _ _ _ _ ‹_›).trans ?_
    | intro _
    | with_reducible refine State.each_fixed_trans ?_ ?_
    | (split; skip)
    | (simp; skip)

theorem runCommitCancel_fixed (x0 : Frame) (x1 : State) : ∀ a u, @runCommitCancel x0 x1 = .ok (a, u) → State.fixed u = State.fixed x1 := by
  unfold runCommitCancel
  intros
  rename_i h
  try simp only [bind, pure, Except.pure, Option.map_eq_some_iff] at h
  repeat' first
    | exact answer_fixed _ _ _ _ h
    | (replace h := Except.bind_ok h; rcases h with ⟨_, h0, h⟩)
    | (rcases h with ⟨_, h0, h⟩)
    | (extract_lets +onlyGivenNames s1 at h
       have hs : State.fixed s1 = State.fixed x1 := by
         first
           | (simp [s1, *]; done)
           | (unfold s1; (repeat' first | with_reducible rfl | intro _ | with_reducible refine State.each_fixed_trans ?_ ?_ | split | (simp [*]; done)); done)
       clear_value s1)
    | (extract_lets +onlyGivenNames s1 at h; clear_value s1)
    | (split at h; skip)
    | (injection h; done)
    | (injection h with h h1; subst h1)
    | (injection h with h; subst h)
    | (injection h with h)
  all_goals repeat' first
    | with_reducible rfl
    | (simp [*]; done)
    | assumption
    | refine (pair_fixed ‹_› rfl).trans ?_
    | refine (triple_fixed ‹_› rfl).trans ?_
    | refine (State.newEntry_fixed _ _ _ _ ‹_›).trans ?_
    | refine (State.beginRecord_fixed _ _ _ _ _ ‹_›).trans ?_
    | refine (State.takeRecordId_fixed _ _ _ ‹_›).trans ?_
    | refine (State.takePages_fixed _ _ _ _ _ _ ‹_›).trans ?_
    | refine (State.sizeRing_fixed _ _ _ _ _ _ ‹_›).trans ?_
    | refine (State.startWork_fixed _ _ _ _ _ _ ‹_›).trans ?_
    | refine (State.doneAtOnce_fixed _ _ _ _ _ _ ‹_›).trans ?_
    | refine (State.newItem_fixed _ _ _ _ _ _ _ ‹_›).trans ?_
    | intro _
    | with_reducible refine State.each_fixed_trans ?_ ?_
    | (split; skip)
    | (simp; skip)

theorem journalAnswer_fixed (x0 : ℕ) (x1 : ℕ) (x2 : JournalEntry) (x3 : State) : ∀ a u, @journalAnswer x0 x1 x2 x3 = .ok (a, u) → State.fixed u = State.fixed x3 := by
  unfold journalAnswer; intro a u h; exact answer_fixed _ _ _ _ h

theorem State.queryBySeq_fixed (x0 : State) (x1 : ℕ) (x2 : U32) : ∀ a u, @State.queryBySeq x0 x1 x2 = .ok (a, u) → State.fixed u = State.fixed x0 := by
  unfold State.queryBySeq
  intros
  rename_i h
  try simp only [bind, pure, Except.pure, Option.map_eq_some_iff] at h
  repeat' first
    | exact answer_fixed _ _ _ _ h
    | (replace h := Except.bind_ok h; rcases h with ⟨_, h0, h⟩)
    | (rcases h with ⟨_, h0, h⟩)
    | (extract_lets +onlyGivenNames s1 at h
       have hs : State.fixed s1 = State.fixed x0 := by
         first
           | (simp [s1, *]; done)
           | (unfold s1; (repeat' first | with_reducible rfl | intro _ | with_reducible refine State.each_fixed_trans ?_ ?_ | split | (simp [*]; done)); done)
       clear_value s1)
    | (extract_lets +onlyGivenNames s1 at h; clear_value s1)
    | (split at h; skip)
    | (injection h; done)
    | (injection h with h h1; subst h1)
    | (injection h with h; subst h)
    | (injection h with h)
  all_goals repeat' first
    | with_reducible rfl
    | (simp [*]; done)
    | assumption
    | refine (pair_fixed ‹_› rfl).trans ?_
    | refine (triple_fixed ‹_› rfl).trans ?_
    | refine (State.newEntry_fixed _ _ _ _ ‹_›).trans ?_
    | refine (State.beginRecord_fixed _ _ _ _ _ ‹_›).trans ?_
    | refine (State.takeRecordId_fixed _ _ _ ‹_›).trans ?_
    | refine (State.takePages_fixed _ _ _ _ _ _ ‹_›).trans ?_
    | refine (State.sizeRing_fixed _ _ _ _ _ _ ‹_›).trans ?_
    | refine (State.startWork_fixed _ _ _ _ _ _ ‹_›).trans ?_
    | refine (State.doneAtOnce_fixed _ _ _ _ _ _ ‹_›).trans ?_
    | refine (State.newItem_fixed _ _ _ _ _ _ _ ‹_›).trans ?_
    | intro _
    | with_reducible refine State.each_fixed_trans ?_ ?_
    | (split; skip)
    | (simp; skip)

@[simp] theorem State.replayOne_fixed (x0 : State) (x1 : Frame) (x2 : U32) : State.fixed (@State.replayOne x0 x1 x2).2 = State.fixed x0 := by
  unfold State.replayOne; (repeat' split) <;> simp

@[simp] theorem State.replayRange_fixed (x0 : State) (x1 : Frame) (x2 : U32) (x3 : ℕ) : State.fixed (@State.replayRange x0 x1 x2 x3).2.2 = State.fixed x0 := by
  induction x3 generalizing x0 x2 with
  | zero => rfl
  | succ n ih =>
    unfold State.replayRange
    extract_lets r rest
    have h : rest.2.2.fixed = x0.fixed := (ih _ _).trans (State.replayOne_fixed _ _ _)
    clear_value rest
    split <;> exact h

theorem runResponseReplay_fixed (x0 : Frame) (x1 : State) : ∀ a u, @runResponseReplay x0 x1 = .ok (a, u) → State.fixed u = State.fixed x1 := by
  unfold runResponseReplay; intro a u h; refine ok_pair h ?_; simp

@[simp] theorem State.refuseHeld_fixed (x0 : State) (x1 : ℕ) : State.fixed (@State.refuseHeld x0 x1) = State.fixed x0 := by
  unfold State.refuseHeld
  (repeat' first | with_reducible rfl | intro _ | with_reducible refine State.each_fixed_trans ?_ ?_ | split | (simp; done))

theorem State.hello_fixed (x0 : State) (x1 : Frame) : ∀ a u, @State.hello x0 x1 = .ok (a, u) → State.fixed u = State.fixed x0 := by
  unfold State.hello
  intros
  rename_i h
  try simp only [bind, pure, Except.pure, Option.map_eq_some_iff] at h
  repeat' first
    | exact answer_fixed _ _ _ _ h
    | (replace h := Except.bind_ok h; rcases h with ⟨_, h0, h⟩)
    | (rcases h with ⟨_, h0, h⟩)
    | (extract_lets +onlyGivenNames s1 at h
       have hs : State.fixed s1 = State.fixed x0 := by
         first
           | (simp [s1, *]; done)
           | (unfold s1; (repeat' first | with_reducible rfl | intro _ | with_reducible refine State.each_fixed_trans ?_ ?_ | split | (simp [*]; done)); done)
       clear_value s1)
    | (extract_lets +onlyGivenNames s1 at h; clear_value s1)
    | (split at h; skip)
    | (injection h; done)
    | (injection h with h h1; subst h1)
    | (injection h with h; subst h)
    | (injection h with h)
  all_goals repeat' first
    | with_reducible rfl
    | (simp [*]; done)
    | assumption
    | refine (pair_fixed ‹_› rfl).trans ?_
    | refine (triple_fixed ‹_› rfl).trans ?_
    | refine (State.newEntry_fixed _ _ _ _ ‹_›).trans ?_
    | refine (State.beginRecord_fixed _ _ _ _ _ ‹_›).trans ?_
    | refine (State.takeRecordId_fixed _ _ _ ‹_›).trans ?_
    | refine (State.takePages_fixed _ _ _ _ _ _ ‹_›).trans ?_
    | refine (State.sizeRing_fixed _ _ _ _ _ _ ‹_›).trans ?_
    | refine (State.startWork_fixed _ _ _ _ _ _ ‹_›).trans ?_
    | refine (State.doneAtOnce_fixed _ _ _ _ _ _ ‹_›).trans ?_
    | refine (State.newItem_fixed _ _ _ _ _ _ _ ‹_›).trans ?_
    | intro _
    | with_reducible refine State.each_fixed_trans ?_ ?_
    | (split; skip)
    | (simp; skip)

theorem commitAtCmd_run_fixed (f : Frame) (s : State) : ∀ a u, commitAtCmd.run f s = .ok (a, u) → u.fixed = s.fixed := by
  intro a u h
  exact runCommitAt_fixed _ _ _ _ h

theorem commitCancelCmd_run_fixed (f : Frame) (s : State) : ∀ a u, commitCancelCmd.run f s = .ok (a, u) → u.fixed = s.fixed := by
  intro a u h
  exact runCommitCancel_fixed _ _ _ _ h

theorem stageDiscardCmd_run_fixed (f : Frame) (s : State) : ∀ a u, stageDiscardCmd.run f s = .ok (a, u) → u.fixed = s.fixed := by
  unfold stageDiscardCmd; dsimp only; intro a u h; refine ok_pair h ?_; simp

theorem stageGetCmd_run_fixed (f : Frame) (s : State) : ∀ a u, stageGetCmd.run f s = .ok (a, u) → u.fixed = s.fixed := by
  unfold stageGetCmd; dsimp only; intro a u h; exact answer_fixed _ _ _ _ h

theorem journalQueryCmd_run_fixed (f : Frame) (s : State) : ∀ a u, journalQueryCmd.run f s = .ok (a, u) → u.fixed = s.fixed := by
  unfold journalQueryCmd
  dsimp only
  intro a u h
  split at h
  · exact State.queryBySeq_fixed _ _ _ _ _ h
  · split at h
    · exact journalAnswer_fixed _ _ _ _ _ _ h
    · injection h

theorem journalListCmd_run_fixed (f : Frame) (s : State) : ∀ a u, journalListCmd.run f s = .ok (a, u) → u.fixed = s.fixed := by
  unfold journalListCmd; dsimp only; intro a u h; exact answer_fixed _ _ _ _ h

theorem responseReplayCmd_run_fixed (f : Frame) (s : State) : ∀ a u, responseReplayCmd.run f s = .ok (a, u) → u.fixed = s.fixed := by
  unfold responseReplayCmd; dsimp only; intro a u h; refine ok_pair h ?_; simp

theorem identityGetCmd_run_fixed (f : Frame) (s : State) : ∀ a u, identityGetCmd.run f s = .ok (a, u) → u.fixed = s.fixed := by
  unfold identityGetCmd; dsimp only; intro a u h; exact answer_fixed _ _ _ _ h

theorem helloCmd_run_fixed (f : Frame) (s : State) : ∀ a u, helloCmd.run f s = .ok (a, u) → u.fixed = s.fixed := by
  unfold helloCmd
  dsimp only
  intros
  rename_i h
  try simp only [bind, pure, Except.pure, Option.map_eq_some_iff] at h
  repeat' first
    | exact answer_fixed _ _ _ _ h
    | (replace h := Except.bind_ok h; rcases h with ⟨_, h0, h⟩)
    | (rcases h with ⟨_, h0, h⟩)
    | (extract_lets +onlyGivenNames s1 at h
       have hs : State.fixed s1 = State.fixed s := by
         first
           | (simp [s1, *]; done)
           | (unfold s1; (repeat' first | with_reducible rfl | intro _ | with_reducible refine State.each_fixed_trans ?_ ?_ | split | (simp [*]; done)); done)
       clear_value s1)
    | (extract_lets +onlyGivenNames s1 at h; clear_value s1)
    | (split at h; skip)
    | (injection h; done)
    | (injection h with h h1; subst h1)
    | (injection h with h; subst h)
    | (injection h with h)
  all_goals repeat' first
    | with_reducible rfl
    | (simp [*]; done)
    | assumption
    | refine (pair_fixed ‹_› rfl).trans ?_
    | refine (triple_fixed ‹_› rfl).trans ?_
    | refine (State.newEntry_fixed _ _ _ _ ‹_›).trans ?_
    | refine (State.beginRecord_fixed _ _ _ _ _ ‹_›).trans ?_
    | refine (State.takeRecordId_fixed _ _ _ ‹_›).trans ?_
    | refine (State.takePages_fixed _ _ _ _ _ _ ‹_›).trans ?_
    | refine (State.sizeRing_fixed _ _ _ _ _ _ ‹_›).trans ?_
    | refine (State.startWork_fixed _ _ _ _ _ _ ‹_›).trans ?_
    | refine (State.doneAtOnce_fixed _ _ _ _ _ _ ‹_›).trans ?_
    | refine (State.newItem_fixed _ _ _ _ _ _ _ ‹_›).trans ?_
    | intro _
    | with_reducible refine State.each_fixed_trans ?_ ?_
    | (split; skip)
    | (simp; skip)

theorem cmdOf_run_fixed {i : Instr} {k : Cmd} (h : cmdOf i = some k) (f : Frame) (s : State) (a : Reply) (u : State)
    (hr : k.run f s = .ok (a, u)) : u.fixed = s.fixed := by
  cases i with
  | hello _ => injection h with h; subst h; exact helloCmd_run_fixed _ _ _ _ hr
  | commitAt _ => injection h with h; subst h; exact commitAtCmd_run_fixed _ _ _ _ hr
  | commitCancel _ => injection h with h; subst h; exact commitCancelCmd_run_fixed _ _ _ _ hr
  | stageDiscard _ => injection h with h; subst h; exact stageDiscardCmd_run_fixed _ _ _ _ hr
  | stageGet _ => injection h with h; subst h; exact stageGetCmd_run_fixed _ _ _ _ hr
  | journalQuery _ => injection h with h; subst h; exact journalQueryCmd_run_fixed _ _ _ _ hr
  | journalList _ => injection h with h; subst h; exact journalListCmd_run_fixed _ _ _ _ hr
  | responseReplay _ => injection h with h; subst h; exact responseReplayCmd_run_fixed _ _ _ _ hr
  | identityGet _ => injection h with h; subst h; exact identityGetCmd_run_fixed _ _ _ _ hr
  | _ => unfold cmdOf at h; exact chapterCmd_run_fixed h _ _ _ _ hr

/-! ## Accept -/

theorem State.stageCmd_fixed (s : State) {c : Instr} {k : Cmd} (hk : cmdOf c = some k) (f : Frame) : ∀ a u, s.stageCmd k c f = .ok (a, u) → u.fixed = s.fixed := by
  unfold State.stageCmd
  intro a u h
  obtain ⟨⟨r, s1⟩, h0, h⟩ := Except.bind_ok h
  have h1 := cmdOf_run_fixed hk _ _ _ _ h0
  dsimp only at h
  have h := Except.bind_unit_ok h
  exact ok_pair h ((State.modTenant_fixed _ _ _).trans ((State.endRuns_fixed _ _ _ _ _).trans h1))

theorem State.perform_fixed (s : State) {c : Instr} {k : Cmd} (hk : cmdOf c = some k) (op : Nat) (f : Frame) : ∀ a u, s.perform k c op f = .ok (a, u) → u.fixed = s.fixed := by
  unfold State.perform
  intro a u h
  split at h
  · exact State.stageCmd_fixed _ hk _ _ _ h
  · split at h
    · exact cmdOf_run_fixed hk _ _ _ _ h
    · obtain ⟨_, _, h⟩ := Except.bind_ok h
      exact State.newItem_fixed _ _ _ _ _ _ _ h
  · exact cmdOf_run_fixed hk _ _ _ _ (Except.bind_unit_ok h)
  · exact cmdOf_run_fixed hk _ _ _ _ h

theorem State.judge_fixed (x0 : State) (x1 : Instr) (x2 : ℕ) (x3 : Frame) : ∀ a u, @State.judge x0 x1 x2 x3 = .ok (a, u) → State.fixed u = State.fixed x0 := by
  unfold State.judge
  intro a u h
  split at h
  · injection h
  · have h := Except.bind_unit_ok h
    have h := Except.bind_unit_ok h
    have h := Except.bind_unit_ok h
    have h := Except.bind_unit_ok h
    have h := Except.bind_unit_ok h
    exact State.perform_fixed _ ‹_› _ _ _ _ h

@[simp] theorem State.execNext_fixed (x0 : State) (x1 : Instr) (x2 : ℕ) (x3 : Frame) : State.fixed (@State.execNext x0 x1 x2 x3) = State.fixed x0 := by
  unfold State.execNext
  extract_lets s1 crc s2
  have h1 : s1.fixed = x0.fixed := State.modTenant_fixed _ _ _
  clear_value s1
  have h2 : s2.fixed = x0.fixed := by
    unfold s2
    split
    · exact (State.respond_fixed _ _ _ _ _ _).trans h1
    · split
      · exact (State.respond_fixed _ _ _ _ _ _).trans h1
      · exact (State.respond_fixed _ _ _ _ _ _).trans ((State.judge_fixed _ _ _ _ _ _ ‹_›).trans h1)
  exact (State.pendingRestart_fixed _).trans h2

@[simp] theorem State.takeTurn_fixed (x0 : State) (x1 : Instr) (x2 : ℕ) (x3 : Frame) : State.fixed (@State.takeTurn x0 x1 x2 x3).2 = State.fixed x0 := by
  unfold State.takeTurn; (repeat' split) <;> simp

@[simp] theorem State.runHeld_fixed (x0 : State) (x1 : ℕ) (x2 : ℕ) : State.fixed (@State.runHeld x0 x1 x2) = State.fixed x0 := by
  induction x2 generalizing x0 with
  | zero => rfl
  | succ n ih =>
    unfold State.runHeld
    extract_lets t
    clear_value t
    split
    · rfl
    · extract_lets s1
      have h1 : s1.fixed = x0.fixed := State.modTenant_fixed _ _ _
      clear_value s1
      split
      · split
        rename_i done s2 h
        have h2 : s2.fixed = x0.fixed := (pair_fixed h rfl).trans ((State.takeTurn_fixed _ _ _ _).trans h1)
        split
        · exact (ih _).trans h2
        · exact h2
      · exact h1

@[simp] theorem State.duplicate_fixed (x0 : State) (x1 : ℕ) (x2 : Frame) : State.fixed (@State.duplicate x0 x1 x2) = State.fixed x0 := by
  unfold State.duplicate
  (repeat' first | with_reducible rfl | intro _ | with_reducible refine State.each_fixed_trans ?_ ?_ | split | (simp; done))

@[simp] theorem State.sequence_fixed (x0 : State) (x1 : Instr) (x2 : ℕ) (x3 : Frame) : State.fixed (@State.sequence x0 x1 x2 x3) = State.fixed x0 := by
  unfold State.sequence
  repeat' first
    | with_reducible rfl
    | (extract_lets +onlyGivenNames s1
       have hs : State.fixed s1 = State.fixed x0 := by
         first
           | (simp [s1, *]; done)
           | (unfold s1; (repeat' first | with_reducible rfl | intro _ | with_reducible refine State.each_fixed_trans ?_ ?_ | split | (simp [*]; done)); done)
       clear_value s1)
    | (extract_lets +onlyGivenNames s1; clear_value s1)
    | intro _
    | with_reducible refine State.each_fixed_trans ?_ ?_
    | (split; skip)
    | (simp [*]; done)
    | assumption
    | refine (pair_fixed ‹_› rfl).trans ?_
    | refine (triple_fixed ‹_› rfl).trans ?_
    | refine (State.newEntry_fixed _ _ _ _ ‹_›).trans ?_
    | refine (State.beginRecord_fixed _ _ _ _ _ ‹_›).trans ?_
    | refine (State.finishEnded_fixed _ _ _ _ ‹_›).trans ?_
    | refine (State.takeRecordId_fixed _ _ _ ‹_›).trans ?_
    | refine (State.takePages_fixed _ _ _ _ _ _ ‹_›).trans ?_
    | refine (State.sizeRing_fixed _ _ _ _ _ _ ‹_›).trans ?_
    | refine (State.startWork_fixed _ _ _ _ _ _ ‹_›).trans ?_
    | refine (State.applySteward_fixed _ _ _ _ ‹_›).trans ?_
    | refine (State.applyStage_fixed _ _ _ _ ‹_›).trans ?_
    | (simp; skip)

@[simp] theorem State.answerHello_fixed (x0 : State) (x1 : Frame) (x2 : Reply) : State.fixed (@State.answerHello x0 x1 x2) = State.fixed x0 := by
  simp [State.answerHello]

@[simp] theorem State.acceptHello_fixed (x0 : State) (x1 : Frame) : State.fixed (@State.acceptHello x0 x1) = State.fixed x0 := by
  unfold State.acceptHello
  split
  · exact State.answerHello_fixed _ _ _
  · split
    · exact State.answerHello_fixed _ _ _
    · exact (State.answerHello_fixed _ _ _).trans (State.hello_fixed _ _ _ _ ‹_›)

@[simp] theorem State.accept_fixed (x0 : State) (x1 : Instr) (x2 : ℕ) (x3 : Frame) : State.fixed (@State.accept x0 x1 x2 x3) = State.fixed x0 := by
  unfold State.accept; (repeat' split) <;> simp

@[simp] theorem State.countFrame_fixed (x0 : State) (x1 : Source) : State.fixed (@State.countFrame x0 x1) = State.fixed x0 := by
  unfold State.countFrame; (repeat' split) <;> simp

@[simp] theorem effectHeldCommandTimeout_fixed (x0 : Fin 256) (x1 : State) : State.fixed (@effectHeldCommandTimeout x0 x1) = State.fixed x1 := by
  unfold effectHeldCommandTimeout
  (repeat' first
    | with_reducible rfl
    | (extract_lets +onlyGivenNames s1; have hs : State.fixed s1 = State.fixed x1 := by (simp [s1, *]; done)
       clear_value s1)
    | (extract_lets +onlyGivenNames s1; clear_value s1)
    | intro _ | with_reducible refine State.each_fixed_trans ?_ ?_ | split | (simp [*]; done))

@[simp] theorem State.serveWaiting_fixed (x0 : State) : State.fixed (@State.serveWaiting x0) = State.fixed x0 := by
  unfold State.serveWaiting
  (repeat' first | with_reducible rfl | intro _ | with_reducible refine State.each_fixed_trans ?_ ?_ | split | (simp; done))

@[simp] theorem effectCommitRecordWrite_fixed (x0 : State) : State.fixed (@effectCommitRecordWrite x0) = State.fixed x0 := by
  unfold effectCommitRecordWrite; (repeat' split) <;> simp

/-! ## Window -/

@[simp] theorem State.writeSnapCtrl_fixed (x0 : State) (x1 : U32) : State.fixed (@State.writeSnapCtrl x0 x1) = State.fixed x0 := by
  unfold State.writeSnapCtrl; (repeat' split) <;> simp

/-! ## Boundary -/

@[simp] theorem State.overrange_fixed (x0 : State) (x1 : List (Fin 128 × U32)) : State.fixed (@State.overrange x0 x1) = State.fixed x0 := by
  unfold State.overrange
  (repeat' first | with_reducible rfl | intro _ | with_reducible refine State.each_fixed_trans ?_ ?_ | split | (simp; done))

@[simp] theorem State.closeSecond_fixed (x0 : State) (x1 : U48) (x2 : ℕ) (x3 : List (Fin 128 × U32)) : State.fixed (@State.closeSecond x0 x1 x2 x3) = State.fixed x0 := by
  unfold State.closeSecond
  repeat' first
    | with_reducible rfl
    | (extract_lets +onlyGivenNames s1
       have hs : State.fixed s1 = State.fixed x0 := by
         first
           | (simp [s1, *]; done)
           | (unfold s1; (repeat' first | with_reducible rfl | intro _ | with_reducible refine State.each_fixed_trans ?_ ?_ | split | (simp [*]; done)); done)
       clear_value s1)
    | (extract_lets +onlyGivenNames s1; clear_value s1)
    | intro _
    | with_reducible refine State.each_fixed_trans ?_ ?_
    | (split; skip)
    | (simp [*]; done)
    | assumption
    | refine (pair_fixed ‹_› rfl).trans ?_
    | refine (triple_fixed ‹_› rfl).trans ?_
    | refine (State.newEntry_fixed _ _ _ _ ‹_›).trans ?_
    | refine (State.beginRecord_fixed _ _ _ _ _ ‹_›).trans ?_
    | refine (State.finishEnded_fixed _ _ _ _ ‹_›).trans ?_
    | refine (State.takeRecordId_fixed _ _ _ ‹_›).trans ?_
    | refine (State.takePages_fixed _ _ _ _ _ _ ‹_›).trans ?_
    | refine (State.sizeRing_fixed _ _ _ _ _ _ ‹_›).trans ?_
    | refine (State.startWork_fixed _ _ _ _ _ _ ‹_›).trans ?_
    | refine (State.applySteward_fixed _ _ _ _ ‹_›).trans ?_
    | refine (State.applyStage_fixed _ _ _ _ ‹_›).trans ?_
    | (simp; skip)

@[simp] theorem State.shiftTags_fixed (x0 : State) (x1 : ℤ) : State.fixed (@State.shiftTags x0 x1) = State.fixed x0 := by
  unfold State.shiftTags
  (repeat' first
    | with_reducible rfl
    | (extract_lets +onlyGivenNames s1
       have hs : State.fixed s1 = State.fixed x0 := by
         first | (simp [s1, *]; done) | (unfold s1; (repeat' first | with_reducible rfl | intro _ | with_reducible refine State.each_fixed_trans ?_ ?_ | split | (simp [*]; done)); done)
       clear_value s1)
    | (extract_lets +onlyGivenNames s1; clear_value s1)
    | intro _ | with_reducible refine State.each_fixed_trans ?_ ?_ | split | (simp [*]; done) | refine (pair_fixed ‹_› rfl).trans ?_
    | refine (State.newEntry_fixed _ _ _ _ ‹_›).trans ?_)

@[simp] theorem State.relabelInstances_fixed (x0 : State) (x1 : ℕ) (x2 : ℕ) : State.fixed (@State.relabelInstances x0 x1 x2) = State.fixed x0 := by
  simp [State.relabelInstances]

@[simp] theorem State.skipItems_fixed (x0 : State) (x1 : ℕ) (x2 : ℕ) : State.fixed (@State.skipItems x0 x1 x2) = State.fixed x0 := by
  simp [State.skipItems]

@[simp] theorem State.raiseStep_fixed (x0 : State) (x1 : ℕ) (x2 : Bytes) : State.fixed (@State.raiseStep x0 x1 x2) = State.fixed x0 := by
  unfold State.raiseStep; (repeat' split) <;> simp

@[simp] theorem State.relabel_fixed (x0 : State) : State.fixed (@State.relabel x0) = State.fixed x0 := by
  unfold State.relabel
  split
  · rfl
  · extract_lets s1 old new d source s2 s3 s4 s5 s6 s7 s8
    have h1 : s1.fixed = x0.fixed := State.each_fixed_trans (fun s k => State.foldPhase_fixed _ _) rfl
    have h2 : s2.fixed = x0.fixed := (State.modTime_fixed _ _).trans h1
    have h3 : s3.fixed = x0.fixed := by simp [s3, h2]
    have h3 : s4.fixed = x0.fixed := by simp [s4, h3]
    have h4 : s5.fixed = x0.fixed := (State.modCal_fixed _ _).trans h3
    have h5 : s6.fixed = x0.fixed := by
      unfold s6
      split
      · exact State.each_fixed_trans (fun s r => State.skipInstants_fixed _ _ _) h4
      · exact h4
    have h6 : s7.fixed = x0.fixed := State.each_fixed_trans (fun s c => State.beginRecords_fixed _ _ _) h5
    have h7 : s8.fixed = x0.fixed := (State.modJr_fixed _ _).trans h6
    simp [h7]

@[simp] theorem State.resumeStream_fixed (x0 : State) (x1 : ℕ) : State.fixed (@State.resumeStream x0 x1) = State.fixed x0 := by
  unfold State.resumeStream
  (repeat' first
    | with_reducible rfl
    | (extract_lets +onlyGivenNames s1; have hs : State.fixed s1 = State.fixed x0 := by (simp [s1, *]; done)
       clear_value s1)
    | (extract_lets +onlyGivenNames s1; clear_value s1)
    | intro _ | with_reducible refine State.each_fixed_trans ?_ ?_ | split | (simp [*]; done))

@[simp] theorem State.resumeAcquisition_fixed (x0 : State) : State.fixed (@State.resumeAcquisition x0) = State.fixed x0 := by
  unfold State.resumeAcquisition
  (repeat' first
    | with_reducible rfl
    | (extract_lets +onlyGivenNames s1; have hs : State.fixed s1 = State.fixed x0 := by (simp [s1, *]; done)
       clear_value s1)
    | (extract_lets +onlyGivenNames s1; clear_value s1)
    | intro _ | with_reducible refine State.each_fixed_trans ?_ ?_ | split | (simp [*]; done))

@[simp] theorem State.closeRun_fixed (x0 : State) : State.fixed (@State.closeRun x0) = State.fixed x0 := by
  unfold State.closeRun
  (repeat' first
    | with_reducible rfl
    | (extract_lets +onlyGivenNames s1; have hs : State.fixed s1 = State.fixed x0 := by (simp [s1, *]; done)
       clear_value s1)
    | (extract_lets +onlyGivenNames s1; clear_value s1)
    | intro _ | with_reducible refine State.each_fixed_trans ?_ ?_ | split | (simp [*]; done))

@[simp] theorem State.beginSpans_fixed (x0 : State) : State.fixed (@State.beginSpans x0) = State.fixed x0 := by
  unfold State.beginSpans
  repeat' first
    | with_reducible rfl
    | (extract_lets +onlyGivenNames s1
       have hs : State.fixed s1 = State.fixed x0 := by
         first
           | (simp [s1, *]; done)
           | (unfold s1; (repeat' first | with_reducible rfl | intro _ | with_reducible refine State.each_fixed_trans ?_ ?_ | split | (simp [*]; done)); done)
       clear_value s1)
    | (extract_lets +onlyGivenNames s1; clear_value s1)
    | intro _
    | with_reducible refine State.each_fixed_trans ?_ ?_
    | (split; skip)
    | (simp [*]; done)
    | assumption
    | refine (pair_fixed ‹_› rfl).trans ?_
    | refine (triple_fixed ‹_› rfl).trans ?_
    | refine (State.newEntry_fixed _ _ _ _ ‹_›).trans ?_
    | refine (State.beginRecord_fixed _ _ _ _ _ ‹_›).trans ?_
    | refine (State.finishEnded_fixed _ _ _ _ ‹_›).trans ?_
    | refine (State.takeRecordId_fixed _ _ _ ‹_›).trans ?_
    | refine (State.takePages_fixed _ _ _ _ _ _ ‹_›).trans ?_
    | refine (State.sizeRing_fixed _ _ _ _ _ _ ‹_›).trans ?_
    | refine (State.startWork_fixed _ _ _ _ _ _ ‹_›).trans ?_
    | refine (State.applySteward_fixed _ _ _ _ ‹_›).trans ?_
    | refine (State.applyStage_fixed _ _ _ _ ‹_›).trans ?_
    | (simp; skip)

@[simp] theorem State.prune_fixed (x0 : State) : State.fixed (@State.prune x0) = State.fixed x0 := by
  simp [State.prune]

@[simp] theorem State.runScheduled_fixed (x0 : State) (x1 : ℕ) (x2 : ℕ) (x3 : Instr) : State.fixed (@State.runScheduled x0 x1 x2 x3) = State.fixed x0 := by
  unfold State.runScheduled
  extract_lets drop refused
  have hd : ∀ s, (drop s).fixed = s.fixed := fun s => State.modTenant_fixed _ _ _
  have hr : ∀ r, (refused r).fixed = x0.fixed := fun r => (hd _).trans (State.notStarted_fixed _ _ _ _)
  split
  · extract_lets out
    have ho : ∀ a u, out = .ok (a, u) → u.fixed = x0.fixed := by
      intro a u h
      have h := Except.bind_unit_ok h
      have h := Except.bind_unit_ok h
      have h := Except.bind_unit_ok h
      exact cmdOf_run_fixed ‹_› _ _ _ _ h
    clear_value out
    split
    · exact (hd _).trans ((State.modEntryKeep_fixed _ _ _).trans (ho _ _ rfl))
    · exact hr _
  · rfl

@[simp] theorem State.runSchedule_fixed (x0 : State) (x1 : U48) : State.fixed (@State.runSchedule x0 x1) = State.fixed x0 := by
  unfold State.runSchedule
  (repeat' first | with_reducible rfl | intro _ | with_reducible refine State.each_fixed_trans ?_ ?_ | split | (simp; done))

@[simp] theorem State.commitAtBoundary_fixed (x0 : State) (x1 : U48) : State.fixed (@State.commitAtBoundary x0 x1) = State.fixed x0 := by
  unfold State.commitAtBoundary
  extract_lets s1
  have h1 : s1.fixed = x0.fixed := by
    unfold s1
    split
    · split
      · exact State.commitSwitch_fixed _ _
      · exact (State.modJr_fixed _ _).trans ((State.restageMgmt_fixed _ _).trans (State.each_fixed_trans (fun s g => State.refuseStage_fixed _ _ _) rfl))
    · rfl
  clear_value s1
  split
  · exact (State.failLeft_fixed _ _).trans h1
  · exact h1

@[simp] theorem State.startSecond_fixed (x0 : State) : State.fixed (@State.startSecond x0) = State.fixed x0 := by
  unfold State.startSecond
  (repeat' first
    | with_reducible rfl
    | (extract_lets +onlyGivenNames s1
       have hs : State.fixed s1 = State.fixed x0 := by
         first | (simp [s1, *]; done) | (unfold s1; (repeat' first | with_reducible rfl | intro _ | with_reducible refine State.each_fixed_trans ?_ ?_ | split | (simp [*]; done)); done)
       clear_value s1)
    | (extract_lets +onlyGivenNames s1; clear_value s1)
    | intro _ | with_reducible refine State.each_fixed_trans ?_ ?_ | split | (simp [*]; done) | refine (pair_fixed ‹_› rfl).trans ?_
    | refine (State.newEntry_fixed _ _ _ _ ‹_›).trans ?_)

@[simp] theorem State.serveSecond_fixed (x0 : State) : State.fixed (@State.serveSecond x0) = State.fixed x0 := by
  unfold State.serveSecond
  repeat' first
    | with_reducible rfl
    | (extract_lets +onlyGivenNames s1
       have hs : State.fixed s1 = State.fixed x0 := by
         first
           | (simp [s1, *]; done)
           | (unfold s1; (repeat' first | with_reducible rfl | intro _ | with_reducible refine State.each_fixed_trans ?_ ?_ | split | (simp [*]; done)); done)
       clear_value s1)
    | (extract_lets +onlyGivenNames s1; clear_value s1)
    | intro _
    | with_reducible refine State.each_fixed_trans ?_ ?_
    | (split; skip)
    | (simp [*]; done)
    | assumption
    | refine (pair_fixed ‹_› rfl).trans ?_
    | refine (triple_fixed ‹_› rfl).trans ?_
    | refine (State.newEntry_fixed _ _ _ _ ‹_›).trans ?_
    | refine (State.beginRecord_fixed _ _ _ _ _ ‹_›).trans ?_
    | refine (State.finishEnded_fixed _ _ _ _ ‹_›).trans ?_
    | refine (State.takeRecordId_fixed _ _ _ ‹_›).trans ?_
    | refine (State.takePages_fixed _ _ _ _ _ _ ‹_›).trans ?_
    | refine (State.sizeRing_fixed _ _ _ _ _ _ ‹_›).trans ?_
    | refine (State.startWork_fixed _ _ _ _ _ _ ‹_›).trans ?_
    | refine (State.applySteward_fixed _ _ _ _ ‹_›).trans ?_
    | refine (State.applyStage_fixed _ _ _ _ ‹_›).trans ?_
    | (simp; skip)

end Sys2Proof.Machine
end

