-- ==== Sys2Proof/Laws/Keeps.lean ====
section
/-! SUPPORT. What every command keeps: the queue behind it, a clock that does not run back, and the canonical form of the ring
memory. The lemmas here cover the operations that touch one of them; every other one has its lemma in the Fixed files. -/

namespace Sys2Proof.Machine

/-- The queue is the same, the clock has not run back, and the ring memory is canonical if it was. -/
structure Keeps (s t : State) : Prop where
  pending : t.pending = s.pending
  clock : s.clock ≤ t.clock
  ram : Memory.wf s.rings.ram = true → Memory.wf t.rings.ram = true

theorem Keeps.refl (s : State) : Keeps s s := ⟨rfl, le_refl _, id⟩

theorem Keeps.trans {s t u : State} (h1 : Keeps s t) (h2 : Keeps t u) : Keeps s u :=
  ⟨h2.pending.trans h1.pending, le_trans h1.clock h2.clock, fun h => h2.ram (h1.ram h)⟩

theorem Keeps.of_fixed {s t : State} (h : t.fixed = s.fixed) : Keeps s t := by
  injection h with h1 h
  injection h with h2 h3
  exact ⟨h1, le_of_eq h2.symm, fun h => h3 ▸ h⟩

theorem keeps_each {α : Type} (f : State → α → State) (hf : ∀ s a, Keeps s (f s a)) (l : List α) (s : State) : Keeps s (s.each l f) :=
  State.each_rel Keeps Keeps.refl (fun _ _ _ => Keeps.trans) f hf l s

theorem keeps_advance (s : State) (t : Nat) : Keeps s (s.advance t) := ⟨rfl, le_max_left _ _, id⟩

theorem keeps_modRings {s : State} {f : Rings → Rings} (h : Memory.wf s.rings.ram = true → Memory.wf (f s.rings).ram = true) :
    Keeps s (s.modRings f) := ⟨rfl, le_refl _, h⟩

theorem keeps_deliver (s : State) (o : Outgoing) : Keeps s (s.deliver o) := by
  unfold State.deliver
  split
  · exact keeps_modRings id
  · exact Keeps.of_fixed (State.modPort_fixed _ _ _)

theorem keeps_deliverAll (s : State) : Keeps s s.deliverAll :=
  (keeps_each _ keeps_deliver s.jr.outgoing s).trans (Keeps.of_fixed rfl)

/-- Closing a command keeps them. -/
theorem keeps_settle {s e : State} (h : Keeps s e) (s0 : State) : Keeps s (State.settle s0 e) := by
  refine h.trans ?_
  have h1 : Keeps e (if e.power.culmUp then e.placeOccurrences else e) := by
    split
    · exact Keeps.of_fixed (State.placeOccurrences_fixed _)
    · exact Keeps.refl _
  unfold State.settle
  exact (h1.trans (keeps_deliverAll _)).trans ⟨rfl, le_refl _, Rings.settle_wf _⟩

/-! ## Events pushed, responses flushed -/

theorem keeps_flushOut (s : State) : Keeps s s.flushOut := (keeps_deliverAll s).trans (keeps_modRings (Rings.settle_wf _))

theorem keeps_pushFrame (s : State) (n : Nat) : ∀ u, s.pushFrame n = some u → Keeps s u := by
  unfold State.pushFrame
  intro u h
  extract_lets t b frame pushed at h
  have hp : Keeps s pushed := Keeps.of_fixed (State.modTenant_fixed _ _ _)
  clear_value pushed frame
  split at h
  · cases h
  · split at h
    · cases h
    · split at h
      · cases h
      · injection h with h
        rw [← h]
        exact hp.trans (keeps_deliver _ _)
    · split at h
      · injection h with h
        rw [← h]
        exact hp.trans (keeps_modRings (ringWrite_wf _ _ _ _))
      · cases h

theorem keeps_pushFrames (s : State) (n fuel : Nat) : Keeps s (s.pushFrames n fuel) := by
  induction fuel generalizing s with
  | zero => exact Keeps.refl _
  | succ k ih =>
    unfold State.pushFrames
    split
    · exact (keeps_pushFrame _ _ _ ‹_›).trans (ih _)
    · exact Keeps.refl _

theorem keeps_pushTenant (s : State) (n : Nat) : Keeps s (s.pushTenant n) := by
  unfold State.pushTenant
  split
  · exact Keeps.refl _
  · extract_lets s1
    have h1 : Keeps s s1 := keeps_pushFrames _ _ _
    clear_value s1
    split
    · exact h1.trans (keeps_modRings id)
    · exact h1

theorem keeps_eventRingRoom (s : State) : Keeps s (effectEventRingRoom s) :=
  (keeps_modRings (s := s) (f := fun r => { r with evtWaiting := [] }) id).trans (keeps_each _ keeps_pushTenant _ _)

/-! ## Commands taken in -/

theorem keeps_accept (s : State) (c : Instr) (op : Nat) (f : Frame) : Keeps s (s.accept c op f) := Keeps.of_fixed (State.accept_fixed _ _ _ _)

theorem keeps_queueCmd (s : State) (c : Instr) : Keeps s (s.queueCmd c) := keeps_modRings id

theorem keeps_takeBytes (s : State) (t : Nat) (src : Source) (b : Bytes) : Keeps s (s.takeBytes t src b) := by
  unfold State.takeBytes
  extract_lets f op
  split
  · split
    · exact keeps_modRings id
    · exact Keeps.of_fixed (State.modPort_fixed _ _ _)
  · split
    · exact Keeps.of_fixed (State.answerUnsequenced_fixed _ _ _ _)
    · split
      · exact keeps_accept _ _ _ _
      · exact keeps_accept _ _ _ _

theorem keeps_intake (s : State) (fuel : Nat) : Keeps s (s.intake fuel) := by
  induction fuel generalizing s with
  | zero => exact Keeps.refl _
  | succ k ih =>
    unfold State.intake
    extract_lets r avail at_ len padded
    split
    · exact Keeps.refl _
    · split
      · exact keeps_modRings id
      · exact ((keeps_modRings (s := s) (f := fun r => { r with cmdCons := r.cmdCons + BitVec.ofNat 15 padded }) id).trans
          ((keeps_takeBytes _ _ _ _).trans (keeps_flushOut _))).trans (ih _)

theorem keeps_takeWaiting (s : State) (fuel : Nat) : Keeps s (s.takeWaiting fuel) := by
  induction fuel generalizing s with
  | zero => exact Keeps.refl _
  | succ k ih =>
    unfold State.takeWaiting
    split
    · exact Keeps.refl _
    · rename_i c l _
      split
      · exact Keeps.refl _
      · extract_lets s1 s2
        have h1 : Keeps s s1 := keeps_modRings id
        clear_value s1
        have h2 : Keeps s s2 := by
          unfold s2
          split
          · exact h1.trans (keeps_takeBytes _ _ _ _)
          · split
            · exact h1.trans (keeps_accept _ _ _ _)
            · exact h1
        exact (h2.trans (keeps_flushOut _)).trans (ih _)

theorem keeps_serveRing (s : State) : Keeps s s.serveRing := by
  unfold State.serveRing
  split
  · exact Keeps.refl _
  · exact ((keeps_flushOut _).trans (keeps_takeWaiting _ _)).trans (keeps_intake _ _)

theorem keeps_countFrame (s : State) (src : Source) : Keeps s (s.countFrame src) := Keeps.of_fixed (State.countFrame_fixed _ _)

theorem keeps_arrive (s : State) (c : Instr) (f : Frame) : Keeps s (s.arrive c f) := by
  unfold State.arrive
  split
  · exact Keeps.refl _
  · dsimp only
    split
    · exact (keeps_countFrame _ _).trans (keeps_queueCmd _ _)
    · exact (keeps_countFrame _ _).trans (keeps_accept _ _ _ _)

/-- A command that arrives in a frame keeps them. -/
theorem keeps_host (s : State) (c : Instr) (f : Frame) : Keeps s (s.host c f) :=
  keeps_settle ((keeps_advance _ _).trans (keeps_arrive _ _ _)) _

theorem keeps_badCommandFrame (t : Nat) (src : Source) (b : Bytes) (s : State) : Keeps s (effectBadCommandFrame t src b s) := by
  unfold effectBadCommandFrame
  split
  · exact Keeps.refl _
  · dsimp only
    split
    · exact (keeps_countFrame _ _).trans (keeps_queueCmd _ _)
    · exact (keeps_countFrame _ _).trans (keeps_takeBytes _ _ _ _)

/-! ## The window -/

theorem keeps_snapOnLowRead (reg : SlReg) (s : State) : Keeps s (effectSnapOnLowRead reg s) := by
  unfold effectSnapOnLowRead
  dsimp only
  split
  · exact (keeps_modRings (s := s) (f := fun r => { r with misoWord := s.windowWord (slAddress reg) }) id).trans
      (Keeps.of_fixed (State.modTime_fixed _ _))
  · exact keeps_modRings id

theorem keeps_ringReset (s : State) : Keeps s (effectRingReset s) := by
  unfold effectRingReset
  split
  · exact keeps_modRings id
  · exact Keeps.refl _

theorem keeps_cmdFrameErrorClear (b : Bool) (s : State) : Keeps s (effectCmdFrameErrorClear b s) := by
  unfold effectCmdFrameErrorClear
  split
  · exact keeps_modRings id
  · exact Keeps.refl _

theorem keeps_registerWrite (addr v : U32) (s : State) : Keeps s (effectRegisterWrite addr v s) := by
  unfold effectRegisterWrite
  extract_lets a index
  split
  · exact Keeps.refl _
  split
  · exact keeps_modRings id
  split
  · exact keeps_modRings id
  split
  · exact keeps_modRings id
  split
  · split
    · exact keeps_serveRing _
    · exact Keeps.refl _
  split
  · split
    · exact keeps_cmdFrameErrorClear _ _
    · exact Keeps.refl _
  split
  · split
    · exact keeps_ringReset _
    · exact Keeps.refl _
  split
  · exact Keeps.of_fixed (State.writeSnapCtrl_fixed _ _)
  split
  · exact Keeps.of_fixed (effectEventSummaryClear_fixed _ _ _ _)
  split
  · exact keeps_modRings (memWrite_wf _ _ _)
  · exact Keeps.refl _

/-! ## The boundary and the end of power-fail handling -/

theorem keeps_vtSecondBoundary (ovr : List (Fin 128 × U32)) (s : State) : Keeps s (effectVtSecondBoundary ovr s) := by
  unfold effectVtSecondBoundary
  split
  · exact Keeps.refl _
  · extract_lets t0 ended b held tb s1 s2 s3 s4
    have h1 : Keeps s s1 := ⟨rfl, le_max_left _ _, id⟩
    clear_value s1
    have h2 : Keeps s s2 := h1.trans (Keeps.of_fixed (State.closeSecond_fixed _ _ _ _))
    have h3 : Keeps s s3 := h2.trans (Keeps.of_fixed ((State.relabel_fixed _).trans (State.commitAtBoundary_fixed _ _)))
    have h4 : Keeps s s4 := h3.trans (Keeps.of_fixed ((State.runSchedule_fixed _ _).trans (State.startSecond_fixed _)))
    split
    · exact h4.trans (Keeps.of_fixed (State.serveSecond_fixed _))
    · exact h4

theorem keeps_held (s : State) : Keeps s s.held := ⟨rfl, le_refl _, fun _ => rfl⟩

theorem keeps_powerFailHandlingEnd (s : State) : Keeps s (effectPowerFailHandlingEnd s) := by
  unfold effectPowerFailHandlingEnd
  split
  · exact Keeps.refl _
  · split
    rename_i v s1 h
    have h1 : s1.fixed = s.fixed := (pair_fixed h rfl).trans (State.free_fixed _)
    extract_lets sealed_ freed s2 s3 s4
    have h2 : s2.fixed = s.fixed := (State.modReport_fixed _ _).trans h1
    have h3 : s3.fixed = s.fixed := (State.undoSwitch_fixed _).trans h2
    have h4 : s4.fixed = s.fixed := (State.failItems_fixed _ _ _).trans h3
    exact (Keeps.of_fixed ((State.endWork_fixed _).trans h4)).trans (keeps_held _)

end Sys2Proof.Machine
end

