-- ==== Sys2Proof/Tests/Slice0.lean ====
section
/-! SUPPORT. The tests of this package: ill-formed terms refused, worked values of the spec, and states and operands that meet the
hypotheses of the statements that have any. -/

-- One test at a time: the tests evaluate the whole machine, and many at once need as many stacks.
set_option Elab.async false

namespace Sys2Proof.Tests

open Sys2Proof Sys2Proof.Machine

/-! ## Helpers -/

/-- A payload of `n` bytes, zero but for the listed ones. -/
def pay (n : Nat) (l : List (Nat × Byte)) : Bytes := (List.range n).map fun i => ((l.find? fun e => e.1 == i).map (·.2)).getD 0

/-- A frame of the Steward with ACK_REQ. -/
def frameVia (via : Transport) (p : Bytes) : Frame :=
  { t := 1, src := { via }, tenant := 0, flags := 1, seq := 0, target := 0, payload := p }

def fr (p : Bytes) : Frame := frameVia .service p

/-- A released block in maintenance, with one of each thing commands name: a pending commit, an item in the event queue's numbers, log
entries, a report, a run of a self-test, a record in the Ear, a cassette in service, a controller in service, a Rachis port up. -/
def base : State :=
  let r := State.reset
  let s := { r with
    power := { r.power with released := true, culmUp := true, started := true, opState := .maintenance, mainOn := true
                            reports := [{ (default : PfReport) with complete := true }] }
    time := { r.time with lockCount := 1, locked := true, vtSec := 100 }
    cal := { r.cal with log := [(0, default)], logNext := 1 }
    dram := { r.dram with log := [(0, default)], logNext := 1 }
    test := { r.test with runs := [{ (default : TestRun) with runId := 0 }], nextRunId := 1 } }
  let s := s.modTenant 0 fun t => { t with items := [.commit 200 9 0 false 0 []], respSeq := 1, eventSeq := 1 }
  let s := s.modGranary fun g => { g with cassettes := vmod g.cassettes 0 fun x => { x with state := .inService, present := true, powered := true } }
  let s := s.modChan 127 fun x =>
    { x with ear := [{ (default : Segment) with record := { (default : Record) with recordId := 7 }, filled := true }] }
  let s := s.modChan 1 fun x => { x with faulty := 4 }
  let s := s.modDram 0 fun x => { x with state := .inService }
  s.modRport 0 fun x => { x with state := .up }

def isOk {α : Type} (r : Except Reply α) : Bool := match r with
  | .ok _ => true
  | .error _ => false

/-- What `Ready` asks, as a Bool. -/
def readyB (c : Instr) (f : Frame) (s : State) : Bool :=
  (s.advance f.t).receives f.src && !(s.arrived f).mustQueue f.src && decide (f.payload.length ≤ 8192)
    && (s.arrived f).admits f.tenant.val f.src && f.seq == ((s.arrived f).tenant f.tenant.val).nextSeq && !(s.arrived f).mustWait c
    && !dryRun f && match cmdOf c with
      | some k => onTransport c f && ((!k.steward || f.tenant == 0) && k.rights f (s.atTurn f)) && flagsOk k.kind f
          && isOk (k.check f (s.atTurn f)) && isOk ((s.atTurn f).stateAllows k c)
      | none => false

theorem eq_ok {r : Except Reply Unit} (h : isOk r = true) : r = .ok () := by
  cases r with
  | ok u => rfl
  | error e => cases h

theorem ready_of {c : Instr} {f : Frame} {s : State} (h : readyB c f s = true) : Ready c f s := by
  unfold readyB at h
  simp only [Bool.and_eq_true, Bool.not_eq_true', decide_eq_true_eq, beq_iff_eq] at h
  obtain ⟨⟨⟨⟨⟨⟨⟨h1, h2⟩, h3⟩, h4⟩, h5⟩, h6⟩, h7⟩, h8⟩ := h
  split at h8
  · rename_i k hk
    simp only [Bool.and_eq_true] at h8
    obtain ⟨⟨⟨⟨a1, a2⟩, a3⟩, a4⟩, a5⟩ := h8
    exact { received := h1, atOnce := h2, size := h3, admitted := h4, turn := h5, recorded := h6, live := h7
            passes := ⟨k, hk, a1, by simpa using a2, a3, eq_ok a4, eq_ok a5⟩ }
  · exact absurd h8 (by decide)

/-- A command, the length of its payload and the bytes that are not zero. -/
abbrev Case := (Frame → Instr) × Nat × List (Nat × Byte)

def readyCase (s : State) (e : Case) : Bool := readyB (e.1 (fr (pay e.2.1 e.2.2))) (fr (pay e.2.1 e.2.2)) s

/-- Every case of a list meets `Ready`. -/
theorem ready_cases {s : State} {l : List Case} (h : l.all (readyCase s) = true) :
    ∀ e ∈ l, Ready (e.1 (fr (pay e.2.1 e.2.2))) (fr (pay e.2.1 e.2.2)) s :=
  fun e he => ready_of (List.all_eq_true.mp h e he)

/-! ## Commands that are ready (statements on commands in frames) -/

/-- The configuration commands and CAL_RUN. -/
def stagedCases : List Case :=
  [
    (.timebaseConfig, 24, [(16, 10), (20, 2)]), (.timeSet, 8, []), (.leapSchedule, 8, [(2, 234), (3, 7), (4, 12), (5, 31)]),
    (.timeAlign, 4, []), (.holdoverForce, 4, []), (.channelConfig, 24, [(0, 1)]), (.comparatorConfig, 24, [(0, 1)]),
    (.rotationConfig, 4, [(0, 2)]), (.sliceSubstitute, 4, [(0, 1), (1, 2)]), (.calConfig, 12, [(0, 10), (4, 16), (6, 4), (8, 10)]),
    (.calChannelConfig, 20, [(0, 1)]), (.triggerRouteConfig, 48, []), (.trigOutConfig, 16, [(4, 8)]), (.routeAssign, 8, []),
    (.tillerLoad, 72, [(0, 1), (24, 1), (32, 1), (40, 1), (48, 1)]), (.rachisConfig, 32, [(25, 2)]),
    (.captureConfig, 48, [(0, 1), (25, 1), (36, 64), (40, 1), (42, 1), (45, 16)]), (.reductionConfig, 24, [(0, 1)]),
    (.accumConfig, 32, [(0, 1), (16, 64), (24, 1)]), (.stampConfig, 20, [(0, 1), (18, 1)]), (.tiConfig, 16, [(8, 1)]),
    (.measureConfig, 48, []), (.engineAssign, 68, []), (.reducerConfig, 48, [(3, 3), (5, 1), (6, 2), (24, 100), (28, 1)]),
    (.engineRestore, 4, []), (.dramQosConfig, 8, [(0, 1), (4, 100)]), (.dramConfig, 4, [(0, 6), (1, 1)]),
    (.dramMapConfig, 48, [(0, 1), (9, 2), (17, 4), (25, 8), (33, 16), (41, 32)]), (.dramIsolate, 4, []),
    (.winnowConfig, 12, [(5, 16), (8, 1)]), (.archiveJobConfig, 32, [(3, 1), (16, 10)]), (.gleanConfig, 4, [(0, 1), (2, 16)]),
    (.portConfig, 64, [(3, 8), (4, 1), (12, 8), (15, 4), (36, 48), (37, 1), (38, 1), (39, 1), (40, 1), (41, 1), (42, 1), (43, 1)]),
    (.streamConfig, 64, []), (.streamStart, 16, []), (.tenantConfig, 104, [(1, 1), (20, 64)]), (.channelAssign, 20, []),
    (.pageGrant, 8, []), (.drillConfig, 536, [(0, 1), (10, 1), (28, 1)]), (.probeConfig, 40, [(12, 4)]), (.loopbackSet, 8, []),
    (.unitIsolate, 4, []), (.testSourceConfig, 24, [(11, 64), (16, 8)]), (.operatingStateSet, 4, [(0, 1)]), (.calRun, 16, [(0, 1)]) ]

theorem test_ready_staged : ∀ e ∈ stagedCases, Ready (e.1 (fr (pay e.2.1 e.2.2))) (fr (pay e.2.1 e.2.2)) base :=
  ready_cases (by decide +kernel)

/-- The readbacks. -/
def readsCases : List Case :=
  [
    (.stageGet, 4, []), (.journalList, 8, [(2, 1)]), (.identityGet, 0, []), (.timeGet, 0, []), (.timeConvert, 40, [(0, 1)]),
    (.leapTableGet, 0, []), (.channelStatusGet, 4, []), (.delayTableGet, 4, []), (.calStatusGet, 4, []), (.calSetGet, 4, []),
    (.calLogGet, 4, [(2, 1)]), (.triggerStatusGet, 4, []), (.rachisStatusGet, 0, []), (.captureStatusGet, 4, []),
    (.awnStatusGet, 4, []), (.engineStatusGet, 4, []), (.reducerStatusGet, 4, []), (.imageList, 0, []), (.dramStatusGet, 4, []),
    (.dramPortStatsGet, 0, []), (.dramErrorLogGet, 4, [(2, 1)]), (.winnowStatusGet, 0, []), (.granaryStatusGet, 0, []),
    (.archiveList, 32, [(4, 1)]), (.damageListGet, 16, [(12, 1)]), (.portStatusGet, 4, []), (.streamStatusGet, 4, []),
    (.tenantStatusGet, 4, []), (.eventQuery, 8, [(4, 1)]), (.sweepStatusGet, 0, []), (.drillStatusGet, 0, []),
    (.probeStatusGet, 4, []), (.testResultGet, 4, []), (.powerStatusGet, 0, []), (.housekeepingGet, 0, []),
    (.powerFailReportGet, 4, []) ]

theorem test_ready_reads : ∀ e ∈ readsCases, Ready (e.1 (fr (pay e.2.1 e.2.2))) (fr (pay e.2.1 e.2.2)) base :=
  ready_cases (by decide +kernel)

/-- The readbacks with more than an answer. -/
def queriesCases : List Case :=
  [
    (.journalQuery, 8, []), (.responseReplay, 8, [(4, 1)]), (.recordFetch, 36, [(0, 127), (4, 7), (12, 1), (16, 1), (18, 4)]),
    (.archiveRead, 44, [(12, 1), (24, 1), (26, 4)]) ]

theorem test_ready_queries : ∀ e ∈ queriesCases, Ready (e.1 (fr (pay e.2.1 e.2.2))) (fr (pay e.2.1 e.2.2)) base :=
  ready_cases (by decide +kernel)

/-- The schedulable commands without a target. -/
def schedulableCases : List Case :=
  [
    (.armTrigger, 8, []), (.softTrigger, 4, []), (.armCapture, 20, []), (.armStamps, 20, []),
    (.winnowFlush, 4, [(0, 255), (1, 255)]), (.streamStop, 16, []) ]

theorem test_ready_schedulable : ∀ e ∈ schedulableCases, Ready (e.1 (fr (pay e.2.1 e.2.2))) (fr (pay e.2.1 e.2.2)) base :=
  ready_cases (by decide +kernel)

/-- The immediate commands, but for QUENCH. -/
def immediateCases : List Case :=
  [
    (.stageDiscard, 0, []), (.tillerControl, 4, []), (.rachisSend, 16, [(0, 2), (10, 101)]), (.rachisQuench, 4, []),
    (.streamLeaseRenew, 16, []), (.eventSubscribe, 196, []), (.eventAck, 4, []), (.drillSegmentLoad, 16, [(5, 1)]),
    (.drillControl, 24, []), (.probeProfileLoad, 32, [(2, 1), (6, 1), (25, 228), (26, 11), (27, 84), (28, 2)]),
    (.housekeepingConfig, 260, [(0, 1)]), (.moduleReset, 4, [(1, 165)]) ]

theorem test_ready_immediate : ∀ e ∈ immediateCases, Ready (e.1 (fr (pay e.2.1 e.2.2))) (fr (pay e.2.1 e.2.2)) base :=
  ready_cases (by decide +kernel)

/-- The commands under a journal entry, but for those that rest on a signature. -/
def workCases : List Case :=
  [
    (.imageLoad, 9, [(0, 16)]), (.imageDelete, 4, [(0, 16)]), (.engineKeyEnroll, 36, [(0, 1)]), (.archiveRetain, 16, [(8, 1)]),
    (.cassetteFormat, 4, [(2, 165)]), (.cassetteEvacuate, 4, []), (.cassetteRetire, 4, []), (.selfTestRun, 8, []),
    (.firmwareLoad, 5, []) ]

theorem test_ready_work : ∀ e ∈ workCases, Ready (e.1 (fr (pay e.2.1 e.2.2))) (fr (pay e.2.1 e.2.2)) base :=
  ready_cases (by decide +kernel)

/-- COMMIT_AT and COMMIT_CANCEL. -/
def commitsCases : List Case :=
  [
    (.commitAt, 8, []), (.commitCancel, 16, [(0, 200), (8, 1), (12, 9)]) ]

theorem test_ready_commits : ∀ e ∈ commitsCases, Ready (e.1 (fr (pay e.2.1 e.2.2))) (fr (pay e.2.1 e.2.2)) base :=
  ready_cases (by decide +kernel)

/-- A frame of the Steward at the service port with these flags, sequence, target and payload. -/
def frWith (flags : BitVec 4) (seq target : U32) (p : Bytes) : Frame := { fr p with flags, seq, target }

def admittedB (f : Frame) (s : State) : Bool :=
  (s.advance f.t).receives f.src && !(s.arrived f).mustQueue f.src && decide (f.payload.length ≤ 8192) && (s.arrived f).admits f.tenant.val f.src

def reachedB (c : Instr) (f : Frame) (s : State) : Bool :=
  admittedB f s && f.seq == ((s.arrived f).tenant f.tenant.val).nextSeq && !(s.arrived f).mustWait c

theorem admitted_of {f : Frame} {s : State} (h : admittedB f s = true) : Admitted f s := by
  unfold admittedB at h
  simp only [Bool.and_eq_true, Bool.not_eq_true', decide_eq_true_eq] at h
  exact ⟨h.1.1.1, h.1.1.2, h.1.2, h.2⟩

theorem reached_of {c : Instr} {f : Frame} {s : State} (h : reachedB c f s = true) : Reached c f s := by
  unfold reachedB at h
  simp only [Bool.and_eq_true, Bool.not_eq_true', beq_iff_eq] at h
  exact { admitted_of h.1.1 with turn := h.1.2, recorded := h.2 }

/-- QUENCH is taken on the management port only (R443). -/
theorem test_ready_quench : Ready (.quench (frameVia .mgmt (pay 4 [(0, 1)]))) (frameVia .mgmt (pay 4 [(0, 1)])) base :=
  ready_of (by decide +kernel)

/-- A readback with SNAPSHOT and the generation of the last record. -/
theorem test_ready_snapshot : Ready (.timeGet (frWith 9 0 0 [])) (frWith 9 0 0 []) base
    ∧ (frWith 9 0 0 []).target = (base.atTurn (frWith 9 0 0 [])).jr.recGeneration := ⟨ready_of (by decide +kernel), rfl⟩

/-! IMAGE_VERIFY and FIRMWARE_ACTIVATE rest on signatures: an image signed under a key of its own is ready. The Lumesk key and the form of a
package are open (log entries 94, 247): where they let the package stand, its activation is ready. -/

/-- A file of an image under key 1 with a header, 4 bytes of code and no data. -/
def image : Bytes :=
  [0x46, 0x4C, 0x49, 0x4D] ++ w16 1 ++ w16 1 ++ w32 0x10000 ++ w32 1 ++ [0, 1, 0, 0] ++ w32 4 ++ zeros 4 ++ zeros 4 ++ zeros 12 ++ zeros 6
    ++ w16 8 ++ w32 1000 ++ zeros 8
    ++ leBytes 64 0x6fbe91588193a202c9792ecf65bbb5a126e2232ac2c8d7b6f616af4e46992a37e30a08552a889e901f66b8d44ae5781b05659b6df8760b2be999a630ca13f4c
    ++ zeros 4

def withImage : State :=
  { base with images := [(16, { (default : ImageSlot) with owner := 0, staging := stageBlock [] 0 image })], keys := [(1, 0xb83155126486dc1d5f0da59b30d6e46799c04be718dd701dbe10cef3bf07a103)] }

def verify : Frame := fr (pay 8 [(0, 16), (4, 132)])

theorem test_ready_imageVerify : Ready (.imageVerify verify) verify withImage := by
  have e0 : stagedFile (((withImage.atTurn verify).image (p8 verify.payload 0)).map (·.staging)).toList.flatten (p32 verify.payload 4)
      = image := by decide +kernel
  have e1 : layout verify.payload 8 [(0, inRange 16 (p8 verify.payload 0) 63), (1, zeroAt verify.payload 1 3)] = .ok () :=
    eq_ok (by decide +kernel)
  have e2 : imageOk image (p32 verify.payload 4) = true := by decide +kernel
  have e3 : (withImage.atTurn verify).imageSigned image = true := by decide +kernel
  have e4 : notLive (p8 verify.payload 0) (withImage.atTurn verify) = .ok () := eq_ok (by decide +kernel)
  refine { reached_of (c := .imageVerify verify) (by decide +kernel) with
    live := rfl, passes := ⟨imageVerifyCmd, rfl, rfl, by decide +kernel, rfl, ?_, eq_ok (by decide +kernel)⟩ }
  simp only [imageVerifyCmd, e0, e1, e2, e3, e4, require, bind, Except.bind, if_true]

/-- A package of 65 bytes received whole. -/
def withPackage : State := base.modFw fun w => { w with blocks := [(0, zeros 65)], otherState := 1 }

def activate : Frame := fr (pay 4 [(0, 0xA5)])

theorem test_ready_firmwareActivate (h1 : Config.fwLength (zeros 65) = 65)
    (h2 : ed25519Verify Config.lumeskKey ((zeros 65).take 1) ((zeros 65).drop 1) = true) :
    Ready (.firmwareActivate activate) activate withPackage := by
  have e1 : layout activate.payload 4 [(0, p8 activate.payload 0 == 0xA5), (1, zeroAt activate.payload 1 3)] = .ok () :=
    eq_ok (by decide +kernel)
  have e2 : packageOf (((withPackage.atTurn activate).power.fw).blocks.length + 1) 0 (withPackage.atTurn activate).power.fw.blocks
      = some (zeros 65) := by decide +kernel
  have e3 : packageOk (zeros 65) = true := by
    have l : (zeros 65).length = 65 := by decide +kernel
    unfold packageOk
    rw [l, h1, show 65 - 64 = 1 from rfl, h2]
    rfl
  have e4 : ((withPackage.atTurn activate).power.fw.otherState == 1) = true := by decide +kernel
  have e5 : ((withPackage.atTurn activate).power.opState == .maintenance) = true := by decide +kernel
  refine { reached_of (c := .firmwareActivate activate) (by decide +kernel) with
    live := rfl, passes := ⟨firmwareActivateCmd, rfl, rfl, by decide +kernel, rfl, ?_, eq_ok (by decide +kernel)⟩ }
  simp only [firmwareActivateCmd, e1, e2, e3, e4, e5, require, bind, Except.bind, if_true, Bool.and_self, Bool.or_true]

/-! A journal with no entry free. -/

def busyEntry : JournalEntry := { (default : JournalEntry) with state := 1, remainder := 0 }

theorem aget_range (e : JournalEntry) (n : Nat) : ∀ a k, a ≤ k → k < a + n → aget ((List.range' a n).map fun i => (i, e)) k = some e := by
  induction n with
  | zero => intro a k h1 h2; omega
  | succ n ih =>
    intro a k h1 h2
    rw [List.range'_succ, List.map_cons, aget]
    by_cases h : a = k
    · rw [if_pos h]
    · rw [if_neg h]; exact ih (a + 1) k (by omega) (by omega)

def fullJournal : State := base.modJr fun j => { j with entries := (List.range' 0 4096).map fun i => (i, busyEntry) }

theorem full_findFree (n i : Nat) : fullJournal.jr.findFree n i = none := by
  induction n generalizing i with
  | zero => rfl
  | succ n ih =>
    have h : fullJournal.jr.canTake (i % 4096) = false := by
      unfold Journal.canTake
      rw [show fullJournal.jr.entries = (List.range' 0 4096).map fun i => (i, busyEntry) from rfl, aget_range _ _ _ _ (by omega) (by omega)]
      rfl
    unfold Journal.findFree
    rw [h]
    exact ih (i + 1)

/-- No entry can be taken at the turn of a command. -/
theorem test_journal_full (f : Frame) (e : JournalEntry) : (fullJournal.atTurn f).newEntry e = none := by
  unfold State.newEntry Journal.nextFree
  rw [show (fullJournal.atTurn f).jr = fullJournal.jr by unfold State.atTurn State.arrived State.countFrame; split <;> rfl, full_findFree]
  rfl

theorem test_ready_full : ∀ e ∈ workCases ++ [(.calRun, 16, [(0, 1)]), (.recordFetch, 36, [(0, 127), (4, 7), (12, 1), (16, 1), (18, 4)])],
    Ready (e.1 (fr (pay e.2.1 e.2.2))) (fr (pay e.2.1 e.2.2)) fullJournal :=
  ready_cases (by decide +kernel)

/-- The journal of `base` has an entry free. -/
theorem test_journal_free : ((base.atTurn (fr [])).newEntry busyEntry).isSome = true := by decide +kernel
/-! ## The clauses of the statements on acceptance -/

/-- The hypotheses of RefusalsComeInTheOrderOfTheChecks: a frame that is not received, one that waits, one too long, a tenant not admitted. -/
theorem test_steps_before_the_sequence :
    (State.reset.advance 1).receives (fr []).src = false
    ∧ ((base.modRings fun r => { r with cmdStalled := true }).arrived (fr [])).mustQueue (fr []).src = true
    ∧ (8192 < (fr (zeros 8193)).payload.length ∧ (fr (zeros 8192)).payload.length ≤ 8192)
    ∧ (base.arrived { fr [] with tenant := 255 }).admits 255 (fr []).src = false := by
  have l (n : Nat) : (fr (zeros n)).payload.length = n := List.length_replicate
  exact ⟨by decide +kernel, by decide +kernel, ⟨by rw [l]; decide, by rw [l]⟩, by decide +kernel⟩

/-- A second tenant, admitted on the service port. -/
def twoTenants : State := base.modTenant 5 fun t => { t with active := true, admission := [{ transports := 8 }] }

def five (p : Bytes) : Frame := { fr p with tenant := 5 }

/-- What steps 6 to 10 ask of a command, each alone. -/
def stepsB (c : Instr) (f : Frame) (s : State) : List Bool :=
  match cmdOf c with
  | some k =>
    let a := s.atTurn f
    [reachedB c f s, onTransport c f, (!k.steward || f.tenant == 0) && k.rights f a, flagsOk k.kind f, isOk (k.check f a), isOk (a.stateAllows k c)
    , dryRun f]
  | none => []

/-- Each of steps 6 to 10 refuses one, in their order, and a dry run passes. -/
theorem test_steps_at_the_turn :
    (stepsB (.quench (fr (zeros 4))) (fr (zeros 4)) base).take 2 = [true, false]
    ∧ (stepsB (.timebaseConfig (five [])) (five []) twoTenants).take 3 = [true, true, false]
    ∧ (stepsB (.timeGet (frWith 3 0 0 [])) (frWith 3 0 0 []) base).take 4 = [true, true, true, false]
    ∧ (stepsB (.timeGet (fr [0])) (fr [0]) base).take 5 = [true, true, true, true, false]
    ∧ (stepsB (.channelStatusGet (fr (zeros 4))) (fr (zeros 4)) (base.modPower fun p => { p with opState := .startUp })).take 6
        = [true, true, true, true, true, false]
    ∧ stepsB (.timeGet (frWith 5 0 0 [])) (frWith 5 0 0 []) base = [true, true, true, true, true, true, true] := by decide +kernel

/-- N is 10; a command of sequence 11 is held; the replay store holds the response of sequence 3 under CRC 0. -/
def numbered : State := base.modTenant 0 fun t =>
  { t with nextSeq := 10, held := [{ cmd := .timeGet (frWith 1 11 0 []), crc := 0, since := 0 }]
           replay := [{ (default : ReplayEntry) with resp := { (default : Response) with seq := 3 } }
                     , { (default : ReplayEntry) with resp := { (default : Response) with seq := 4 }
                                                      cmdCrc := crc32c (frameBytes 0x0201 (frWith 1 4 0 [])) }] }

def distance (seq : U32) : Nat := (seq - ((numbered.arrived (frWith 1 seq 0 [])).tenant 0).nextSeq).toNat

def storedFor (seq : U32) : List ReplayEntry :=
  ((numbered.arrived (frWith 1 seq 0 [])).tenant 0).replay.filter fun e => e.resp.seq == seq

/-- The clauses of SequencesDecideWhatIsExecuted at the ends of their ranges: the turn, 1, 64, 65 and 2³¹ ahead, 1 behind and just past the
half. -/
theorem test_sequence_ranges :
    (distance 10 = 0 ∧ distance 11 = 1 ∧ distance 74 = 64 ∧ distance 75 = 65 ∧ distance 0x8000000A = 2 ^ 31)
    ∧ (2 ^ 31 < distance 9 ∧ distance 0x8000000B = 2 ^ 31 + 1) ∧ storedFor 9 = [] := by decide +kernel

theorem test_sequence_cases :
    ((([10, 11, 74, 75, 0x8000000A, 9, 4, 3] : List U32).all fun n => admittedB (frWith 1 n 0 []) numbered) = true)
    ∧ ((numbered.modJr fun j => { j with awaiting := true }).arrived (frWith 1 10 0 [])).mustWait (.timeGet (frWith 1 10 0 [])) = true
    ∧ (numbered.arrived (frWith 1 10 0 [])).mustWait (.timeGet (frWith 1 10 0 [])) = false
    ∧ (((numbered.tenant 0).held.map fun h => (arrivedFrame h.cmd).map (·.2.seq)) = [some 11])
    ∧ ((storedFor 4).map (·.cmdCrc) = [crc32c (frameBytes 0x0201 (frWith 1 4 0 []))])
    ∧ ((storedFor 3).map (·.cmdCrc) = [0] ∧ crc32c (frameBytes 0x0201 (frWith 1 3 0 [])) ≠ 0) := by decide +kernel

/-- The clauses of HelloTellsThePlaceInEverySequence. -/
def helloFields (p : Bytes) : Nat × Nat × Bool × Bool × Nat := (p.length, p8 p 0, zeroAt p 1 3, (p8 p 0).testBit 1, p32 p 4)

theorem test_hello_payloads :
    Admitted (fr []) base
    ∧ (asap (frWith 2 0 0 []) = true ∧ wantsSnapshot (frWith 8 0 0 []) = true ∧ (frWith 1 0 7 []).target ≠ 0)
    ∧ (helloFields (zeros 7)).1 ≠ 8
    ∧ helloFields (pay 8 [(0, 4)]) = (8, 4, true, false, 0) ∧ helloFields (pay 8 [(0, 3), (1, 1)]) = (8, 3, false, true, 0)
    ∧ helloFields (pay 8 [(0, 1), (4, 9)]) = (8, 1, true, false, 9) ∧ helloFields (pay 8 [(0, 2), (4, 9)]) = (8, 2, true, true, 9)
    ∧ helloFields (zeros 8) = (8, 0, true, false, 0) := ⟨admitted_of (by decide +kernel), by decide +kernel⟩

/-- A frame as bytes, with its CRC. -/
def raw (b : Bytes) : Bytes := b ++ w32 (crc32c b).toNat

/-- The clauses of RawFramesAndHeldCommandsEnd: a frame cut short, one of a wrong length field, a known opcode and an unknown one. -/
theorem test_raw_frames :
    (base.advance 1).receives (fr []).src = true ∧ ((base.advance 1).countFrame (fr []).src).mustQueue (fr []).src = false
    ∧ frameCrcOk (zeros 19) = false
    ∧ (frameCrcOk (raw (zeros 12 ++ [1, 0, 0, 0])) = true ∧ framingOk (raw (zeros 12 ++ [1, 0, 0, 0])) = false)
    ∧ (frameCrcOk (raw (frameBytes 0x0201 (fr []))) = true ∧ framingOk (raw (frameBytes 0x0201 (fr []))) = true
      ∧ (ofOpcode (p16 (raw (frameBytes 0x0201 (fr []))) 0) (fr [])).isSome = true)
    ∧ (framingOk (raw (frameBytes 0x0110 (fr []))) = true ∧ (ofOpcode 0x0110 (fr [])).isNone = true) := by decide +kernel

/-! ## The clauses of the statements on commits, scheduled commands and queries -/

def staged1 : State := base.modTenant 0 fun t => { t with stage := [.holdoverForce (fr (zeros 4))] }

def commit (target : U32) (p : Bytes) : Frame := frWith 1 0 target p

/-- COMMIT_AT: an empty stage, a domain commit outside a domain, a second too far off, too early, taken, and free. -/
theorem test_commit_clauses :
    (base.tenant 0).stage = [] ∧ (staged1.tenant 0).stage ≠ [] ∧ staged1.inDomain = false
    ∧ (staged1.modRachis fun r => { r with cfg := { r.cfg with role := 1 } }).inDomain = true
    ∧ (([0, 50, 60000000, 200, 201] : List U32).map fun n => (((staged1.atTurn (commit n (zeros 8))).effectSecond (commit n (zeros 8))
        (staged1.atTurn (commit n (zeros 8))).earliestSecond).toOption)) = [some 101, none, none, some 200, some 201]
    ∧ (staged1.tenant 0).items.any (fun i => i.isCommit && i.second.toNat == 200) = true
    ∧ (staged1.tenant 0).items.any (fun i => i.isCommit && i.second.toNat == 201) = false := by decide +kernel

theorem test_ready_commit : ∀ n ∈ ([0, 50, 60000000, 200, 201] : List U32), Ready (.commitAt (commit n (zeros 8))) (commit n (zeros 8)) staged1 := by
  intro n h
  simp only [List.mem_cons, List.not_mem_nil, or_false] at h
  rcases h with rfl | rfl | rfl | rfl | rfl <;> exact ready_of (by decide +kernel)

/-- COMMIT_CANCEL: the window of the named item is open, or has closed. -/
theorem test_cancel_clauses :
    ((base.tenant 0).named (pay 16 [(0, 200)])).all base.windowOpen = true
    ∧ ((base.tenant 0).named (pay 16 [(0, 200)])).all (base.modTime fun t => { t with vtSec := 200 }).windowOpen = false
    ∧ readyB (.commitCancel (fr (pay 16 [(0, 200)]))) (fr (pay 16 [(0, 200)])) (base.modTime fun t => { t with vtSec := 200 }) = true := by
  decide +kernel

/-- A schedulable command with a target: an open second, one gone by, ASAP, a queue that is full. -/
theorem test_scheduled_clauses :
    readyB (.softTrigger (frWith 1 0 201 (zeros 4))) (frWith 1 0 201 (zeros 4)) base = true
    ∧ ((base.effectSecond (frWith 1 0 201 (zeros 4)) 101).toOption = some 201 ∧ (base.effectSecond (frWith 1 0 50 (zeros 4)) 101).toOption = none
      ∧ (base.effectSecond (frWith 3 0 50 (zeros 4)) 101).toOption = some 101)
    ∧ (base.tenant 0).items.length < 16
    ∧ 16 ≤ ((base.modTenant 0 fun t => { t with items := List.replicate 16 default }).tenant 0).items.length := by decide +kernel

/-- A journal with an entry for sequence 4, a replay store for sequence 5; sequence 6 is unknown to both, behind N or ahead of it. -/
def asked : State := (base.modJr fun j => { j with entries := [(3, { (default : JournalEntry) with seq := 4 })] }).modTenant 0 fun t =>
  { t with replay := [{ (default : ReplayEntry) with resp := { (default : Response) with seq := 5 } }] }

theorem test_query_clauses :
    aget asked.jr.entries 3 = some { (default : JournalEntry) with seq := 4 }
    ∧ (asked.entryFor 0 4).map (·.1) = some 3
    ∧ (asked.entryFor 0 5 = none ∧ ((asked.tenant 0).replay.find? fun r => r.resp.seq == 5).isSome = true)
    ∧ (asked.entryFor 0 6 = none ∧ ((asked.tenant 0).replay.find? fun r => r.resp.seq == 6) = none)
    ∧ (0 ≤ modDiff 6 (asked.tenant 0).nextSeq ∧ modDiff 6 ((asked.modTenant 0 fun t => { t with nextSeq := 10 }).tenant 0).nextSeq < 0)
    ∧ ([pay 8 [(0, 1), (4, 3)], pay 8 [(4, 4)], pay 8 [(4, 5)], pay 8 [(4, 6)]].all fun p => readyB (.journalQuery (fr p)) (fr p) asked) = true := by
  decide +kernel

/-- A stage of `n` bytes takes 4 more: with n = 65,532 it is full, with 65,533 it is too large. -/
theorem test_stage_size (n : Nat) :
    stageSize (pruneStage [.channelConfig (fr (zeros n)), .holdoverForce (fr (zeros 4))]) = n + 4 := by
  have a : superseded (.channelConfig (fr (zeros n))) [.holdoverForce (fr (zeros 4))] = false := by
    unfold superseded
    rw [show cmdOf (.channelConfig (fr (zeros n))) = some channelConfigCmd from rfl]
    have l : ∀ k, laterKeys k (.channelConfig (fr (zeros n))) [.holdoverForce (fr (zeros 4))] = [] := fun _ => rfl
    simp only [l]
    generalize channelConfigCmd.keys _ = k
    cases k <;> rfl
  have b : superseded (.holdoverForce (fr (zeros 4))) [] = false := by decide +kernel
  rw [pruneStage, a, pruneStage, b, pruneStage]
  show (zeros n).length + ((zeros 4).length + 0) = n + 4
  rw [show (zeros n).length = n from List.length_replicate]
  rfl

theorem test_ready_large_stage : Ready (.holdoverForce (fr (zeros 4))) (fr (zeros 4))
    (base.modTenant 0 fun t => { t with stage := [.channelConfig (fr (zeros 65533))] }) := ready_of (by decide +kernel)

/-! ## The other statements -/

/-- The ring memory of `base` is in canonical form; nothing waits there, nothing is held, no restart is asked for. -/
theorem test_base_quiet : base.Good ∧ base.rings.rspWaiting = [] ∧ base.jr.outgoing = [] ∧ (base.tenant 0).held = [] ∧ base.power.culmPending = none
    ∧ base.power.restartPending = none ∧ base.power.released = true ∧ base.power.culmUp = true ∧ State.reset.power.culmUp = false
    ∧ base.power.opState ≠ .powerFail := by
  refine ⟨?_, ?_⟩
  · unfold State.Good; decide +kernel
  · decide +kernel

/-- A step of a queue with a command answers a next state (StepRunsTheFrontCommand, and the statements on every step). -/
theorem test_step_answers : ∃ t, Sys2Proof.Machine.step { base with pending := [.snap 5] } = .next t := ⟨_, rfl⟩

/-- The words at the ends of the ring memory, read back after a write. -/
theorem test_ring_memory_ends :
    (([0x10000, 0x1BFFC] : List U32).all fun a => match Sys2Proof.Machine.exec (.registerWrite 1 a 0xA1B2C3D4) base with
      | .next u => u.windowWord a.toNat == 0xA1B2C3D4
      | _ => false) = true := by decide +kernel

/-- A queue of 64 entries: free, full but for the kept slot, and with losses being counted. -/
def subscriber (n : Nat) (lost : Bool) : Tenant :=
  { active := true, eventDepth := 64, eventMask := BitVec.allOnes 1536, lostOpen := lost
    queue := (List.range n).map fun i => { (default : EventEntry) with id := i, pushed := true } }

def occurrence : Occurrence := { (default : Occurrence) with id := 7, payload := [1] }

/-- The clauses of OccurrencesEnterTheEventQueues: not subscribed, merged, taken, lost, counted on. -/
theorem test_offer_clauses :
    ({ (default : Tenant) with active := true } : Tenant).eventMask.getLsbD 7 = false
    ∧ (((subscriber 62 false).offer occurrence).offer occurrence).queue.length = 63
    ∧ ((((subscriber 62 false).offer occurrence).offer occurrence).queue.map (·.rep)).getLast? = some 2
    ∧ (((subscriber 63 false).offer occurrence).queue.map (·.id)).getLast? = some 0x502
    ∧ ((subscriber 63 true).offer occurrence).queue.length = 63 := by decide +kernel

/-- REF IN qualified, or not: the clauses of HOLDOVER_RETURN. -/
theorem test_holdover_clauses : (base.modTime fun t => { t with refQualifiedAt := some 0 }).time.refQualifiedAt = some 0
    ∧ base.time.refQualifiedAt = none := ⟨rfl, rfl⟩

def irig (y m d : Nat) : IrigFrame := { (default : IrigFrame) with format := .b006, coded := ⟨y, m, d, 0, 0, 0⟩ }

/-- The clauses of IRIG_FRAME: the input off, a format without the year, a frame without a valid time, one with it. -/
theorem test_irig_clauses : (base.modTime fun t => { t with cfg := { t.cfg with irigMode := 0 } }).time.cfg.irigMode = 0
    ∧ yearCarried .b003 = false ∧ yearCarried (irig 2000 1 1).format = true
    ∧ base.time.cfg.irigMode ≠ 0 ∧ base.rachis.cfg.role ≠ 2 ∧ irigSecond base.time (irig 2026 2 30) = none
    ∧ (irigSecond base.time (irig 2000 1 1)).isSome = true := by decide +kernel

/-- A step on an empty queue, with a frame of queue 0, one of queue 3, and nothing to send: the clauses of StepSendsFramesOnAnEmptyQueue. -/
def linked : State := (base.modPort 0 fun p => { p with link := true, q0 := [{ (default : TxFrame) with bytes := [1, 2, 3] }] }).modPort 1 fun p =>
  { p with link := true, data := [(3, { (default : TxFrame) with bytes := [4] })] }

theorem test_empty_queue : linked.pending = [] ∧ (linked.port 2).link = false ∧ ((linked.port 1).serve 1 9 (linked.port 1).robin).isSome = true
    ∧ (match Sys2Proof.Machine.step linked with
      | .next u => (u.port 0).q0.isEmpty && (u.port 0).wire.isSome && (u.port 1).data.isEmpty && (u.port 1).wire.isSome
      | _ => false) = true
    ∧ ((base.port 0).link = false ∧ (base.port 1).link = false ∧ (base.port 2).link = false) := by decide +kernel

/-- Where no action is due and no timer runs, the Tiller stands at its present tick. -/
theorem tiller_rests {s : State} (h : s.tiller.due = []) (h' : s.tiller.timerRuns = 0) : s.tillerNow = s := by
  have e : s.tillerDue = s := by
    unfold State.tillerDue State.modTiller
    simp only [h, List.filter_nil, State.each, List.foldl_nil]
    rw [← h]
  unfold State.tillerNow State.expireTimers State.timerDone State.each
  simp [e, h', List.range_succ, List.foldl]

/-- The Tiller of `base` has no action due; two requests wait at a controller, one of them to an open row. -/
theorem test_tiller_rests : base.tiller.due = [] ∧ (base.advance 9).tillerNow = base.advance 9 := ⟨rfl, tiller_rests rfl rfl⟩

def contended : Dram := { (default : Dram) with
  waiting := [{ port := 3, addr := 0, at_ := 10 }, { port := 2, addr := 0x40000, at_ := 20 }]
  openRow := vset (Vector.replicate 32 none) (({} : Dram).bankOf 0x40000) (some 1) }

/-- R335: of two requests at level 0 the row hit is issued first, although it came later. -/
theorem test_dram_choice : (contended.choose (List.replicate 29 { targetNs := 1000 }) ⟨30, BitVec.allOnes 32⟩).map (·.at_) = some 20 := by
  decide +kernel

/-- Power-fail handling, and outside it. -/
theorem test_power_clauses : (base.modPower fun p => { p with opState := .powerFail }).power.opState = .powerFail
    ∧ base.power.opState ≠ .powerFail := by decide +kernel
/-! ## Ill-formed commands are refused: one term for each check of WellFormed -/

theorem test_wf_source : (Instr.hello { fr [] with src := { via := .mgmt, ip := 2 ^ 32 } }).wf = false
    ∧ (Instr.badCommandFrame 0 { via := .service, port := 1 } []).wf = false := by decide +kernel
theorem test_wf_address : (Instr.registerWrite 0 0x102 0).wf = false ∧ (Instr.icmpEcho 0 0 false (2 ^ 32) []).wf = false := by decide +kernel
theorem test_wf_payload : (fr (zeros 8193)).wf = false ∧ (Instr.timeGet (fr (zeros 4))).wf = true := by
  have l : (fr (zeros 8193)).payload.length = 8193 := List.length_replicate
  refine ⟨?_, by decide +kernel⟩
  unfold Frame.wf
  rw [l]
  exact Bool.and_false _
theorem test_wf_second : (Instr.vtSecondBoundary [(3, 1), (3, 2)]).wf = false := by decide +kernel
theorem test_wf_irig : (Instr.irigFrame 0 (irig 2026 13 1)).wf = false ∧ (Instr.irigFrame 0 (irig 2026 2 30)).wf = true := by decide +kernel
theorem test_wf_windows : (Instr.ensembleWindowEnd 0 0 default).wf = false ∧ (Instr.calRunWindowEnd 0 { ests := [(0, default)] }).wf = false := by
  decide +kernel
theorem test_wf_lists : (Instr.awnCheckDone 0 0 0 [] []).wf = false ∧ (Instr.dramTrainingDone 0 0 []).wf = false := by decide +kernel
theorem test_wf_runs : (Instr.blockRecordEnd 0 0 default).wf = false := by
  decide +kernel
theorem test_wf_temperature : (Instr.dramTempRead 0 0 126).wf = false ∧ (Instr.dramTempRead 0 0 125).wf = true := by decide +kernel
/-- The ports of a controller, what a request and a lane's training may hold, and the eight beats of a transfer. -/
theorem test_wf_dram : ([(0 : Fin 29), 1, 16, 28].map fun p => DramRequest.wf 0 { port := p, addr := 0, at_ := 0 }) = [true, true, true, true]
    ∧ DramRequest.wf 0 { port := 2, addr := 0, at_ := 0 } = false
    ∧ DramRequest.wf 0 { port := 0, addr := 0, at_ := 0, low := true } = false
    ∧ DramRequest.wf 0 { port := 0, addr := 0, at_ := 0, written := true } = false
    ∧ LaneTraining.wf { readEye := 255 } = false ∧ (Instr.patrolScrubRead 0 0 []).wf = false := by decide +kernel
theorem test_wf_strobes : (Instr.drillRunStart 0 [{ (default : PinSample) with v := 4 }, { (default : PinSample) with v := 4 }]).wf = false := by
  decide +kernel

/-- The table of operations gives no row any bits, so no word spells a command. -/
theorem test_no_word_spells_a_command : decodeTableWord 16 0x0101 = none ∧ decodeTableWord 0 0 = none := ⟨rfl, rfl⟩

/-! ## Worked values of the spec -/

/-- R459: the CRC-32C of "123456789". -/
theorem test_crc : crc32c [0x31, 0x32, 0x33, 0x34, 0x35, 0x36, 0x37, 0x38, 0x39] = 0xE3069283 := by decide +kernel

/-- RFC 8032, the first test vector: an empty message verifies (R303), and another message does not. -/
theorem test_ed25519 :
    let key : BitVec 256 := 0x1a5107f7681a02af2523a6daf372e10e3a0764c9d3fe4bd5b70ab18201985ad7
    let sig := leBytes 64 0xb107a8e4341516524be5b59f0f55bd26bb4f91c70391ec6ac3ba3901582b85f5501492265e073d874d9e5b81e7f87848a826e80cce2869072ac60c3004356e5
    ed25519Verify key [] sig = true ∧ ed25519Verify key [1] sig = false := by decide +kernel

/-- R64 to R66: 2024-02-29T12:00:00.25 TAI in VT96, VT80 and CS64. -/
theorem test_vt_example :
    let v : Vt96 := ⟨762523200, 0x400000000000⟩
    vt96Bytes v = [0, 0, 0, 0, 0, 0x40, 0x40, 0x2E, 0x73, 0x2D, 0, 0] ∧ vt80Bytes (vt80 v) = (vt96Bytes v).take 10
      ∧ cs64 v = 0x32E4040000000000 := by decide +kernel

/-- R70 to R73: the table of worked dates. -/
theorem test_calendar :
    (civilToVt factoryLeaps false ⟨2024, 2, 29, 12, 0, 0⟩ = 762523200 ∧ civilToVt factoryLeaps true ⟨2024, 2, 29, 12, 0, 0⟩ = 762523237)
    ∧ (civilValid factoryLeaps false ⟨2100, 2, 29, 0, 0, 0⟩ = false ∧ civilToVt factoryLeaps false ⟨2100, 3, 1, 0, 0, 0⟩ = 3160857600)
    ∧ (civilToVt factoryLeaps true ⟨2016, 12, 31, 23, 59, 59⟩ = 536544035 ∧ civilToVt factoryLeaps true ⟨2016, 12, 31, 23, 59, 60⟩ = 536544036
      ∧ civilToVt factoryLeaps true ⟨2017, 1, 1, 0, 0, 0⟩ = 536544037)
    ∧ (civilValid factoryLeaps true ⟨2016, 12, 31, 23, 59, 60⟩ = true ∧ civilValid factoryLeaps true ⟨2017, 6, 30, 23, 59, 60⟩ = false)
    ∧ ([⟨2024, 2, 30, 0, 0, 0⟩, ⟨2024, 13, 1, 0, 0, 0⟩, ⟨2024, 1, 0, 0, 0, 0⟩, ⟨2024, 1, 1, 24, 0, 0⟩].all fun c =>
        !civilValid factoryLeaps false c) = true := by decide +kernel

/-- R4, R20: channel 77 and engine 310. -/
theorem test_numbering : sheafOf 77 = 9 ∧ stookOf 77 = 4 ∧ engineSheaf 310 = 9 ∧ engineNode 310 = 5 := by decide +kernel

/-- R328 to R330: the address of the example; the next run of 512 bytes differs in bits 9 and 10 (log entry 31), so in two bits of its
bank group. -/
theorem test_dram_address : ({} : Dram).place 0x9BA04A80 = (3, 2, 5, 9960) ∧ (({} : Dram).place 0x9BA04C80).1 = 0 := by decide +kernel

/-- R364, R365: the five samples of the example: their mapped residuals and 58 bits of code. -/
theorem test_rice : residuals 12 2 0 0 0 0 [100, 104, 109, 113, 118] = [200, 8, 2, 1, 2]
    ∧ (riceCode 12 2 1 [200, 8, 2, 1, 2]).length = 58 := by decide +kernel

/-- R169: the edges of the example at 4, 9.999, 10 and 15 µs, after an acceptance at 0; the tag of 10 µs is the first one not before it. -/
theorem test_holdoff :
    let x : Route := { cfg := { holdoffMode := 1, holdoff := 3125 }, state := .holdoff, lastTag := some vtZero }
    ([4000, 9999, 10000, 15000].map fun ns => x.discards (vtAdd vtZero (unitsOfNs ns + 1))) = [true, true, false, false] := by decide +kernel

/-- R76: a snapshot counts, mod 16. -/
theorem test_snap : (match Sys2Proof.Machine.exec (.snap 9) (base.modTime fun t => { t with snapCount := 15 }) with
    | .next u => u.time.snapCount == 0
    | _ => false) = true := by decide +kernel

/-- R454: a reset of the rings sets all six indices to 0 and is counted. -/
theorem test_ring_reset : (match Sys2Proof.Machine.exec (.ringReset 9) (base.modRings fun r => { r with cmdProd := 64, evtProd := 32 }) with
    | .next u => u.rings.cmdProd == 0 && u.rings.evtProd == 0 && u.rings.ringResets == 1
    | _ => false) = true := by decide +kernel

/-- R460 to R462: a readback is answered into the response ring: a header of 24 bytes with ST_DONE, the payload and the CRC. -/
theorem test_readback_answers : (match Sys2Proof.Machine.exec (.channelStatusGet (fr (zeros 4))) base with
    | .next u => (u.tenant 0).nextSeq == 1 && u.rings.rspProd != 0 && u.rings.rspWaiting == []
    | _ => false) = true := by decide +kernel

/-- R12: the block before its release answers no read of the window and takes no command. -/
theorem test_unreleased : State.reset.windowWord 0x100 = 0xFFFFFFFF ∧ State.reset.receives (fr []).src = false := by decide +kernel

/-- R334: the levels of waits of 499, 500, 750 and 900 ns against a target of 1 µs. -/
theorem test_urgency : ([499, 500, 750, 900].map fun ns => urgency (5 * ns) 1000) = [0, 1, 2, 3] := by decide +kernel

/-- R574: the ramp of a looped channel at its ends. -/
theorem test_ramp : rampCode 0 = -2048 ∧ rampCode 4095 = 2047 ∧ rampCode 4096 = -2048 := by decide +kernel

/-- R364, R365: a block of 12-bit samples that Winnow codes decodes to its input. -/
theorem test_winnow_round_trip :
    (let b : WinnowBlock := { (default : WinnowBlock) with cls := 1, unit := 2, input := (List.range 24).flatMap fun i => w16 (2000 + 3 * i % 11) }
     (decodeBlock false (encodeBlock 5 b).2) == some b.input && (encodeBlock 5 b).1 == 0 && blockSound false (encodeBlock 5 b).2) = true := by
  decide +kernel

end Sys2Proof.Tests
end

section
/-! Responses in parts (R460 to R462, R467, R468): what one part changes, what the parts of a response change together, and the
settlement of O54. -/

namespace Sys2Proof.Machine

/-- Trimming a store before more entries come makes no difference to what a later trimming leaves. -/
theorem lastN_append_lastN {α : Type} (n : Nat) (l k : List α) : lastN n (lastN n l ++ k) = lastN n (l ++ k) := by
  simp only [lastN, List.drop_append, List.drop_drop, List.length_append, List.length_drop]
  congr 2 <;> omega

/-- R468: the replay entry of part `i` of those in `ps`, the first of them being part `k` with response number `start`. -/
def Response.storedPart (r : Response) (crc start : U32) (k : Nat) (ps : List Bytes) (i : Nat) (p : Bytes) : ReplayEntry :=
  { resp := storedForm { r with payload := p }, part := BitVec.ofNat 8 (k + i), more := decide (i + 1 < ps.length)
    respSeq := start + BitVec.ofNat 32 i, cmdCrc := crc }

/-- R460: the frame of part `i` of those in `ps`, the first of them being part `k` with response number `start`. -/
def Response.sentPart (r : Response) (dest : Source) (start : U32) (k : Nat) (ps : List Bytes) (i : Nat) (p : Bytes) : Outgoing :=
  { dest, bytes := ({ r with payload := p } : Response).bytes (BitVec.ofNat 8 (k + i)) (decide (i + 1 < ps.length))
      (start + BitVec.ofNat 32 i) }

theorem add_one_add_ofNat (start : U32) (i : Nat) : start + 1 + BitVec.ofNat 32 i = start + BitVec.ofNat 32 (i + 1) := by
  rw [BitVec.add_assoc, BitVec.ofNat_add, BitVec.add_comm 1]
  rfl

theorem Response.storedPart_succ (r : Response) (crc start : U32) (k i : Nat) (p q : Bytes) (ps : List Bytes) :
    r.storedPart crc start k (q :: ps) (i + 1) p = r.storedPart crc (start + 1) (k + 1) ps i p := by
  simp only [storedPart, add_one_add_ofNat, List.length_cons, Nat.add_lt_add_iff_right, Nat.add_right_comm k 1 i, Nat.add_assoc k i 1]

theorem Response.sentPart_succ (r : Response) (dest : Source) (start : U32) (k i : Nat) (p q : Bytes) (ps : List Bytes) :
    r.sentPart dest start k (q :: ps) (i + 1) p = r.sentPart dest (start + 1) (k + 1) ps i p := by
  simp only [sentPart, add_one_add_ofNat, List.length_cons, Nat.add_lt_add_iff_right, Nat.add_right_comm k 1 i, Nat.add_assoc k i 1]

theorem Response.mapIdx_storedPart_cons (r : Response) (crc start : U32) (k : Nat) (p : Bytes) (ps : List Bytes) :
    (p :: ps).mapIdx (r.storedPart crc start k (p :: ps)) =
      r.storedPart crc start k (p :: ps) 0 p :: ps.mapIdx (r.storedPart crc (start + 1) (k + 1) ps) := by
  rw [List.mapIdx_cons]
  congr 2
  funext i q
  exact storedPart_succ ..

theorem Response.mapIdx_sentPart_cons (r : Response) (dest : Source) (start : U32) (k : Nat) (p : Bytes) (ps : List Bytes) :
    (p :: ps).mapIdx (r.sentPart dest start k (p :: ps)) =
      r.sentPart dest start k (p :: ps) 0 p :: ps.mapIdx (r.sentPart dest (start + 1) (k + 1) ps) := by
  rw [List.mapIdx_cons]
  congr 2
  funext i q
  exact sentPart_succ ..

/-! ## One part -/

theorem OnlyChanges.modTenant (s : State) (n : Nat) (g : Tenant → Tenant) : OnlyChanges [.tenants] s (s.modTenant n g) :=
  ⟨rfl, fun p hp => by
    cases p with
    | tenants => exact absurd (List.mem_singleton_self _) hp
    | _ => rfl⟩

theorem OnlyChanges.modJr (s : State) (g : Journal → Journal) : OnlyChanges [.jr] s (s.modJr g) :=
  ⟨rfl, fun p hp => by
    cases p with
    | jr => exact absurd (List.mem_singleton_self _) hp
    | _ => rfl⟩

section
variable (s : State) (dest : Source) (r : Response) (crc : U32) (send : Bool) (k : Nat) (p : Bytes) (ps : List Bytes)

/-- The first of the parts `p :: ps` numbered and stored: one step of `emitParts` before sending. -/
def State.storePart : State :=
  s.modTenant r.tenant.val fun t =>
    { t with respSeq := t.respSeq + 1
             replay := lastN 256 (t.replay ++ [r.storedPart crc (s.tenant r.tenant.val).respSeq k (p :: ps) 0 p]) }

/-- The first of the parts `p :: ps` numbered, stored and, where `send` holds, sent: one step of `emitParts`. -/
def State.emitPart : State :=
  if send then (s.storePart r crc k p ps).modJr fun j =>
    { j with outgoing := j.outgoing ++ [r.sentPart dest (s.tenant r.tenant.val).respSeq k (p :: ps) 0 p] }
  else s.storePart r crc k p ps

theorem State.emitParts_cons :
    s.emitParts dest r crc send k (p :: ps) = (s.emitPart dest r crc send k p ps).emitParts dest r crc send (k + 1) ps := by
  have hmore : decide (0 + 1 < (p :: ps).length) = !ps.isEmpty := by cases ps <;> simp
  simp only [emitPart, storePart, Response.storedPart, Response.sentPart, hmore, Nat.add_zero, BitVec.add_zero]
  rfl

theorem State.emitPart_tenants : (s.emitPart dest r crc send k p ps).tenants = (s.storePart r crc k p ps).tenants := by
  unfold emitPart
  split <;> rfl

theorem State.emitPart_tenant : (s.emitPart dest r crc send k p ps).tenant r.tenant.val =
    { s.tenant r.tenant.val with
      respSeq := (s.tenant r.tenant.val).respSeq + 1
      replay := lastN 256 ((s.tenant r.tenant.val).replay ++
        [r.storedPart crc (s.tenant r.tenant.val).respSeq k (p :: ps) 0 p]) } := by
  rw [tenant, emitPart_tenants, storePart, modTenant_tenants, vget_vmod_self _ _ _ r.tenant.isLt]
  rfl

theorem State.emitPart_tenant_ne {i : Nat} (hi : i ≠ r.tenant.val) :
    (s.emitPart dest r crc send k p ps).tenant i = s.tenant i := by
  rw [tenant, emitPart_tenants, storePart, modTenant_tenants, vget_vmod_ne _ _ _ _ hi.symm]
  rfl

theorem State.emitPart_jr : (s.emitPart dest r crc send k p ps).jr =
    { s.jr with outgoing := s.jr.outgoing ++
        if send then [r.sentPart dest (s.tenant r.tenant.val).respSeq k (p :: ps) 0 p] else [] } := by
  cases send
  · simp [emitPart, storePart]
  · rfl

theorem State.emitPart_onlyChanges : OnlyChanges [.jr, .tenants] s (s.emitPart dest r crc send k p ps) := by
  have hstore : OnlyChanges [.jr, .tenants] s (s.storePart r crc k p ps) := (OnlyChanges.modTenant s _ _).mono (by simp)
  unfold emitPart
  split
  · exact hstore.trans ((OnlyChanges.modJr _ _).mono (by simp))
  · exact hstore

/-! ## All parts of a response -/

theorem State.emitParts_respSeq : ((s.emitParts dest r crc send k ps).tenant r.tenant.val).respSeq =
    (s.tenant r.tenant.val).respSeq + BitVec.ofNat 32 ps.length := by
  induction ps generalizing s k with
  | nil => simp [emitParts]
  | cons p ps ih =>
    rw [emitParts_cons, ih, emitPart_tenant, List.length_cons]
    exact add_one_add_ofNat _ _

/-- There is a first part: a response of no part would leave the store untrimmed. -/
theorem State.emitParts_replay : ((s.emitParts dest r crc send k (p :: ps)).tenant r.tenant.val).replay =
    lastN 256 ((s.tenant r.tenant.val).replay ++
      (p :: ps).mapIdx (r.storedPart crc (s.tenant r.tenant.val).respSeq k (p :: ps))) := by
  induction ps generalizing s k p with
  | nil =>
    rw [emitParts_cons, emitParts, emitPart_tenant, Response.mapIdx_storedPart_cons, List.mapIdx_nil]
  | cons q ps ih =>
    rw [emitParts_cons, ih, emitPart_tenant, lastN_append_lastN, Response.mapIdx_storedPart_cons r crc _ k p,
      List.append_assoc, List.singleton_append]

theorem State.emitParts_jr : (s.emitParts dest r crc send k ps).jr =
    { s.jr with outgoing := s.jr.outgoing ++
        if send then ps.mapIdx (r.sentPart dest (s.tenant r.tenant.val).respSeq k ps) else [] } := by
  induction ps generalizing s k with
  | nil => simp [emitParts]
  | cons p ps ih =>
    rw [emitParts_cons, ih, emitPart_tenant, emitPart_jr, Response.mapIdx_sentPart_cons]
    cases send <;> simp

theorem State.emitParts_tenant : (s.emitParts dest r crc send k ps).tenant r.tenant.val =
    { s.tenant r.tenant.val with
      respSeq := ((s.emitParts dest r crc send k ps).tenant r.tenant.val).respSeq
      replay := ((s.emitParts dest r crc send k ps).tenant r.tenant.val).replay } := by
  induction ps generalizing s k with
  | nil => rfl
  | cons p ps ih => rw [emitParts_cons, ih, emitPart_tenant]

theorem State.emitParts_tenant_ne {i : Nat} (hi : i ≠ r.tenant.val) :
    (s.emitParts dest r crc send k ps).tenant i = s.tenant i := by
  induction ps generalizing s k with
  | nil => rfl
  | cons p ps ih => rw [emitParts_cons, ih, emitPart_tenant_ne _ _ _ _ _ _ _ _ hi]

theorem State.emitParts_onlyChanges : OnlyChanges [.jr, .tenants] s (s.emitParts dest r crc send k ps) := by
  induction ps generalizing s k with
  | nil => exact OnlyChanges.refl _ s
  | cons p ps ih =>
    rw [emitParts_cons]
    exact (s.emitPart_onlyChanges dest r crc send k p ps).trans (ih _ _)

end

theorem chunks_ne_nil (n fuel : Nat) (bs : Bytes) : chunks n fuel bs ≠ [] := by
  cases fuel with
  | zero => simp [chunks]
  | succ fuel =>
    rw [chunks]
    split <;> simp

/-- Settles O54: each clause is the one of `emitParts`, by induction on the parts, of which there is at least one. -/
theorem responsesAreNumberedStoredAndSent : Obligations.ResponsesAreNumberedStoredAndSent := by
  unfold Obligations.ResponsesAreNumberedStoredAndSent
  intro s op f crc readback r n e parts resp stored frame
  have hstored : (s.responseTo op f r).storedPart crc (s.tenant n).respSeq 0 parts = stored := by
    funext k p
    simp only [Response.storedPart, storedForm, Nat.zero_add]
    rfl
  have hframe : (s.responseTo op f r).sentPart f.src (s.tenant n).respSeq 0 parts = frame := by
    funext k p
    simp only [Response.sentPart, Nat.zero_add]
    rfl
  have hreplay : (e.tenant n).replay = lastN 256 ((s.tenant n).replay ++ parts.mapIdx stored) := by
    obtain ⟨p, ps, hparts⟩ := List.exists_cons_of_ne_nil (chunks_ne_nil (s.partMax f.src) 255 r.payload)
    have h := s.emitParts_replay f.src (s.responseTo op f r) crc (readback || ackReq f || r.status != .done) 0 p ps
    rw [← hparts] at h
    rw [← hstored]
    exact h
  refine ⟨State.emitParts_respSeq .., hreplay, ?_, State.emitParts_tenant .., fun i hi => State.emitParts_tenant_ne _ _ _ _ _ _ _ hi,
    State.emitParts_onlyChanges ..⟩
  rw [← hframe]
  exact State.emitParts_jr ..

end Sys2Proof.Machine
end

section
/-! What every command and every step does to the queue, the clock and the ring memory: one case split over the commands, and the settlement
of O1, O3, O4, O5 and O6. -/

namespace Sys2Proof.Machine

/-- A command in a frame runs the acceptance of R463, whichever it is. -/
theorem exec_hostCommand {c : Instr} {op : Nat} {f : Frame} (h : hostCommand c = some (op, f)) (s : State) :
    exec c s = .next (s.host c f) := by
  cases c <;> cases h <;> rfl

theorem exists_fixed_advance (s : State) (t : Nat) : ∃ u, (s.advance t).fixed = (s.advance u).fixed := ⟨t, rfl⟩

/-- An effect that touches neither queue nor clock nor rings, once the clock has moved on. -/
theorem Keeps.of_fixed_advance {s e : State} (h : ∃ t, e.fixed = (s.advance t).fixed) : Keeps s e := by
  obtain ⟨t, ht⟩ := h
  exact (keeps_advance s t).trans (Keeps.of_fixed ht)

/-- A command closes some effect, and the effect keeps what `Keeps` names. -/
def KeepsAndSettles (c : Instr) (s : State) : Prop := ∃ s0 e, exec c s = .next (State.settle s0 e) ∧ Keeps s e

theorem KeepsAndSettles.intro {c : Instr} {s s0 e : State} (h : exec c s = .next (State.settle s0 e)) (hk : Keeps s e) :
    KeepsAndSettles c s := ⟨s0, e, h, hk⟩

theorem KeepsAndSettles.advance {c : Instr} {s s0 e : State} {t : Nat} (h : exec c s = .next (State.settle s0 e))
    (hk : Keeps (s.advance t) e) : KeepsAndSettles c s := ⟨s0, e, h, (keeps_advance s t).trans hk⟩

/-- Most rows that are no command in a frame touch neither the queue nor the rings, and the clock only by moving on to their tick; those that
do are named here, each with its lemma of Laws/Keeps. -/
theorem exec_keepsAndSettles_of_not_hostCommand {c : Instr} (h : hostCommand c = none) (s : State) : KeepsAndSettles c s := by
  cases c <;> try (cases h; done)
  case badCommandFrame => exact .advance rfl (keeps_badCommandFrame _ _ _ _)
  case snapOnLowRead => exact .advance rfl (keeps_snapOnLowRead _ _)
  case ringReset => exact .advance rfl (keeps_ringReset _)
  case cmdFrameErrorClear => exact .advance rfl (keeps_cmdFrameErrorClear _ _)
  case registerWrite => exact .advance rfl (keeps_registerWrite _ _ _)
  case cmdDoorbell | cmdRingPoll | responseRingRoom => exact .advance rfl (keeps_serveRing _)
  case eventRingRoom => exact .advance rfl (keeps_eventRingRoom _)
  case eventPush => exact .advance rfl (keeps_pushTenant _ _)
  case vtSecondBoundary => exact .intro rfl (keeps_vtSecondBoundary _ _)
  case powerFailHandlingEnd => exact .advance rfl (keeps_powerFailHandlingEnd _)
  case quenchNRelease => exact .intro rfl (.of_fixed_advance ⟨_, rfl⟩)
  all_goals
    refine .intro rfl (.of_fixed_advance ?_)
    simp [apply_ite State.fixed, exists_fixed_advance]

theorem exec_keepsAndSettles (c : Instr) (s : State) : KeepsAndSettles c s := by
  cases h : hostCommand c with
  | some p => exact .advance (exec_hostCommand h s) (keeps_arrive _ _ _)
  | none => exact exec_keepsAndSettles_of_not_hostCommand h s

theorem exec_keeps {c : Instr} {s t : State} (h : exec c s = .next t) : Keeps s t := by
  obtain ⟨s0, e, he, hk⟩ := exec_keepsAndSettles c s
  rw [he] at h
  cases h
  exact keeps_settle hk s0

/-- What a step keeps: those of the state with the rest of the queue. -/
theorem step_keeps {s t : State} (h : step s = .next t) : Keeps { s with pending := s.pending.tail } t := by
  unfold step at h
  split at h
  · next hp =>
    cases h
    refine Keeps.of_fixed ((State.transmit_fixed s).trans ?_)
    rw [hp]
    exact (congrArg (·, s.clock, s.rings) hp)
  · next hp =>
    rw [hp]
    exact exec_keeps h

/-- Settles O1: `step` on a queue that is not empty. -/
theorem stepRunsTheFrontCommand : Obligations.StepRunsTheFrontCommand := by
  unfold Obligations.StepRunsTheFrontCommand
  intro c rest s hp
  have hstep : step s = exec c { s with pending := rest } := by
    unfold step
    rw [hp]
  exact ⟨hstep, hstep⟩

/-- Settles O3: every command closes an effect, and closing answers a next state. -/
theorem everyCommandAnswersANextState : Obligations.EveryCommandAnswersANextState := by
  unfold Obligations.EveryCommandAnswersANextState
  intro c s
  obtain ⟨s0, e, he, -⟩ := exec_keepsAndSettles c s
  exact ⟨_, he⟩

/-- Settles O4 by `step_keeps`. -/
theorem everyStepMovesTheQueueAndTimeOn : Obligations.EveryStepMovesTheQueueAndTimeOn := by
  unfold Obligations.EveryStepMovesTheQueueAndTimeOn
  intro s t h
  exact ⟨(step_keeps h).pending, (step_keeps h).clock⟩

/-- Settles O5 by `step_keeps`. -/
theorem everyStepKeepsTheRingMemoryCanonical : Obligations.EveryStepKeepsTheRingMemoryCanonical := by
  unfold Obligations.EveryStepKeepsTheRingMemoryCanonical
  intro s t hs h
  exact (step_keeps h).ram hs

/-- Settles O6: the empty memory lists no byte. -/
theorem resetMemoryIsCanonical : Obligations.ResetMemoryIsCanonical := by
  unfold Obligations.ResetMemoryIsCanonical
  rfl

end Sys2Proof.Machine
end

section
/-! The state after reset, and the settlement of O7. -/

namespace Sys2Proof.Machine

theorem vget_replicate {α : Type} [Inhabited α] (n i : Nat) (a : α) (h : i < n) : vget (Vector.replicate n a) i = a := by
  simp [vget, h]

theorem reset_tenant_ne {n : Nat} (h0 : 0 < n) (h : n < 256) : State.reset.tenant n = {} := by
  have hne : (0 : Nat) ≠ n := Nat.ne_of_lt h0
  simp [State.tenant, State.reset, deliveredTenants, vget, Vector.getElem_set_ne, hne, h]

/-- Settles O7. -/
theorem resetLeavesTheBlockAsDelivered : Obligations.ResetLeavesTheBlockAsDelivered := by
  unfold Obligations.ResetLeavesTheBlockAsDelivered
  refine ⟨rfl, ⟨rfl, rfl, rfl, rfl, rfl, rfl⟩, rfl, fun w hw => vget_replicate _ _ _ hw, rfl, ⟨rfl, rfl, rfl, rfl, rfl⟩, ⟨rfl, rfl⟩,
    fun n h0 hn => ?_, fun c hc => ?_, fun e he => vget_replicate _ _ _ he, fun r hr => vget_replicate _ _ _ hr,
    fun i hi => vget_replicate _ _ _ hi, rfl, rfl, rfl, rfl⟩
  · rw [reset_tenant_ne h0 hn]
    exact ⟨rfl, rfl⟩
  · exact congrArg Fin.val (vget_replicate 128 c 0 hc)

end Sys2Proof.Machine
end

section
/-! Closing a command: where response frames go (R451, R455), where occurrences go (R517 to R523), and the settlement of O8 and O9. -/

namespace Sys2Proof.Machine

/-! ## Writing into a ring -/

theorem ringWrite_congr {off off' : Nat} (h : off % 16384 = off' % 16384) (ram : List Host.Cell) (base : Nat) (bs : Bytes) :
    ringWrite ram base off bs = ringWrite ram base off' bs := by
  induction bs generalizing ram off off' with
  | nil => rfl
  | cons b bs ih =>
    rw [ringWrite, ringWrite, h]
    exact ih (by omega) _

theorem ringWrite_append (ram : List Host.Cell) (base off : Nat) (a b : Bytes) :
    ringWrite ram base off (a ++ b) = ringWrite (ringWrite ram base off a) base (off + a.length) b := by
  induction a generalizing ram off with
  | nil => rfl
  | cons x a ih =>
    rw [List.cons_append, ringWrite, ringWrite, ih, List.length_cons, Nat.add_right_comm, Nat.add_assoc]

/-- The place after `n` bytes more: an index wraps at twice the size of its ring. -/
theorem ringIndex_add (i : BitVec 15) (n : Nat) :
    (i + BitVec.ofNat 15 n).toNat % 16384 % 16384 = (i.toNat % 16384 + n) % 16384 := by
  rw [BitVec.toNat_add, BitVec.toNat_ofNat]
  omega

/-! ## The response ring (R455) -/

/-- What writing waiting responses into the ring has done: the first of them are written one behind the other, and the first that is left
finds no room. -/
structure Rings.Drained (r e : Rings) (written : List Bytes) : Prop where
  waiting : r.rspWaiting = written ++ e.rspWaiting
  prod : e.rspProd = r.rspProd + BitVec.ofNat 15 ((written.map fun b => (pad8 b).length).sum)
  cons : e.rspCons = r.rspCons
  ram : e.ram = ringWrite r.ram rspBase (r.rspProd.toNat % 16384) (written.map pad8).flatten
  full : ∀ f l, e.rspWaiting = f :: l → ringRoom e.rspProd e.rspCons (pad8 f).length = false

theorem Rings.drainResponses_drained (fuel : Nat) (r : Rings) (hfuel : r.rspWaiting.length ≤ fuel) :
    ∃ written, r.Drained (r.drainResponses fuel) written := by
  induction fuel generalizing r with
  | zero =>
    have hnil : r.rspWaiting = [] := List.length_eq_zero_iff.mp (Nat.le_zero.mp hfuel)
    exact ⟨[], rfl, by simp [drainResponses], rfl, rfl, fun f l h => by simp [drainResponses, hnil] at h⟩
  | succ fuel ih =>
    unfold drainResponses
    split
    · next hnil => exact ⟨[], rfl, by simp, rfl, rfl, fun f l h => by simp [hnil] at h⟩
    · next f l hcons =>
      extract_lets b
      split
      · next hroom =>
        obtain ⟨written, h⟩ := ih { r with ram := ringWrite r.ram rspBase (r.rspProd.toNat % 16384) b,
                                           rspProd := r.rspProd + BitVec.ofNat 15 b.length, rspWaiting := l }
          (by simpa [hcons] using hfuel)
        refine ⟨f :: written, ?_, ?_, h.cons, ?_, h.full⟩
        · rw [hcons, List.cons_append, ← h.waiting]
        · rw [h.prod, BitVec.add_assoc, ← BitVec.ofNat_add]
          rfl
        · rw [h.ram, List.map_cons, List.flatten_cons, ringWrite_append]
          exact ringWrite_congr (ringIndex_add _ _) _ _ _
      · next hfull =>
        refine ⟨[], rfl, by simp, rfl, rfl, fun g k h => ?_⟩
        rw [hcons] at h
        cases h
        exact Bool.eq_false_iff.mpr hfull

theorem Rings.settle_drained (r : Rings) : ∃ written, r.Drained r.settle written := by
  obtain ⟨written, h⟩ := drainResponses_drained _ r le_rfl
  exact ⟨written, h.waiting, h.prod, h.cons, h.ram, h.full⟩

/-! ## Delivery (R451) -/

/-- The packet a response frame leaves its port in. -/
def State.packetOf (s : State) (o : Outgoing) : TxFrame :=
  { v6 := o.dest.v6, destIp := o.dest.ip, destPort := o.dest.port, srcPort := (s.port (portOf o.dest.via)).cfg.cmdPort, bytes := o.bytes }

theorem State.deliver_packetOf (s : State) (o : Outgoing) : (s.deliver o).packetOf = s.packetOf := by
  funext p
  unfold packetOf
  rw [(deliver_delivers s o).ports]

theorem State.deliver_port_of (s : State) (o : Outgoing) {k : Nat} (hk : k < 3) (ho : portOf o.dest.via = k) :
    (s.deliver o).port k = (s.port k).queue0 (s.packetOf o) := by
  subst ho
  unfold deliver
  split
  · next hvia => simp [hvia, portOf] at hk
  · simp only [port, modPort_ports, vget_vmod_self _ _ _ hk]
    rfl

theorem State.deliver_port_of_ne (s : State) (o : Outgoing) {k : Nat} (ho : portOf o.dest.via ≠ k) :
    (s.deliver o).port k = s.port k := by
  unfold deliver
  split
  · rfl
  · simp only [port, modPort_ports, vget_vmod_ne _ _ _ _ ho]

theorem State.deliver_rspWaiting (s : State) (o : Outgoing) :
    (s.deliver o).rings.rspWaiting = s.rings.rspWaiting ++ if portOf o.dest.via == 3 then [o.bytes] else [] := by
  unfold deliver
  cases o.dest.via <;> simp [portOf]

theorem State.each_deliver_cons (s : State) (o : Outgoing) (l : List Outgoing) :
    s.each (o :: l) deliver = (s.deliver o).each l deliver := rfl

/-- Frames for a port go to the end of its queue 0, in their order. -/
theorem State.each_deliver_port (l : List Outgoing) (s : State) {k : Nat} (hk : k < 3) :
    ((s.each l deliver).port k).q0 = (s.port k).q0 ++ (l.filter fun o => portOf o.dest.via == k).map s.packetOf
    ∧ ((s.each l deliver).port k).txFrames = (s.port k).txFrames + BitVec.ofNat 64 (l.filter fun o => portOf o.dest.via == k).length := by
  induction l generalizing s with
  | nil => simp [each]
  | cons o l ih =>
    obtain ⟨hq0, htx⟩ := ih (s.deliver o)
    rw [each_deliver_cons, hq0, htx, deliver_packetOf]
    by_cases ho : portOf o.dest.via = k
    · rw [deliver_port_of s o hk ho, List.filter_cons_of_pos (by simpa using ho), List.map_cons, List.length_cons, Nat.add_comm,
        BitVec.ofNat_add, ← BitVec.add_assoc]
      simp [Port.queue0]
    · rw [deliver_port_of_ne s o ho, List.filter_cons_of_neg (by simpa using ho)]
      simp

/-- Frames for the response ring wait, in their order. -/
theorem State.each_deliver_rspWaiting (l : List Outgoing) (s : State) :
    (s.each l deliver).rings.rspWaiting = s.rings.rspWaiting ++ (l.filter fun o => portOf o.dest.via == 3).map (·.bytes) := by
  induction l generalizing s with
  | nil => simp [each]
  | cons o l ih =>
    rw [each_deliver_cons, ih, deliver_rspWaiting, List.append_assoc, List.filter_cons]
    split <;> simp

/-! ## Closing -/

theorem settle_port (s0 s : State) (k : Nat) :
    (State.settle s0 s).port k = ((placed s).each (placed s).jr.outgoing State.deliver).port k := rfl

theorem settle_rings (s0 s : State) :
    (State.settle s0 s).rings = ((placed s).each (placed s).jr.outgoing State.deliver).rings.settle := rfl

theorem placed_outgoing (s : State) : (placed s).jr.outgoing = s.jr.outgoing := by rw [(placed_closes s).2.1]

theorem placed_rings (s : State) : (placed s).rings = s.rings := (placed_closes s).1.2 .rings (by decide)

theorem placed_port (s : State) (k : Nat) : (placed s).port k = s.port k :=
  congrArg (vget · k) ((placed_closes s).1.2 .ports (by decide))

theorem placed_packetOf (s : State) : (placed s).packetOf = s.packetOf := by
  funext o
  unfold State.packetOf
  rw [placed_port]

/-- What closing makes of the response ring. -/
theorem settle_drained (s0 s : State) : ∃ written, Rings.Drained
    { s.rings with rspWaiting := s.rings.rspWaiting ++ (s.jr.outgoing.filter fun o => portOf o.dest.via == 3).map (·.bytes) }
    (State.settle s0 s).rings written := by
  have hdelivers := (each_deliver_delivers (placed s) (placed s).jr.outgoing).rings
  rw [State.each_deliver_rspWaiting, placed_rings, placed_outgoing] at hdelivers
  rw [settle_rings, placed_outgoing, ← hdelivers]
  exact Rings.settle_drained _

/-- Settles O8: ports by `each_deliver_port`, the response ring by `settle_drained`. -/
theorem responseFramesLeaveInOrder : Obligations.ResponseFramesLeaveInOrder := by
  unfold Obligations.ResponseFramesLeaveInOrder
  intro s0 s e packet
  refine ⟨by rw [(settle_closes s0 s).jr], fun k hk => ?_, ?_⟩
  · have h := State.each_deliver_port s.jr.outgoing (placed s) hk
    rw [placed_packetOf, placed_port] at h
    rw [settle_port, placed_outgoing]
    exact h
  · obtain ⟨written, h⟩ := settle_drained s0 s
    exact ⟨written, h.waiting, h.prod, h.ram, h.full, rfl⟩


end Sys2Proof.Machine
end

section
/-! The memory of the rings: what a write to a register makes of it (R13, R454, R641), and the settlement of O11. -/

namespace Sys2Proof.Machine

/-! ## Reads after writes -/

theorem memGet_memWrite_of_not_mem {m : List Host.Cell} (hm : Memory.wf m = true) {k j : Nat} {bs : Bytes}
    (h : j < k ∨ k + bs.length ≤ j) : memGet (memWrite m k bs) j = memGet m j := by
  induction bs generalizing m k with
  | nil => rfl
  | cons b bs ih =>
    rw [List.length_cons] at h
    rw [memWrite, ih (memSet_wf m k b hm) (by omega), memGet_memSet m k j b hm, if_neg (by omega)]

theorem memRead_memWrite {m : List Host.Cell} (hm : Memory.wf m = true) (k : Nat) (bs : Bytes) :
    memRead (memWrite m k bs) k bs.length = bs := by
  induction bs generalizing m k with
  | nil => rfl
  | cons b bs ih =>
    have hset := memSet_wf m k b hm
    rw [List.length_cons, memRead, memWrite, ih hset, memGet_memWrite_of_not_mem hset (by omega), memGet_memSet m k k b hm, if_pos rfl]

theorem memGet_ringWrite_of_not_mem {m : List Host.Cell} (hm : Memory.wf m = true) {base k : Nat} (off : Nat) (bs : Bytes)
    (h : k < base ∨ base + 16384 ≤ k) : memGet (ringWrite m base off bs) k = memGet m k := by
  induction bs generalizing m off with
  | nil => rfl
  | cons b bs ih =>
    have hoff := Nat.mod_lt off (show 0 < 16384 by decide)
    rw [ringWrite, ih (memSet_wf m _ b hm), memGet_memSet m _ k b hm, if_neg (by omega)]

theorem length_leBytes (n v : Nat) : (leBytes n v).length = n := by
  induction n generalizing v with
  | zero => rfl
  | succ n ih => rw [leBytes, List.length_cons, ih]

theorem leNat_leBytes (n v : Nat) : leNat (leBytes n v) = v % 256 ^ n := by
  induction n generalizing v with
  | zero => rw [leBytes, leNat, Nat.pow_zero, Nat.mod_one]
  | succ n ih =>
    have hdigit : v % 256 ^ (n + 1) = v % 256 + 256 * (v / 256 % 256 ^ n) := by rw [Nat.pow_succ', Nat.mod_mul]
    rw [hdigit, leBytes, leNat, ih, BitVec.toNat_ofNat]

theorem ofNat_leNat_w32 (v : U32) : BitVec.ofNat 32 (leNat (w32 v.toNat)) = v := by
  have hv := v.isLt
  rw [w32, leNat_leBytes]
  refine BitVec.eq_of_toNat_eq ?_
  rw [BitVec.toNat_ofNat]
  omega

/-! ## The write (R13) -/

/-- Whether a write to a register stores to the memory of the rings. -/
def State.storesTo (s : State) (a : Nat) : Bool :=
  s.power.released && a % 4 == 0 && decide (0x10000 ≤ a) && decide (a < 0x1C000)

/-- What waits to go out is the same, and the block is as released as before. -/
structure KeepsWaiting (s e : State) : Prop where
  rspWaiting : e.rings.rspWaiting = s.rings.rspWaiting
  outgoing : e.jr.outgoing = s.jr.outgoing
  released : e.power.released = s.power.released

/-- The memory of the rings is the same besides. -/
structure KeepsMemory (s e : State) : Prop extends KeepsWaiting s e where
  ram : e.rings.ram = s.rings.ram

theorem KeepsMemory.of_eq {s e : State} (hrings : e.rings = s.rings) (hjr : e.jr = s.jr) (hpower : e.power = s.power) : KeepsMemory s e :=
  ⟨⟨by rw [hrings], by rw [hjr], by rw [hpower]⟩, by rw [hrings]⟩

theorem KeepsMemory.refl (s : State) : KeepsMemory s s := .of_eq rfl rfl rfl

theorem KeepsMemory.trans {s e u : State} (h1 : KeepsMemory s e) (h2 : KeepsMemory e u) : KeepsMemory s u :=
  ⟨⟨h2.rspWaiting.trans h1.rspWaiting, h2.outgoing.trans h1.outgoing, h2.released.trans h1.released⟩, h2.ram.trans h1.ram⟩

theorem keepsMemory_modRings (s : State) {f : Rings → Rings} (hram : (f s.rings).ram = s.rings.ram)
    (hwaiting : (f s.rings).rspWaiting = s.rings.rspWaiting) : KeepsMemory s (s.modRings f) := ⟨⟨hwaiting, rfl, rfl⟩, hram⟩

theorem keepsMemory_cmdFrameErrorClear (b : Bool) (s : State) : KeepsMemory s (effectCmdFrameErrorClear b s) := by
  unfold effectCmdFrameErrorClear
  split
  · exact keepsMemory_modRings _ rfl rfl
  · exact .refl s

theorem keepsMemory_ringReset (s : State) : KeepsMemory s (effectRingReset s) := by
  unfold effectRingReset
  split
  · exact keepsMemory_modRings _ rfl rfl
  · exact .refl s

theorem keepsMemory_snap (s : State) : KeepsMemory s (effectSnap s) := by
  unfold effectSnap
  split
  · exact .of_eq rfl rfl rfl
  · exact .refl s

theorem keepsMemory_writeSnapCtrl (v : U32) (s : State) : KeepsMemory s (s.writeSnapCtrl v) := by
  have hset : KeepsMemory s (s.modTime fun t => { t with snapOnSync := v.getLsbD 1 }) := .of_eq rfl rfl rfl
  unfold State.writeSnapCtrl
  split
  · exact hset.trans (keepsMemory_snap _)
  · exact hset

theorem keepsMemory_eventSummaryClear (w : Fin 48) (v set : U32) (s : State) : KeepsMemory s (effectEventSummaryClear w v set s) := by
  unfold effectEventSummaryClear
  split
  · exact .of_eq rfl rfl rfl
  · exact .refl s

/-- A write that does not store, to a register other than the doorbell. -/
theorem keepsMemory_registerWrite {addr v : U32} {s : State} (hbell : addr.toNat ≠ 0x118) (hstores : s.storesTo addr.toNat = false) :
    KeepsMemory s (effectRegisterWrite addr v s) := by
  unfold effectRegisterWrite
  extract_lets a index
  split
  · exact .refl s
  split
  · exact keepsMemory_modRings _ rfl rfl
  split
  · exact keepsMemory_modRings _ rfl rfl
  split
  · exact keepsMemory_modRings _ rfl rfl
  split
  · split
    · exact keepsMemory_cmdFrameErrorClear _ _
    · exact .refl s
  split
  · split
    · exact keepsMemory_ringReset _
    · exact .refl s
  split
  · exact keepsMemory_writeSnapCtrl _ _
  split
  · exact keepsMemory_eventSummaryClear _ _ _ _
  split
  · next h => simp_all [State.storesTo, a]
  · exact .refl s

/-- A write that stores. -/
theorem effectRegisterWrite_of_stores {addr v : U32} {s : State} (hstores : s.storesTo addr.toNat = true) :
    effectRegisterWrite addr v s =
      s.modRings fun r => { r with ram := memWrite r.ram (addr.toNat - 0x10000) (w32 v.toNat) } := by
  simp only [State.storesTo, Bool.and_eq_true, beq_iff_eq, decide_eq_true_eq] at hstores
  obtain ⟨⟨⟨hreleased, hword⟩, hlow⟩, hhigh⟩ := hstores
  unfold effectRegisterWrite
  dsimp only
  rw [if_neg (by simp [hreleased, hword]), if_neg (by omega), if_neg (by omega), if_neg (by omega), if_neg (by omega), if_neg (by omega),
    if_neg (by omega), if_neg (by omega), if_neg (by omega), if_pos ⟨hlow, hhigh⟩]

theorem keepsWaiting_registerWrite {addr v : U32} {s : State} (hbell : addr.toNat ≠ 0x118) : KeepsWaiting s (effectRegisterWrite addr v s) := by
  cases hstores : s.storesTo addr.toNat with
  | false => exact (keepsMemory_registerWrite hbell hstores).toKeepsWaiting
  | true =>
    rw [effectRegisterWrite_of_stores hstores]
    exact ⟨rfl, rfl, rfl⟩

/-- Beside the four bytes of the word a write leaves the memory alone. -/
theorem memGet_registerWrite {addr v : U32} {s : State} (hgood : s.Good) (hbell : addr.toNat ≠ 0x118) {k : Nat}
    (hout : s.storesTo addr.toNat = false ∨ k < addr.toNat - 0x10000 ∨ addr.toNat - 0x10000 + 4 ≤ k) :
    memGet (effectRegisterWrite addr v s).rings.ram k = memGet s.rings.ram k := by
  cases hstores : s.storesTo addr.toNat with
  | false => rw [(keepsMemory_registerWrite hbell hstores).ram]
  | true =>
    rw [effectRegisterWrite_of_stores hstores]
    exact memGet_memWrite_of_not_mem hgood (hout.resolve_left (by simp [hstores]))

/-- Outside the response ring closing a command leaves the memory alone, and with nothing on its way out it does so everywhere. -/
theorem memGet_settle (s0 : State) {s : State} (hgood : s.Good) {k : Nat} (hk : k < rspBase ∨ evtBase ≤ k) :
    memGet (State.settle s0 s).rings.ram k = memGet s.rings.ram k := by
  obtain ⟨written, h⟩ := settle_drained s0 s
  rw [h.ram]
  exact memGet_ringWrite_of_not_mem hgood _ _ hk

theorem settle_ram_of_none_waiting (s0 : State) {s : State} (hwaiting : s.rings.rspWaiting = []) (hout : s.jr.outgoing = []) :
    (State.settle s0 s).rings.ram = s.rings.ram := by
  obtain ⟨written, h⟩ := settle_drained s0 s
  have hnone : written = [] := by
    have hw := h.waiting
    simp only [hwaiting, hout, List.filter_nil, List.map_nil, List.append_nil] at hw
    exact (List.append_eq_nil_iff.mp hw.symm).1
  rw [h.ram, hnone]
  rfl

theorem windowWord_ram {s : State} {a : Nat} (hstores : s.storesTo a = true) :
    s.windowWord a = BitVec.ofNat 32 (leNat (memRead s.rings.ram (a - 0x10000) 4)) := by
  simp only [State.storesTo, Bool.and_eq_true, beq_iff_eq, decide_eq_true_eq] at hstores
  obtain ⟨⟨⟨hreleased, hword⟩, hlow⟩, hhigh⟩ := hstores
  unfold State.windowWord
  rw [if_neg (by simp [hreleased]), if_neg (by simp [hword]), if_neg (by omega), if_neg (by omega), if_neg (by omega), if_neg (by omega),
    if_neg (by omega), if_neg (by omega), if_neg (by omega), if_neg (by omega), if_neg (by omega), if_pos ⟨hlow, hhigh⟩]

/-- Settles O11: the write by `memGet_registerWrite` and `effectRegisterWrite_of_stores`, the closing by `settle_drained`. -/
theorem ringMemoryHoldsWhatIsWritten : Obligations.RingMemoryHoldsWhatIsWritten := by
  unfold Obligations.RingMemoryHoldsWhatIsWritten
  intro t addr v s a stores hgood
  have hgood' : (effectRegisterWrite addr v (s.advance t)).Good := (keeps_registerWrite addr v (s.advance t)).ram hgood
  refine ⟨State.settle s (effectRegisterWrite addr v (s.advance t)), rfl, fun hbell k hk hout => ?_, fun hbell hwaiting hnone => ?_⟩
  · rw [memGet_settle s hgood' hk]
    exact memGet_registerWrite (s := s.advance t) hgood hbell hout
  · have hkeeps : KeepsWaiting (s.advance t) (effectRegisterWrite addr v (s.advance t)) := keepsWaiting_registerWrite hbell
    have hram := settle_ram_of_none_waiting s (hkeeps.rspWaiting.trans hwaiting) (hkeeps.outgoing.trans hnone)
    refine ⟨fun hstores => ?_, fun k hout => ?_⟩
    · have hpower := (settle_closes s (effectRegisterWrite addr v (s.advance t))).power
      have hreads : (State.settle s (effectRegisterWrite addr v (s.advance t))).storesTo a = true := by
        unfold State.storesTo
        rw [hpower]
        dsimp only
        rw [hkeeps.released]
        exact hstores
      rw [windowWord_ram hreads, hram, effectRegisterWrite_of_stores (s := s.advance t) hstores]
      exact (congrArg (BitVec.ofNat 32 <| leNat ·) (memRead_memWrite hgood _ (w32 v.toNat))).trans (ofNat_leNat_w32 v)
    · rw [hram]
      exact memGet_registerWrite (s := s.advance t) hgood hbell hout

end Sys2Proof.Machine
end

section
/-! Occurrences in the event queues (R517 to R523), and the settlement of O9. -/

namespace Sys2Proof.Machine

/-! ## One queue (R518 to R523) -/

theorem lmod_length_append_singleton {α : Type} (l : List α) (x : α) (f : α → α) : lmod (l ++ [x]) l.length f = l ++ [f x] := by
  induction l with
  | nil => rfl
  | cons a l ih => rw [List.cons_append, List.length_cons, lmod, ih, List.cons_append]

theorem Tenant.merges_eq (t : Tenant) (o : Occurrence) : t.merges o =
    (t.queue.getLast?.map fun x => !x.pushed && !x.lost && x.id == o.id && x.payload == o.payload).getD false := by
  unfold merges
  cases t.queue.getLast? <;> rfl

section
variable {t : Tenant} {o : Occurrence}

theorem Tenant.offer_of_not_subscribed (h : t.active = false ∨ t.eventMask.getLsbD o.id = false) : t.offer o = t := by
  unfold offer
  rw [if_pos (by simpa using h)]

theorem Tenant.offer_of_subscribed (hactive : t.active = true) (hmask : t.eventMask.getLsbD o.id = true) : t.offer o =
    if t.merges o then { t with queue := lmod t.queue (t.queue.length - 1) fun e => { e with rep := min 255 (e.rep + 1) } }
    else if t.lostOpen || decide (t.eventDepth ≤ t.queue.length + 1) then t.loseEvent o
    else { t with
      eventSeq := t.eventSeq + 1
      queue := t.queue ++ [{ seq := t.eventSeq, id := o.id, rep := 1, tsb := o.tsb, vt := vt80 o.vt
                             generation := o.generation, payload := o.payload, pushed := false, lost := false }] } := by
  unfold offer
  rw [if_neg (by simp [hactive, hmask])]

end

/-! ## All queues (R517, R521) -/

theorem State.offerTo_tenant (s : State) (o : Occurrence) (r i : Nat) :
    (s.offerTo o r).tenant i = if r = i ∧ r < 256 then (s.tenant i).offer o else s.tenant i := by
  unfold offerTo
  extract_lets t t' offered
  have hoffered : offered.tenant i = if r = i ∧ r < 256 then (s.tenant i).offer o else s.tenant i := by
    simp only [offered, tenant, modTenant_tenants, vget_vmod]
    split
    · next h =>
      rw [← h.1]
      rfl
    · rfl
  rw [← hoffered]
  split <;> rfl

theorem State.each_offerTo_tenant (o : Occurrence) (l : List (Fin 256)) (s : State) (i : Nat) :
    (s.each (l.map (·.val)) fun s r => s.offerTo o r).tenant i =
      (l.filter fun r => r.val == i).foldl (fun t _ => t.offer o) (s.tenant i) := by
  induction l generalizing s with
  | nil => rfl
  | cons r l ih =>
    have hcons : (s.each ((r :: l).map (·.val)) fun s r => s.offerTo o r) =
        (s.offerTo o r.val).each (l.map (·.val)) fun s r => s.offerTo o r := rfl
    rw [hcons, ih, offerTo_tenant, List.filter_cons]
    by_cases hr : r.val = i
    · have hi : i < 256 := hr ▸ r.isLt
      simp [hr, hi]
    · simp [hr]

theorem State.each_place_tenant (l : List Occurrence) (s : State) (i : Nat) : (s.each l place).tenant i =
    l.foldl (fun t o => (o.recips.filter fun r => r.val == i).foldl (fun t _ => t.offer o) t) (s.tenant i) := by
  induction l generalizing s with
  | nil => rfl
  | cons o l ih =>
    have hcons : s.each (o :: l) place = (s.place o).each l place := rfl
    rw [hcons, ih, List.foldl_cons, ← each_offerTo_tenant]
    rfl

/-! ## Closing -/

theorem settle_outbox (s0 s : State) : (State.settle s0 s).jr.outbox = (placed s).jr.outbox := rfl

theorem settle_tenants (s0 s : State) : (State.settle s0 s).tenants = (placed s).tenants :=
  (each_deliver_delivers (placed s) (placed s).jr.outgoing).rest.2 .tenants (by decide)

theorem settle_summary (s0 s : State) : (State.settle s0 s).summary = (placed s).summary :=
  (each_deliver_delivers (placed s) (placed s).jr.outgoing).rest.2 .summary (by decide)

theorem placed_of_culmUp {s : State} (h : s.power.culmUp = true) : placed s = s.placeOccurrences := if_pos h

theorem placed_of_not_culmUp {s : State} (h : s.power.culmUp = false) : placed s = s := if_neg (by simp [h])

/-- Settles O9. -/
theorem occurrencesEnterTheEventQueues : Obligations.OccurrencesEnterTheEventQueues := by
  unfold Obligations.OccurrencesEnterTheEventQueues
  refine ⟨fun s0 s => ⟨fun hup => ?_, fun hdown => ?_⟩, fun t o => ⟨Tenant.offer_of_not_subscribed, fun hactive hmask => ?_⟩⟩
  · rw [settle_outbox, placed_of_culmUp hup]
    refine ⟨rfl, fun i _ => ?_⟩
    have htenant : (State.settle s0 s).tenant i = (s.each s.jr.outbox State.place).tenant i := by
      unfold State.tenant
      rw [settle_tenants, placed_of_culmUp hup]
      rfl
    rw [htenant, State.each_place_tenant]
  · rw [settle_outbox, settle_tenants, settle_summary, placed_of_not_culmUp hdown]
    exact ⟨rfl, rfl, rfl⟩
  · rw [Tenant.offer_of_subscribed hactive hmask, ← Tenant.merges_eq]
    refine ⟨fun l x hmerges hqueue => ?_, fun hmerges hopen hroom => ?_, fun hmerges hopen hfull => ?_, fun hmerges hopen => ?_⟩
    · rw [if_pos hmerges, hqueue, List.length_append, List.length_singleton, Nat.add_sub_cancel, lmod_length_append_singleton]
    · rw [if_neg (by simp [hmerges]), if_neg (by simpa [hopen] using hroom)]
    · rw [if_neg (by simp [hmerges]), if_pos (by simp [hfull]), Tenant.loseEvent]
      simp [hopen, lostPayload]
    · rw [if_neg (by simp [hmerges]), if_pos (by simp [hopen]), Tenant.loseEvent]
      simp [hopen]

end Sys2Proof.Machine
end

section
/-! Rows that close one effect: what each `Gives` names is the effect of the row at its tick, written out. The settlement of O15, O18, O21,
O23, O24, O26 to O33, O37 to O39, O41 and O43 to O45. -/

namespace Sys2Proof.Machine

/-- A row whose effect is named `effect` in the model gives what a statement writes out as `e`, where the two are one state. -/
theorem gives_effect {c : Instr} {t : Nat} {s : State} {e : State → State} (effect : State → State)
    (hexec : exec c s = .next (State.settle s (effect (s.advance t)))) (heffect : e (s.advance t) = effect (s.advance t)) :
    Gives c t s e := by
  refine ⟨_, hexec, ?_⟩
  rw [heffect]
  exact settle_closes _ _

theorem gives_of_exec {c : Instr} {t : Nat} {s s0 : State} {e : State → State}
    (h : exec c s = .next (State.settle s0 (e (s.advance t)))) : Gives c t s e := ⟨_, h, settle_closes _ _⟩

theorem State.modTime_modTime (s : State) (f g : TimeBase → TimeBase) : (s.modTime f).modTime g = s.modTime fun x => g (f x) := rfl

theorem State.modTime_congr {s : State} {f g : TimeBase → TimeBase} (h : f s.time = g s.time) : s.modTime f = s.modTime g := by
  simp only [modTime, h]

/-- R60, R63: the time base after a step of the phase. -/
def TimeBase.stepped (off : Int) (x : TimeBase) : TimeBase :=
  { x.moveEdges (-off) with secStart := ((x.secStart : Int) + (off * ticksPerSec + 2 ^ 47) / 2 ^ 48).toNat, ppsOffset := 0 }

/-- The time base under another label of the present second. -/
def TimeBase.named (l : Int) (x : TimeBase) : TimeBase :=
  { x.moveEdges ((l - x.vtSec.toNat) * 2 ^ 48) with vtSec := BitVec.ofInt 48 l, irigDelta := 0 }

/-- R60: the phase the start-up wait ends with. -/
def TimeBase.withPhase (clock : Nat) (x : TimeBase) : TimeBase :=
  if x.ppsValid then { x.stepped x.ppsOffset.toInt with ppsAligned := true, phaseSource := 1, ppsAlignBad := 0 }
  else if x.irigValid ∧ x.cfg.irigMode = 1 then { x.stepped (boundaryOffset x.irigOn) with phaseSource := 2 }
  else
    let n := (clock - x.secStart) / 100 * 100
    { x.moveEdges (-(((n * 2 ^ 48 : Nat) / ticksPerSec : Nat) : Int)) with secStart := x.secStart + n, phaseSource := 0 }

/-- R60: the label the start-up wait ends with. -/
def TimeBase.withLabel (x : TimeBase) : TimeBase :=
  if x.irigValid then { x.named x.irigNow with labelValid := true, labelSource := 1 }
  else { x.named ((x.savedVtSec.toNat : Int) + 1) with labelSource := 3 }

theorem State.stepPhase_eq (s : State) (off : Int) : s.stepPhase off = s.modTime (.stepped off) := rfl

theorem State.setLabel_eq (s : State) (l : Int) : s.setLabel l = s.modTime (.named l) := rfl

theorem State.modTime_withPhase (s : State) :
    (if s.time.ppsValid then s.alignToPps
      else if s.time.irigValid && s.time.cfg.irigMode == 1 then
        (s.stepPhase (boundaryOffset s.time.irigOn)).modTime fun x => { x with phaseSource := 2 }
      else s.startAtGrandTick) = s.modTime (.withPhase s.clock) := by
  simp only [alignToPps, startAtGrandTick, stepPhase_eq, modTime_modTime, Bool.and_eq_true, beq_iff_eq]
  split
  · next hpps => exact modTime_congr (if_pos hpps).symm
  · next hpps =>
    split
    · next hirig => exact modTime_congr ((if_neg hpps).trans (if_pos hirig)).symm
    · next hirig => exact modTime_congr ((if_neg hpps).trans (if_neg hirig)).symm

theorem State.modTime_withLabel (s : State) :
    (if s.time.irigValid then (s.setLabel s.time.irigNow).modTime fun x => { x with labelValid := true, labelSource := 1 }
      else (s.setLabel ((s.time.savedVtSec.toNat : Int) + 1)).modTime fun x => { x with labelSource := 3 }) = s.modTime .withLabel := by
  rw [setLabel_eq, setLabel_eq, modTime_modTime, modTime_modTime]
  split
  · next hirig => exact modTime_congr (if_pos hirig).symm
  · next hirig => exact modTime_congr (if_neg hirig).symm

/-- R60: the start-up wait ends with a phase, then with a label. -/
theorem State.alignNow_eq (s : State) :
    s.alignNow = s.modTime fun x => (TimeBase.withPhase s.clock { x with aligning := false }).withLabel := by
  unfold alignNow
  dsimp only
  rw [modTime_withPhase, modTime_withLabel, modTime_modTime, modTime_modTime, modTime_clock]

theorem State.alignNow_power (s : State) : s.alignNow.power = s.power := by rw [alignNow_eq, modTime_power]

theorem effectAlignWaitTimeout_eq (s : State) : effectAlignWaitTimeout s =
    if !s.time.aligning then s
    else if s.power.lateLock then (s.alignNow.modPower fun p => { p with lateLock := false }).raise 0x5C2 (w8 1 ++ w8 1)
    else s.alignNow := by
  unfold effectAlignWaitTimeout State.alignVt
  cases s.time.aligning <;> simp [State.alignNow_power]

/-- Settles O18: the ending of the wait by `alignNow_eq`. -/
theorem alignmentSnapshotAndSave : Obligations.AlignmentSnapshotAndSave := by
  unfold Obligations.AlignmentSnapshotAndSave
  intro t s moved step phase named label aligned
  refine ⟨gives_effect effectAlignWaitTimeout rfl ?_, gives_effect effectVtSecondSave rfl rfl, gives_effect effectSnap rfl rfl⟩
  rw [effectAlignWaitTimeout_eq, State.alignNow_eq]
  rfl

/-- Settles O15. -/
theorem ppsInputIsJudged : Obligations.PpsInputIsJudged := by
  unfold Obligations.PpsInputIsJudged
  intro t tag s e off near judge edge
  exact ⟨
    gives_effect (fun a => (effectPpsEdge tag a).alignWhenReady) rfl rfl,
    gives_effect effectPpsActivityTimeout rfl rfl⟩

/-- Settles O21. -/
theorem streamsAndTransfersAdvance : Obligations.StreamsAndTransfersAdvance := by
  unfold Obligations.StreamsAndTransfersAdvance
  intro t s0 stop
  exact ⟨
    fun journal => gives_effect (effectTransferResolveTimeout journal) rfl rfl,
    fun journal => gives_effect (effectTransferFrameSend journal) rfl rfl,
    fun stream => gives_effect (effectStreamFrameSend stream) rfl rfl,
    fun stream => gives_effect (effectStreamLag stream) rfl rfl,
    fun stream => gives_effect (effectStreamLeaseExpire stream) rfl rfl⟩

/-- Settles O23. -/
theorem commitStepRuns : Obligations.CommitStepRuns := by
  unfold Obligations.CommitStepRuns
  intro t s0
  exact ⟨
    gives_effect effectPreparationWindowClose rfl rfl,
    fun silentNodes silentSheaves => gives_effect (effectSwitchArm silentNodes silentSheaves) rfl rfl,
    gives_effect effectCommitRecordWrite rfl rfl,
    gives_effect effectDomainWindowClose rfl rfl,
    gives_effect effectDomainGoDecision rfl rfl⟩

/-- Settles O24. -/
theorem conversionAndComparators : Obligations.ConversionAndComparators := by
  unfold Obligations.ConversionAndComparators
  intro t s0 offerSlope
  exact ⟨
    fun c rising tag => gives_effect (fun a => effectComparatorEdge c rising tag a.tillerNow) rfl rfl,
    fun c high => gives_effect (effectComparatorMaskEnd c high) rfl rfl,
    fun _ => gives_of_exec rfl,
    fun c => gives_effect (effectComparatorFault c) rfl rfl,
    fun c slice d => gives_effect (effectSliceFaultDetect c slice d) rfl rfl,
    fun c spareFails inServiceFails => gives_effect (effectShadowCheckDone c spareFails inServiceFails) rfl rfl,
    fun c => gives_effect (effectShadowSlewEnd c) rfl rfl⟩

/-- Settles O26. -/
theorem awnLanes : Obligations.AwnLanes := by
  unfold Obligations.AwnLanes
  intro t s0
  exact ⟨
    fun source lane => gives_effect (effectAwnDensityCheck source lane) rfl rfl,
    fun source lane tapHits vernHits => gives_effect (effectAwnCheckDone source lane tapHits vernHits) rfl rfl,
    fun source lane loop => gives_effect (effectAwnLoopUnlock source lane loop) rfl rfl,
    fun source lane relocked => gives_effect (effectAwnRelockAttempt source lane relocked) rfl rfl,
    fun source lane tap count => gives_effect (effectAwnConversionDone source lane tap count) rfl rfl⟩

/-- Settles O27. -/
theorem stampQueuesMove : Obligations.StampQueuesMove := by
  unfold Obligations.StampQueuesMove
  intro t s0
  exact ⟨
    fun source => gives_effect (effectStampQueueDrain source) rfl rfl,
    fun source upTo => gives_effect (effectCompleteToUpdate source upTo) rfl rfl,
    fun input rising tag => gives_effect (effectTiEdge input rising tag) rfl rfl⟩

/-- Settles O28. -/
theorem triggersAndTiller : Obligations.TriggersAndTiller := by
  unfold Obligations.TriggersAndTiller
  intro t s0 expire sample offerSlope
  exact ⟨
    fun input rising tag => gives_effect (fun a => effectTrigInEdge input rising tag a.tillerNow) rfl rfl,
    fun route hit => gives_effect (fun a => effectDigitalTriggerFire route hit a.tillerNow) rfl rfl,
    fun route => gives_effect (fun a => effectScheduledTrigger route a.tillerNow) rfl rfl,
    fun out => gives_effect (fun a => effectTrigOutEdge out a.tillerNow) rfl rfl,
    fun out => gives_effect (fun a => effectTrigOutPulseEnd out a.tillerNow) rfl rfl,
    gives_effect effectTillerTransition rfl rfl,
    fun timer => gives_effect (effectTillerTimerExpire timer) rfl rfl⟩

/-- Settles O29. -/
theorem rachisBurstsAndMessages : Obligations.RachisBurstsAndMessages := by
  unfold Obligations.RachisBurstsAndMessages
  intro t s0
  exact ⟨
    fun port a => gives_effect (effectBurstAReceive port a) rfl rfl,
    fun port => gives_effect (effectBurstATimeout port) rfl rfl,
    fun port pair => gives_effect (effectBurstBReceive port pair) rfl rfl,
    fun port => gives_effect (fun a => a.linkDown port.val) rfl rfl,
    fun port m => gives_effect (effectTriggerMessage port m) rfl rfl,
    fun port m => gives_effect (effectSyncMessage port m) rfl rfl,
    gives_effect effectRachisSyncInstant rfl rfl,
    fun port m => gives_effect (effectCommitReady port m) rfl rfl,
    fun port m => gives_effect (effectCommitRefuse port m) rfl rfl,
    fun port m => gives_effect (effectCommitGo port m) rfl rfl,
    fun port m => gives_effect (effectCommitAbort port m) rfl rfl,
    fun port tenant second member => gives_effect (effectCommitLossReport port tenant second member) rfl rfl⟩

/-- Settles O30. -/
theorem rachisDelayAndTime : Obligations.RachisDelayAndTime := by
  unfold Obligations.RachisDelayAndTime
  intro t s0
  exact ⟨
    fun port m t2 => gives_effect (effectDelayRequest port m t2) rfl rfl,
    fun port m t2 t4 => gives_effect (effectDelayResponse port m t2 t4) rfl rfl,
    fun port m arrival => gives_effect (effectTimeMessage port m arrival) rfl rfl,
    fun port => gives_effect (effectDelayExchangeTimer port) rfl rfl⟩

/-- Settles O31. -/
theorem captureRecordsClose : Obligations.CaptureRecordsClose := by
  unfold Obligations.CaptureRecordsClose
  intro t s0
  exact ⟨
    fun c d => gives_effect (effectSegmentEnd c d) rfl rfl,
    fun c => gives_effect (effectSegmentDrained c) rfl rfl,
    fun c d => gives_effect (effectCircularDone c d) rfl rfl,
    fun c d => gives_effect (effectBlockRecordEnd c d) rfl rfl,
    fun c d => gives_effect (effectEarFifoFull c d) rfl rfl,
    fun c start raw => gives_effect (effectAccumRecordAdd c start raw) rfl rfl,
    fun c => gives_effect (effectAccumCopyDone c) rfl rfl,
    fun ring consumer => gives_effect (fun a => a.modRing ring (·.release consumer)) rfl rfl⟩

/-- Settles O32. -/
theorem gatesAndWaitingWriters : Obligations.GatesAndWaitingWriters := by
  unfold Obligations.GatesAndWaitingWriters
  intro t s0
  exact ⟨
    fun ring => gives_effect (effectRingWriterResume ring) rfl rfl,
    fun inst => gives_effect (effectGateClose inst) rfl rfl,
    fun inst bodies => gives_effect (effectEngineGateClose inst bodies) rfl rfl⟩

/-- Settles O33. -/
theorem engineServiceCalls : Obligations.EngineServiceCalls := by
  unfold Obligations.EngineServiceCalls
  intro t s0
  exact ⟨
    fun e g1 => gives_effect (effectFetch e g1) rfl rfl,
    fun e g1 buffer => gives_effect (effectEmit e g1 buffer) rfl rfl,
    fun e given => gives_effect (effectEndUnit e given) rfl rfl,
    fun _ _ => gives_of_exec rfl,
    fun e g1 => gives_effect (effectUnitTime e g1) rfl rfl⟩

/-- Settles O37. -/
theorem winnowBlocks : Obligations.WinnowBlocks := by
  unfold Obligations.WinnowBlocks
  intro t s0
  exact ⟨
    fun job => gives_effect (effectWinnowFlushTimer job) rfl rfl,
    fun lane mismatch => gives_effect (effectWinnowBlockDone lane mismatch) rfl rfl,
    fun _ _ _ _ _ => gives_of_exec rfl⟩

/-- Settles O38. -/
theorem granaryWritesAndReads : Obligations.GranaryWritesAndReads := by
  unfold Obligations.GranaryWritesAndReads
  intro t s0 bad rebuilds
  exact ⟨
    fun die block erase ok micros => gives_effect (effectGranaryProgramDone die block erase ok micros) rfl rfl,
    fun job => gives_effect (fun a => (a.serveArchive.sealJob job.val).serveArchive) rfl rfl,
    fun id die block outcome => gives_effect (effectGranaryRead id die block outcome) rfl rfl,
    fun die block worstBits shifted => gives_effect (effectGleanBlockScrub die block worstBits shifted) rfl rfl,
    fun cassette => gives_effect (fun a => a.checkpoint cassette.val) rfl rfl,
    fun die medianMicros => gives_effect (effectBenchTrial die medianMicros) rfl rfl,
    fun job => gives_effect (effectArchiveStallTimeout job) rfl rfl⟩

/-- Settles O39. -/
theorem cassettesComeAndGo : Obligations.CassettesComeAndGo := by
  unfold Obligations.CassettesComeAndGo
  intro t s0
  exact ⟨
    fun cassette => gives_effect (effectCassetteInsert cassette) rfl rfl,
    fun cassette identity => gives_effect (effectCassettePowerOn cassette identity) rfl rfl,
    fun cassette => gives_effect (effectCassetteRemove cassette) rfl rfl,
    fun cassette torn => gives_effect (effectCassetteScanDone cassette torn) rfl rfl,
    fun cassette => gives_effect (effectCassetteFormatDone cassette) rfl rfl,
    fun cassette => gives_effect (effectEvacuationDone cassette) rfl rfl,
    fun cassette => gives_effect (effectCassetteRetireDone cassette) rfl rfl⟩

/-- Settles O41. -/
theorem probesLockGateAndSync : Obligations.ProbesLockGateAndSync := by
  unfold Obligations.ProbesLockGateAndSync
  intro t s0
  exact ⟨
    gives_effect effectSyncEdge rfl rfl,
    fun probe band => gives_effect (effectProbeLock probe band) rfl rfl,
    fun probe => gives_effect (effectProbeUnlock probe) rfl rfl,
    fun probe => gives_effect (effectProbeRelockRetry probe) rfl rfl,
    fun probe => gives_effect (effectProbeSyncGateEnd probe) rfl rfl,
    fun probe => gives_effect (effectProbeGateOpen probe) rfl rfl,
    fun _ => gives_of_exec rfl⟩

/-- Settles O43. -/
theorem startUpAndRestarts : Obligations.StartUpAndRestarts := by
  unfold Obligations.StartUpAndRestarts
  intro t s0 restart watchdog
  exact ⟨
    fun modId => gives_effect (effectStartupRelease modId) rfl rfl,
    gives_effect effectStartupEnd rfl rfl,
    gives_effect (fun a => a.watchdog 8) rfl rfl,
    gives_effect (fun a => a.watchdog 9) rfl rfl,
    gives_effect effectCulmRestartComplete rfl rfl,
    gives_effect effectFirmwareRevert rfl rfl⟩

/-- Settles O44. -/
theorem powerFails : Obligations.PowerFails := by
  unfold Obligations.PowerFails
  intro t s0 fail
  exact ⟨
    gives_of_exec rfl,
    gives_effect (fun a => a.startPowerFail 4) rfl rfl,
    gives_effect (fun a => a.startPowerFail 1) rfl rfl,
    gives_effect (fun a => a.startPowerFail 3) rfl rfl,
    gives_effect (fun a => a.startPowerFail 10) rfl rfl,
    gives_effect (fun a => a.startPowerFail 6) rfl rfl,
    gives_effect effectMainDomainDown rfl rfl⟩

/-- Settles O45. -/
theorem housekeepingAndProtection : Obligations.HousekeepingAndProtection := by
  unfold Obligations.HousekeepingAndProtection
  intro t s0
  exact ⟨
    fun codes => gives_effect (effectProtectionScan codes) rfl rfl,
    fun codes => gives_effect (effectHkReportingPass codes) rfl rfl,
    gives_effect effectThermalWarn rfl rfl,
    fun code => gives_effect (effectBladeImbalance code) rfl rfl,
    gives_effect effectPlateSensorFault rfl rfl,
    fun ms => gives_effect (effectHoldupMeasure ms) rfl rfl⟩

end Sys2Proof.Machine
end

section
/-! The tick that starts a VT second, and the settlement of O59. -/

namespace Sys2Proof.Machine

/-- Settles O59: the first clause is the effect of the row with its steps named in order, and the three work rows are executed by the
settings they name. -/
theorem secondBoundaryRunsInItsOrder : Obligations.SecondBoundaryRunsInItsOrder := by
  unfold Obligations.SecondBoundaryRunsInItsOrder
  refine ⟨?_, fun _ _ _ _ => rfl, fun _ => rfl, fun _ => rfl⟩
  intro ovr s ended start held a all
  exact ⟨_, rfl, settle_closes _ _⟩

end Sys2Proof.Machine
end

section
/-! The end of power-fail handling (R613 to R617): what it leaves of the reports, and the refutation of O60. -/

namespace Sys2Proof.Machine

/-! ## What the end of the handling leaves of the reports -/

theorem State.withEntry_power (s : State) (e : Option Nat) (f : State → Nat → State) (hf : ∀ j, (f s j).power = s.power) :
    (s.withEntry e f).power = s.power := by
  cases e with
  | none => rfl
  | some j => exact hf j

theorem State.endRuns_power (s : State) (t : Nat) (l : List Instr) (st : Status) (rem : Nat) : (s.endRuns t l st rem).power = s.power := by
  refine State.each_eq State.power _ (fun s i => ?_) l s
  split
  · exact s.withEntry_power _ _ fun _ => rfl
  · rfl

theorem State.endItem_power (s : State) (t : Nat) (st : Status) (rem : Nat) (i : Pending) : (s.endItem t st rem i).power = s.power :=
  (s.notStarted i.entry st rem).endRuns_power t i.cmds st rem

theorem State.failItems_power (s : State) (st : Status) (which : Nat → Pending → Bool) : (s.failItems st which).power = s.power := by
  refine State.each_eq State.power _ (fun s t => ?_) _ s
  rw [modTenant_power]
  exact State.each_eq State.power _ (fun s i => s.endItem_power t st 1 i) _ s

theorem State.endWork_power (s : State) : s.endWork.power = s.power := by
  unfold State.endWork
  extract_lets ended
  have hended : ended.power = s.power := by
    unfold ended
    split <;> rfl
  rw [← hended]
  exact State.each_eq State.power (fun s j => s.partialEntry j 1) (fun _ _ => rfl) _ ended

theorem State.revert_reports (s : State) (p : Prior) : (s.revert p).power.reports = s.power.reports := rfl

/-- R36: no report is among what the undoing of a switch brings back. -/
theorem State.undoSwitch_reports (s : State) : s.undoSwitch.power.reports = s.power.reports := by
  unfold State.undoSwitch
  split
  · rfl
  · extract_lets failed
    have hfailed : failed.power = s.power := (modJr_power _ _).trans (s.failItems_power ..)
    clear_value failed
    rw [← hfailed]
    split
    · exact revert_reports _ _
    · rfl

theorem State.held_reports (s : State) : s.held.power.reports = s.power.reports := rfl

/-- The last steps of the handling leave the reports as they find them. -/
theorem State.endOfHandling_reports (s : State) :
    ((s.undoSwitch.failItems .fault fun _ _ => true).endWork.held).power.reports = s.power.reports := by
  rw [held_reports, endWork_power, failItems_power, undoSwitch_reports]

/-! ## The refutation -/

theorem Closes.reports {e t : State} (h : Closes e t) : t.power.reports = e.power.reports := by rw [h.power]

theorem closes_of_exec_powerFailHandlingEnd {t : Nat} {s u : State} (h : exec (.powerFailHandlingEnd t) s = .next u) :
    Closes (effectPowerFailHandlingEnd (s.advance t)) u := by
  cases h
  exact settle_closes _ _

/-- R614, R617: where the main domain is still powered, the report of the handling says that it went down with the end. -/
theorem effectPowerFailHandlingEnd_mainDownUs {s : State} {r : PfReport} {l : List PfReport} (hstate : s.power.opState = .powerFail)
    (hmain : s.power.mainOn = true) (hreports : s.power.reports = r :: l) :
    (effectPowerFailHandlingEnd s).power.reports.map PfReport.mainDownUs = s.sinceCut :: l.map PfReport.mainDownUs := by
  unfold effectPowerFailHandlingEnd
  rw [if_neg (not_not.mpr hstate)]
  dsimp only
  rw [State.endOfHandling_reports]
  simp [State.countNotStarted, State.modReport, State.free, State.sinceCut, hmain, hreports]

/-- A block in power-fail handling whose main domain is still powered. -/
def handlingWithMainOn : State :=
  { State.reset with power := { State.reset.power with opState := .powerFail, mainOn := true, reports := [default] } }

/-- Refutes O60: where the main domain is still powered when the handling ends, the model also notes in the report when it went down; the
statement leaves that field of the report as it was. -/
theorem not_powerFailHandlingEndHoldsTheBlock : ¬ Obligations.PowerFailHandlingEndHoldsTheBlock := by
  unfold Obligations.PowerFailHandlingEndHoldsTheBlock
  intro h
  obtain ⟨u, hu, hstated⟩ := (h 625 handlingWithMainOn).2 rfl
  have hmodel := (closes_of_exec_powerFailHandlingEnd hu).reports
  have hmain := effectPowerFailHandlingEnd_mainDownUs (s := handlingWithMainOn.advance 625) rfl rfl rfl
  rw [← hmodel, hstated.reports, State.endOfHandling_reports] at hmain
  revert hmain
  decide

end Sys2Proof.Machine
end

section
/-! Commands in frames: from `Ready` to the answer (R463, R467), and the settlement of O46, O50 and O52. -/

namespace Sys2Proof.Machine

/-! ## Execution of a command that is ready -/

/-- A command answers `r` with the effect `b`, but for what closing adds. -/
def Answers (c : Instr) (f : Frame) (s : State) (r : Reply) (b : State) : Prop :=
  ∃ t, exec c s = .next t ∧ Closes (b.answered c f r) t

/-- R463: beside HELLO, a command in a frame that is not too long and of a tenant admitted there goes on to its sequence. -/
theorem State.accept_eq_sequence {s : State} {c : Instr} {f : Frame} (op : Nat) (hhello : ∀ g, c ≠ .hello g) (hsize : f.payload.length ≤ 8192)
    (hadmits : s.admits f.tenant.val f.src = true) : s.accept c op f = s.sequence c op f := by
  unfold accept
  rw [if_neg (Nat.not_lt.mpr hsize), if_neg (by simp [hadmits])]
  split
  · exact absurd rfl (hhello _)
  · rfl

/-- R464, R467: a command whose turn has come is executed, and the commands held behind it after it. -/
theorem State.sequence_of_turn {s : State} {c : Instr} {f : Frame} (op : Nat) (hturn : f.seq = (s.tenant f.tenant.val).nextSeq)
    (hrecorded : s.mustWait c = false) : s.sequence c op f = (s.execNext c op f).runHeld f.tenant.val 64 := by
  unfold sequence takeTurn
  rw [hturn, hrecorded]
  simp

theorem Reached.arrive_eq {c : Instr} {f : Frame} {s : State} (h : Reached c f s) (hhello : ∀ g, c ≠ .hello g) :
    (s.advance f.t).arrive c f = ((s.arrived f).execNext c (opcodeOf c) f).runHeld f.tenant.val 64 := by
  have hqueue : ((s.advance f.t).countFrame f.src).mustQueue f.src = false := h.atOnce
  unfold State.arrive
  rw [if_neg (by simp [h.received])]
  dsimp only
  rw [if_neg (by simp [hqueue])]
  exact (State.accept_eq_sequence _ hhello h.size h.admitted).trans (State.sequence_of_turn _ h.turn h.recorded)

/-- R463: steps 6 to 10 lead a command that is ready to its execution. -/
theorem Ready.judge_eq {c : Instr} {f : Frame} {s : State} {k : Cmd} (h : Ready c f s) (hk : cmdOf c = some k) (op : Nat) :
    (s.atTurn f).judge c op f = (s.atTurn f).perform k c op f := by
  obtain ⟨k', hk', htransport, hrights, hflags, hcheck, hstate⟩ := h.passes
  cases hk.symm.trans hk'
  unfold State.judge
  rw [hk]
  simp only [htransport, hrights, hflags, hcheck, hstate, require, if_true]
  rfl

section
variable {c : Instr} {f : Frame} {s : State} {k : Cmd} {op : Nat}
variable (hc : hostCommand c = some (op, f)) (hk : cmdOf c = some k) (hkind : k.kind ≠ .hello) (h : Ready c f s)
include hc hk hkind h

theorem Ready.exec_eq : exec c s = .next (State.settle s (((s.arrived f).execNext c (opcodeOf c) f).runHeld f.tenant.val 64)) := by
  have hhello (g : Frame) : c ≠ .hello g := by
    rintro rfl
    cases hk
    exact hkind rfl
  rw [exec_hostCommand hc, State.host, h.toReached.arrive_eq hhello]

theorem Ready.answers_of_ok {r : Reply} {b : State} (hperform : (s.atTurn f).perform k c (opcodeOf c) f = .ok (r, b)) :
    Answers c f s r b := by
  refine ⟨_, h.exec_eq hc hk hkind, ?_⟩
  have hexec : (s.arrived f).execNext c (opcodeOf c) f =
      (b.respond (opcodeOf c) f (crc32c (frameBytes (opcodeOf c) f)) (isReadback c) r).pendingRestart := by
    unfold State.execNext
    have hjudge := (h.judge_eq hk (opcodeOf c)).trans hperform
    unfold State.atTurn at hjudge
    simp only [hjudge, h.live, Bool.false_eq_true, if_false]
  rw [hexec]
  exact settle_closes _ _

theorem Ready.answers_of_error {r : Reply} (hperform : (s.atTurn f).perform k c (opcodeOf c) f = .error r) :
    Answers c f s r (s.atTurn f) := by
  refine ⟨_, h.exec_eq hc hk hkind, ?_⟩
  have hexec : (s.arrived f).execNext c (opcodeOf c) f =
      ((s.atTurn f).respond (opcodeOf c) f (crc32c (frameBytes (opcodeOf c) f)) (isReadback c) r).pendingRestart := by
    unfold State.execNext
    have hjudge := (h.judge_eq hk (opcodeOf c)).trans hperform
    unfold State.atTurn at hjudge
    simp only [hjudge]
    rfl
  rw [hexec]
  exact settle_closes _ _

end


/-! ## Configuration commands (R30, R471) -/

/-- What is left of the open stage of a tenant when a command enters it. -/
def State.stageWith (s : State) (f : Frame) (c : Instr) : List Instr := pruneStage ((s.tenant f.tenant.val).stage ++ [c])

/-- A command enters the open stage of its tenant: what it supersedes leaves it. -/
def State.enterStage (s : State) (f : Frame) (c : Instr) : State :=
  (s.endRuns f.tenant.val (((s.tenant f.tenant.val).stage ++ [c]).filter fun i => !(s.stageWith f c).contains i) .done 4).modTenant
    f.tenant.val fun t => { t with stage := s.stageWith f c }

section
variable {s b : State} {k : Cmd} {c : Instr} {f : Frame} {r : Reply} (hrun : k.run f s = .ok (r, b))
include hrun

theorem State.stageCmd_of_fits (hsize : stageSize (b.stageWith f c) ≤ 65536) : s.stageCmd k c f = .ok (r, b.enterStage f c) := by
  unfold stageCmd
  have hfits : decide (stageSize (pruneStage ((b.tenant f.tenant.val).stage ++ [c])) ≤ 65536) = true := decide_eq_true hsize
  simp only [hrun, bind, Except.bind, require, hfits, if_true]
  rfl

theorem State.stageCmd_of_overflow (hsize : 65536 < stageSize (b.stageWith f c)) : s.stageCmd k c f = .error (refuse .exhausted) := by
  unfold stageCmd
  have hover : decide (stageSize (pruneStage ((b.tenant f.tenant.val).stage ++ [c])) ≤ 65536) = false :=
    decide_eq_false (Nat.not_le.mpr hsize)
  simp only [hrun, bind, Except.bind, require, hover]
  rfl

end

theorem State.stageCmd_of_refused {s : State} {k : Cmd} {c : Instr} {f : Frame} {r : Reply} (hrun : k.run f s = .error r) :
    s.stageCmd k c f = .error r := by
  unfold stageCmd
  rw [hrun]
  rfl

theorem State.perform_staged {s : State} {k : Cmd} (hkind : k.kind = .staged) (c : Instr) (op : Nat) (f : Frame) :
    s.perform k c op f = s.stageCmd k c f := by
  unfold perform
  rw [hkind]

/-- A staged command that is ready: it enters the stage its run leaves, or is refused where the stage would be too large. -/
theorem Ready.answers_of_staged {c : Instr} {f : Frame} {s b : State} {k : Cmd} {op : Nat} {r : Reply} (hc : hostCommand c = some (op, f))
    (hk : cmdOf c = some k) (hkind : k.kind = .staged) (hrun : k.run f (s.atTurn f) = .ok (r, b)) (h : Ready c f s) :
    (stageSize (b.stageWith f c) ≤ 65536 → Answers c f s r (b.enterStage f c))
    ∧ (65536 < stageSize (b.stageWith f c) → Answers c f s (refuse .exhausted) (s.atTurn f)) := by
  have hhello : k.kind ≠ .hello := by simp [hkind]
  exact ⟨fun hsize => h.answers_of_ok hc hk hhello ((State.perform_staged hkind ..).trans (State.stageCmd_of_fits hrun hsize)),
    fun hsize => h.answers_of_error hc hk hhello ((State.perform_staged hkind ..).trans (State.stageCmd_of_overflow hrun hsize))⟩

/-- R145: the journal entry a calibration run takes when it is staged. -/
def State.calRunEntry (s : State) (f : Frame) : JournalEntry :=
  { s.pendingEntry f.tenant.val f.seq 0x0403 s.time.vtSec with total := BitVec.ofNat 32 (s.enabledIn (maskAt 128 f.payload 0 16)).length }

theorem calRunCmd_run (f : Frame) (s : State) : calRunCmd.run f s = match s.newEntry (s.calRunEntry f) with
    | some (j, s) => .ok ({ journal := some j }, s)
    | none => .error (refuse .exhausted) := rfl

theorem calRunCmd_run_of_entry {f : Frame} {s b : State} {j : Nat} (h : s.newEntry (s.calRunEntry f) = some (j, b)) :
    calRunCmd.run f s = .ok ({ journal := some j }, b) := by rw [calRunCmd_run, h]

theorem calRunCmd_run_of_none {f : Frame} {s : State} (h : s.newEntry (s.calRunEntry f) = none) :
    calRunCmd.run f s = .error (refuse .exhausted) := by rw [calRunCmd_run, h]

/-- Settles O46. -/
theorem configurationCommandsEnterTheStage : Obligations.ConfigurationCommandsEnterTheStage := by
  unfold Obligations.ConfigurationCommandsEnterTheStage
  intro f s a completes n left staged run enters
  have henters {c : Instr} {k : Cmd} {op : Nat} (hc : hostCommand c = some (op, f)) (hk : cmdOf c = some k) (hkind : k.kind = .staged)
      (hrun : k.run f (s.atTurn f) = .ok ({}, s.atTurn f)) : enters c := fun h => h.answers_of_staged hc hk hkind hrun
  iterate 44 refine ⟨henters rfl rfl rfl rfl, ?_⟩
  refine ⟨fun j b h hentry => ?_, fun h hentry => ?_⟩
  · exact h.answers_of_staged rfl rfl rfl (calRunCmd_run_of_entry hentry)
  · refine h.answers_of_error rfl rfl (by decide) ?_
    exact (State.perform_staged rfl ..).trans (State.stageCmd_of_refused (calRunCmd_run_of_none hentry))

/-! ## Schedulable commands (R476) -/

theorem State.perform_now {s : State} {k : Cmd} {f : Frame} (hkind : k.kind = .schedulable) (htarget : f.target = 0) (hasap : asap f = false)
    (c : Instr) (op : Nat) : s.perform k c op f = k.run f s := by
  unfold perform
  rw [hkind]
  exact if_pos ⟨htarget, by simp [hasap]⟩

theorem State.perform_later {s : State} {k : Cmd} {f : Frame} (hkind : k.kind = .schedulable) (h : ¬(f.target = 0 ∧ asap f = false))
    (c : Instr) (op : Nat) : s.perform k c op f = (s.effectSecond f s.earliestSecond).bind fun sec =>
      s.newItem f op sec fun j => .scheduled (BitVec.ofNat 48 sec) f.seq j c := by
  unfold perform
  rw [hkind]
  exact if_neg (by simpa using h)

theorem State.newItem_of_entry {s b : State} {f : Frame} {op sec j : Nat} (mk : Nat → Pending)
    (hroom : (s.tenant f.tenant.val).items.length < 16)
    (hentry : s.newEntry (s.pendingEntry f.tenant.val f.seq op (BitVec.ofNat 48 sec)) = some (j, b)) :
    s.newItem f op sec mk = .ok ({ status := .scheduled, payload := w64 sec, journal := some j },
      b.modTenant f.tenant.val fun t => { t with items := t.items ++ [mk j] }) := by
  unfold newItem
  rw [if_neg (Nat.not_le.mpr hroom), hentry]

theorem State.newItem_of_exhausted {s : State} {f : Frame} {op sec : Nat} (mk : Nat → Pending)
    (h : 16 ≤ (s.tenant f.tenant.val).items.length
      ∨ s.newEntry (s.pendingEntry f.tenant.val f.seq op (BitVec.ofNat 48 sec)) = none) :
    s.newItem f op sec mk = .error (refuse .exhausted) := by
  unfold newItem
  split
  · rfl
  · next hroom => rw [h.resolve_left hroom]

/-- Settles O50. -/
theorem schedulableCommandsActNowOrWait : Obligations.SchedulableCommandsActNowOrWait := by
  unfold Obligations.SchedulableCommandsActNowOrWait
  intro f s a completes p n now
  have hnow {c : Instr} {k : Cmd} {op : Nat} {b : State} (hc : hostCommand c = some (op, f)) (hk : cmdOf c = some k)
      (hkind : k.kind = .schedulable) (hrun : k.run f (s.atTurn f) = .ok ({}, b)) : now c b := fun h htarget hasap =>
    h.answers_of_ok hc hk (by simp [hkind]) ((State.perform_now hkind htarget hasap ..).trans hrun)
  refine ⟨hnow rfl rfl rfl rfl, hnow rfl rfl rfl rfl, hnow rfl rfl rfl rfl, hnow rfl rfl rfl rfl, hnow rfl rfl rfl rfl,
    hnow rfl rfl rfl rfl, fun c hmem h hlater => ?_⟩
  obtain ⟨k, op, hc, hk, hkind⟩ : ∃ k op, hostCommand c = some (op, f) ∧ cmdOf c = some k ∧ k.kind = .schedulable := by
    simp only [List.mem_cons, List.not_mem_nil, or_false] at hmem
    rcases hmem with rfl | rfl | rfl | rfl | rfl | rfl <;> exact ⟨_, _, rfl, rfl, rfl⟩
  have hhello : k.kind ≠ .hello := by simp [hkind]
  have hperform := State.perform_later (s := s.atTurn f) hkind hlater c (opcodeOf c)
  refine ⟨fun sec j b hsec hroom hentry => ?_, fun r hsec => ?_, fun sec hsec hnone => ?_⟩
  · rw [show (s.atTurn f).effectSecond f (s.atTurn f).earliestSecond = .ok sec from hsec] at hperform
    exact h.answers_of_ok hc hk hhello (hperform.trans (State.newItem_of_entry _ hroom hentry))
  · rw [show (s.atTurn f).effectSecond f (s.atTurn f).earliestSecond = .error r from hsec] at hperform
    exact h.answers_of_error hc hk hhello hperform
  · rw [show (s.atTurn f).effectSecond f (s.atTurn f).earliestSecond = .ok sec from hsec] at hperform
    exact h.answers_of_error hc hk hhello (hperform.trans (State.newItem_of_exhausted _ hnone))

/-! ## Work under an entry (R483) -/

theorem State.perform_immediate {s : State} {k : Cmd} (hkind : k.kind = .immediate) (c : Instr) (op : Nat) (f : Frame) :
    s.perform k c op f = k.run f s := by
  unfold perform
  rw [hkind]

section
variable {s b : State} {f : Frame} {op units j : Nat}

theorem State.startWork_of_entry (h : s.newEntry (s.workEntry f.tenant.val f.seq op units) = some (j, b)) :
    s.startWork f op units = .ok (j, b) := by
  unfold startWork
  rw [h]

theorem State.startWork_of_none (h : s.newEntry (s.workEntry f.tenant.val f.seq op units) = none) :
    s.startWork f op units = .error (refuse .exhausted) := by
  unfold startWork
  rw [h]

theorem State.doneAtOnce_of_entry (h : s.newEntry (s.workEntry f.tenant.val f.seq op units) = some (j, b)) :
    s.doneAtOnce f op units = .ok (j, b.completeAll j) := by
  unfold doneAtOnce
  rw [startWork_of_entry h]
  rfl

theorem State.doneAtOnce_of_none (h : s.newEntry (s.workEntry f.tenant.val f.seq op units) = none) :
    s.doneAtOnce f op units = .error (refuse .exhausted) := by
  unfold doneAtOnce
  rw [startWork_of_none h]
  rfl

end

/-- The run of a command begins with work under an entry: `act` is what follows where there is one, and without one it is refused. -/
structure RunsUnderEntry (k : Cmd) (f : Frame) (s : State) (op units : Nat) (act : Nat → State → Reply × State) : Prop where
  entry : ∀ j b, s.newEntry (s.workEntry f.tenant.val f.seq op units) = some (j, b) → k.run f s = .ok (act j b)
  none : s.newEntry (s.workEntry f.tenant.val f.seq op units) = none → k.run f s = .error (refuse .exhausted)

/-- Work that goes on after the command. -/
theorem RunsUnderEntry.of_startWork {k : Cmd} {f : Frame} {s : State} {op units : Nat} {act : Nat → State → Reply × State}
    (hrun : k.run f s = (s.startWork f op units).bind fun p => .ok (act p.1 p.2)) : RunsUnderEntry k f s op units act where
  entry j b h := by rw [hrun, State.startWork_of_entry h]; rfl
  none h := by rw [hrun, State.startWork_of_none h]; rfl

/-- Work that is done as it is executed. -/
theorem RunsUnderEntry.of_doneAtOnce {k : Cmd} {f : Frame} {s : State} {op units : Nat} {act : Nat → State → Reply × State}
    (hrun : k.run f s = (s.doneAtOnce f op units).bind fun p => .ok (act p.1 p.2)) :
    RunsUnderEntry k f s op units fun j b => act j (b.completeAll j) where
  entry j b h := by rw [hrun, State.doneAtOnce_of_entry h]; rfl
  none h := by rw [hrun, State.doneAtOnce_of_none h]; rfl

theorem engineKeyEnrollCmd_runs (f : Frame) (s : State) :
    RunsUnderEntry engineKeyEnrollCmd f s 0x0808 1 fun j b =>
      let c := b.completeAll j
      ({ journal := some j },
        if p8 f.payload 1 = 1 then { c with keys := aset c.keys (p8 f.payload 0) (BitVec.ofNat 256 (leNat (part f.payload 4 32))) }
        else { c with keys := adel c.keys (p8 f.payload 0)
                      images := c.images.map fun x =>
                        if !x.2.image.isEmpty && imageKey x.2.image == p8 f.payload 0 then
                          (x.1, { x.2 with usable := false, keyRevoked := true })
                        else x }) := by
  by_cases hgives : p8 f.payload 1 = 1
  · simp only [hgives, if_true]
    exact .of_doneAtOnce (act := fun j c => ({ journal := some j },
      { c with keys := aset c.keys (p8 f.payload 0) (BitVec.ofNat 256 (leNat (part f.payload 4 32))) }))
      (congrArg _ (funext fun _ => if_pos hgives))
  · simp only [hgives, if_false]
    exact .of_doneAtOnce (act := fun j c => ({ journal := some j },
      { c with keys := adel c.keys (p8 f.payload 0)
               images := c.images.map fun x =>
                 if !x.2.image.isEmpty && imageKey x.2.image == p8 f.payload 0 then (x.1, { x.2 with usable := false, keyRevoked := true })
                 else x }))
      (congrArg _ (funext fun _ => if_neg hgives))

theorem cassetteRetireCmd_runs (f : Frame) (s : State) :
    RunsUnderEntry cassetteRetireCmd f s 0x0B0A 1 fun j b =>
      ({ journal := some j },
        if p8 f.payload 1 = 0 then b.modCassette (p8 f.payload 0) fun x => { x with retireJournal := some j }
        else (((b.completeAll j).modCassette (p8 f.payload 0) fun x => { x.enter with powered := true }).modEntries
          (fun e => e.cassette.val == p8 f.payload 0) fun e => { e with offline := false }).serveArchive) := by
  by_cases hretires : p8 f.payload 1 = 0
  · have hrun : cassetteRetireCmd.run f s = (s.startWork f 0x0B0A 1).bind fun p =>
        .ok ({ journal := some p.1 }, p.2.modCassette (p8 f.payload 0) fun x => { x with retireJournal := some p.1 }) := if_pos hretires
    simp only [hretires, if_true]
    exact .of_startWork hrun
  · simp only [hretires, if_false]
    exact .of_doneAtOnce (act := fun j c => ({ journal := some j },
      ((c.modCassette (p8 f.payload 0) fun x => { x.enter with powered := true }).modEntries
          (fun e => e.cassette.val == p8 f.payload 0) fun e => { e with offline := false }).serveArchive)) (if_neg hretires)

/-! ## A block of an update (R620) -/

/-- R620: the inactive slot as a block finds it: a package begins where it holds none in part. -/
def State.beginPackage (s : State) : State :=
  if s.power.fw.otherState != 1 then s.modFw fun w => { w with blocks := [], journal := none, otherState := 1, otherVersion := 0 } else s

/-- R620: the block of a FIRMWARE_LOAD in its place, and the progress of the update's entry `j`. -/
def State.loadBlock (s : State) (f : Frame) (j : Option Nat) : State :=
  (s.modFw fun w => { w with blocks := aset w.blocks (p32 f.payload 0) (f.payload.drop 4), journal := j }).withEntry j
    fun s j => s.modEntry j fun x => { x with done := BitVec.ofNat 32 s.power.fw.blocks.length }

/-- R620: the update's entry: made by the first block at offset 0 of a package. -/
def State.packageEntry (s : State) (f : Frame) : Except Reply (Option Nat × State) :=
  if p32 f.payload 0 = 0 ∧ s.power.fw.journal.isNone then
    (s.startWork f 0x1006 (blocksOf (Config.fwLength (f.payload.drop 4)))).bind fun p => .ok (some p.1, p.2)
  else .ok (s.power.fw.journal, s)

section
variable {f : Frame} {s : State}

theorem State.packageEntry_of_entry {j : Nat} {d : State} (hoffset : p32 f.payload 0 = 0) (hnone : s.power.fw.journal = none)
    (hentry : s.newEntry (s.workEntry f.tenant.val f.seq 0x1006 (blocksOf (Config.fwLength (f.payload.drop 4)))) = some (j, d)) :
    s.packageEntry f = .ok (some j, d) := by
  unfold packageEntry
  rw [if_pos ⟨hoffset, by simp [hnone]⟩, startWork_of_entry hentry]
  rfl

theorem State.packageEntry_of_no_entry (h : ¬(p32 f.payload 0 = 0 ∧ s.power.fw.journal = none)) :
    s.packageEntry f = .ok (s.power.fw.journal, s) := if_neg (by simpa using h)

theorem firmwareLoadCmd_run_of_activation (h : s.power.fw.activation = true) : firmwareLoadCmd.run f s = .error (refuse .busy) := by
  simp only [firmwareLoadCmd, h, require]
  rfl

theorem firmwareLoadCmd_run (h : s.power.fw.activation = false) : firmwareLoadCmd.run f s =
    (s.beginPackage.packageEntry f).bind fun p => .ok ({ journal := p.1 }, p.2.loadBlock f p.1) := by
  unfold State.packageEntry
  simp only [firmwareLoadCmd, h, require, ← State.beginPackage.eq_1]
  change ite _ _ _ = _
  split
  · cases s.beginPackage.startWork f 0x1006 (blocksOf (Config.fwLength (f.payload.drop 4))) <;> rfl
  · rfl

theorem firmwareLoadCmd_run_of_entry {j : Nat} {d : State} (h : s.power.fw.activation = false) (hoffset : p32 f.payload 0 = 0)
    (hnone : s.beginPackage.power.fw.journal = none) (hentry : s.beginPackage.newEntry
      (s.beginPackage.workEntry f.tenant.val f.seq 0x1006 (blocksOf (Config.fwLength (f.payload.drop 4)))) = some (j, d)) :
    firmwareLoadCmd.run f s = .ok ({ journal := some j }, d.loadBlock f (some j)) := by
  rw [firmwareLoadCmd_run h, State.packageEntry_of_entry hoffset hnone hentry]
  rfl

theorem firmwareLoadCmd_run_of_no_entry (h : s.power.fw.activation = false)
    (hgoes : ¬(p32 f.payload 0 = 0 ∧ s.beginPackage.power.fw.journal = none)) : firmwareLoadCmd.run f s =
      .ok ({ journal := s.beginPackage.power.fw.journal }, s.beginPackage.loadBlock f s.beginPackage.power.fw.journal) := by
  rw [firmwareLoadCmd_run h, State.packageEntry_of_no_entry hgoes]
  rfl

end

/-! ## The commands that act at once (R405 to R621) -/

/-- Settles O52. -/
theorem workCommandsActUnderAnEntry : Obligations.WorkCommandsActUnderAnEntry := by
  unfold Obligations.WorkCommandsActUnderAnEntry
  intro f s a completes p n work archived again
  have hwork {c : Instr} {k : Cmd} {op units : Nat} {act : Nat → State → Reply × State} (hc : hostCommand c = some (op, f))
      (hk : cmdOf c = some k) (hkind : k.kind = .immediate) (hrun : RunsUnderEntry k f (s.atTurn f) (opcodeOf c) units act) :
      work c units act := fun h =>
    ⟨fun j b hentry => h.answers_of_ok hc hk (by simp [hkind]) ((State.perform_immediate hkind ..).trans (hrun.entry j b hentry)),
      fun hnone => h.answers_of_error hc hk (by simp [hkind]) ((State.perform_immediate hkind ..).trans (hrun.none hnone))⟩
  refine ⟨?_, ?_, ?_, hwork rfl rfl rfl (engineKeyEnrollCmd_runs f a),
    hwork rfl rfl rfl (.of_startWork rfl), ?_, hwork rfl rfl rfl (.of_startWork rfl),
    hwork rfl rfl rfl (.of_startWork rfl), hwork rfl rfl rfl (cassetteRetireCmd_runs f a), hwork rfl rfl rfl (.of_startWork rfl), ?_, ?_⟩
  · exact hwork rfl rfl rfl (.of_doneAtOnce (act := fun j c =>
      let x := (c.image (p8 p 0)).getD { owner := f.tenant }
      ({ journal := some j }, { c with images := aset c.images (p8 p 0) { x with staging := stageBlock x.staging (p32 p 4) (p.drop 8) } })) rfl)
  · exact hwork rfl rfl rfl (.of_doneAtOnce (act := fun j c => ({ journal := some j },
      { c with images := amod c.images (p8 p 0) fun x =>
          { x with image := stagedFile x.staging (p32 p 4), staging := [], usable := true, keyRevoked := false } })) rfl)
  · exact hwork rfl rfl rfl (.of_doneAtOnce (act := fun j c => ({ journal := some j }, { c with images := adel c.images (p8 p 0) })) rfl)
  · exact hwork rfl rfl rfl (.of_doneAtOnce (act := fun j c =>
      let of := (c.granary.catalogue.filter fun r => retains f r.entry).map fun r => r.entry.cassette.val
      ({ journal := some j }, (if p8 p 12 = 0 then c.deleteRecords (retains f)
        else (c.modEntries (retains f) fun e => { e with prot := p8 p 12 == 1 }).each of State.catChange).serveArchive)) rfl)
  · intro h w b level
    exact h.answers_of_ok rfl rfl (by decide) rfl
  · intro h b c loaded
    have hperform : a.perform firmwareLoadCmd (.firmwareLoad f) (opcodeOf (.firmwareLoad f)) f = firmwareLoadCmd.run f a :=
      State.perform_immediate rfl ..
    exact ⟨fun hact => h.answers_of_error rfl rfl (by decide) (hperform.trans (firmwareLoadCmd_run_of_activation hact)),
      fun hact => ⟨fun j d hoffset hnone hentry =>
          h.answers_of_ok rfl rfl (by decide) (hperform.trans (firmwareLoadCmd_run_of_entry hact hoffset hnone hentry)),
        fun hgoes => h.answers_of_ok rfl rfl (by decide) (hperform.trans (firmwareLoadCmd_run_of_no_entry hact hgoes))⟩⟩

end Sys2Proof.Machine
end
